-- ==== Sys2Proof/Word.lean ====
section
/-! DEFINITION. The words of the part: characters of the control link and of the buses, and audio samples. -/

namespace Sys2Proof

/-- One character of the control link or of a bus: 8 content bits (R192, R203). -/
abbrev Byte := BitVec 8

/-- One audio sample: 24 bits, signed (chapter 9, section 9.6). -/
abbrev Sample := BitVec 24

end Sys2Proof
end

