-- ==== Sys2Proof/Syntax.lean ====
section
/-! DEFINITION. The commands the part takes: one constructor of `Instr` for each row of
spec/opcode_table.json. A request of the host is a command with the tag and the body of its frame (R206);
the other commands are the events of the pins, the link, the clock and the buses. -/

namespace Sys2Proof

/-- The five unit buses (04 section 4.1): D0 to D3 and the booth bus B. -/
inductive BusId where
  | d0 | d1 | d2 | d3 | b
  deriving DecidableEq, Repr

/-- The bus number: 0 to 3 for D0 to D3, and 4 for B (R206, COUNTER_SET). -/
def BusId.index : BusId → Nat
  | .d0 => 0
  | .d1 => 1
  | .d2 => 2
  | .d3 => 3
  | .b => 4

/-- The class a unit reports in its answers (R66). -/
inductive UnitClass where
  | delegate | chair | console
  deriving DecidableEq, Repr

/-- The command an ACK acknowledges (R66): OPEN or CLOSE. -/
inductive AckOf where
  | ofOpen | ofClose
  deriving DecidableEq, Repr

/-- Why LINK_FRAME_DISCARD discards a frame (R193 (1), (2), (4)). A timeout, R193 (3), is a command of its own. -/
inductive DiscardCause where
  | badCheck | badLength | badCharacter
  deriving DecidableEq, Repr

/-- The upstream audio of one slot of one bus over a block: its 48 samples (R61, R63). -/
structure Upstream where
  bus : BusId
  slot : Nat
  samples : List Sample
  deriving DecidableEq, Repr

/-- The commands. -/
inductive Instr where
  /-- POWER_ON (R202): power is applied with these levels on the rate straps (yes is high). -/
  | powerOn (rate1 rate0 : Bool)
  /-- RESET_ASSERT (R202): the RESET pin goes low. -/
  | resetAssert
  /-- RESET_RELEASE (R202): the RESET pin returns high with these levels on the rate straps. -/
  | resetRelease (rate1 rate0 : Bool)
  /-- SEGMENT_SET (R2): the request with this tag and this body is taken. -/
  | segmentSet (tag : Byte) (body : List Byte)
  /-- PARTITION_SET (R4): the request with this tag and this body is taken. -/
  | partitionSet (tag : Byte) (body : List Byte)
  /-- SEAT_SET (R84): the request with this tag and this body is taken. -/
  | seatSet (tag : Byte) (body : List Byte)
  /-- BOOTH_SET (R130): the request with this tag and this body is taken. -/
  | boothSet (tag : Byte) (body : List Byte)
  /-- START (R199): the request with this tag and this body is taken. -/
  | start (tag : Byte) (body : List Byte)
  /-- STOP (R200): the request with this tag and this body is taken. -/
  | stop (tag : Byte) (body : List Byte)
  /-- STOP_COMPLETE (R81): the OFF broadcast has been sent on all five buses. -/
  | stopComplete
  /-- RESTART (R201): the request with this tag and this body is taken. -/
  | restart (tag : Byte) (body : List Byte)
  /-- RESTART_TAKES_EFFECT (R201): the block boundary after RESTART. -/
  | restartTakesEffect
  /-- PARTITION_DECLARE (R5): the request with this tag and this body is taken. -/
  | partitionDeclare (tag : Byte) (body : List Byte)
  /-- ROOM_SET (R22): the request with this tag and this body is taken. -/
  | roomSet (tag : Byte) (body : List Byte)
  /-- LEVEL_SET (R24): the request with this tag and this body is taken. -/
  | levelSet (tag : Byte) (body : List Byte)
  /-- LANGUAGES_SET (R25): the request with this tag and this body is taken. -/
  | languagesSet (tag : Byte) (body : List Byte)
  /-- SESSION_OPEN (R28): the request with this tag and this body is taken. -/
  | sessionOpen (tag : Byte) (body : List Byte)
  /-- SESSION_ARM (R27): the request with this tag and this body is taken. -/
  | sessionArm (tag : Byte) (body : List Byte)
  /-- SESSION_DISARM (R29): the request with this tag and this body is taken. -/
  | sessionDisarm (tag : Byte) (body : List Byte)
  /-- SESSION_END (R34): the request with this tag and this body is taken. -/
  | sessionEnd (tag : Byte) (body : List Byte)
  /-- ROOM_QUERY (R26): the request with this tag and this body is taken. -/
  | roomQuery (tag : Byte) (body : List Byte)
  /-- MIC_OPEN (R97): the request with this tag and this body is taken. -/
  | micOpen (tag : Byte) (body : List Byte)
  /-- MIC_CLOSE (R98): the request with this tag and this body is taken. -/
  | micClose (tag : Byte) (body : List Byte)
  /-- REQUEST_ADD (R99): the request with this tag and this body is taken. -/
  | requestAdd (tag : Byte) (body : List Byte)
  /-- REQUEST_CANCEL (R99): the request with this tag and this body is taken. -/
  | requestCancel (tag : Byte) (body : List Byte)
  /-- NEXT (R106): the request with this tag and this body is taken. -/
  | nextCandidate (tag : Byte) (body : List Byte)
  /-- QUEUE_CLEAR (R116): the request with this tag and this body is taken. -/
  | queueClear (tag : Byte) (body : List Byte)
  /-- SEAT_TRIM (R85): the request with this tag and this body is taken. -/
  | seatTrim (tag : Byte) (body : List Byte)
  /-- SEAT_QUERY (R86): the request with this tag and this body is taken. -/
  | seatQuery (tag : Byte) (body : List Byte)
  /-- QUEUE_QUERY (R121): the request with this tag and this body is taken. -/
  | queueQuery (tag : Byte) (body : List Byte)
  /-- BOOTH_SOURCE (R146): the request with this tag and this body is taken. -/
  | boothSource (tag : Byte) (body : List Byte)
  /-- BOOTH_TRIM (R147): the request with this tag and this body is taken. -/
  | boothTrim (tag : Byte) (body : List Byte)
  /-- BOOTH_OFF (R140): the request with this tag and this body is taken. -/
  | boothOff (tag : Byte) (body : List Byte)
  /-- BOOTH_QUERY (R148): the request with this tag and this body is taken. -/
  | boothQuery (tag : Byte) (body : List Byte)
  /-- SLOT_QUERY (R163): the request with this tag and this body is taken. -/
  | slotQuery (tag : Byte) (body : List Byte)
  /-- GROUP_SET (R124): the request with this tag and this body is taken. -/
  | groupSet (tag : Byte) (body : List Byte)
  /-- COUNTER_SET (R182): the request with this tag and this body is taken. -/
  | counterSet (tag : Byte) (body : List Byte)
  /-- COUNTER_READ (R183): the request with this tag and this body is taken. -/
  | counterRead (tag : Byte) (body : List Byte)
  /-- IDENTIFY (R198): the request with this tag and this body is taken. -/
  | identify (tag : Byte) (body : List Byte)
  /-- UNKNOWN_KIND (R195 (1)): a request frame whose kind names no request is taken. -/
  | unknownKind (kind tag : Byte) (body : List Byte)
  /-- INPUT_FULL (R194): this request frame completes while the input queue holds 8 frames. -/
  | inputFull (kind tag : Byte) (body : List Byte)
  /-- LINK_FRAME_DISCARD (R193): a frame is discarded, this many bytes after its start, start byte included. -/
  | linkFrameDiscard (cause : DiscardCause) (received : Nat)
  /-- LINK_FRAME_TIMEOUT (R193 (3)): the frame in reception is not complete at its 20th block boundary. -/
  | linkFrameTimeout
  /-- FRAME_SENT (R197): the transmitter finishes a frame. -/
  | frameSent
  /-- SETTLING_EVENT (R6): the level of this sense input, 1 to 16, has held for 100 boundaries. -/
  | settlingEvent (input : Nat)
  /-- BLOCK_BOUNDARY (R165): a 1 ms boundary, with the levels of the sense inputs at it (bit p - 1 is input p, and
  a high level is CONTACT_OPEN) and the upstream audio of the block that ends at it. -/
  | blockBoundary (sense : BitVec 16) (audio : List Upstream)
  /-- TABLE_SWITCH (R160): the on-air table becomes a copy of the allocation table. -/
  | tableSwitch
  /-- ROOM_TIMER_EXPIRY (R31): the timer of an ARMED room has reached 0. -/
  | roomTimerExpiry
  /-- HOLD_OFF_END (R95): the 250th boundary after a close acknowledgement. -/
  | holdOffEnd
  /-- SPEAKING_CLOCK_SECOND (R108): the clock of a LIVE seat has reached a whole second. -/
  | speakingClockSecond
  /-- RAMP_SETTLE (R169): the effective level of a ramping room has reached its target. -/
  | rampSettle
  /-- SECOND_BOUNDARY (R187): the counter unit's block count has wrapped. -/
  | secondBoundary
  /-- BUS_EXCHANGE (R71): an exchange of this bus begins. -/
  | busExchange (bus : BusId)
  /-- UNIT_REPLY_STATUS (R66): a STATUS answer arrives on this bus. -/
  | unitReplyStatus (bus : BusId) (presses : BitVec 2) (held : Bool) (cls : UnitClass)
  /-- UNIT_REPLY_ACK (R67): an ACK answer arrives on this bus. -/
  | unitReplyAck (bus : BusId) (acked : AckOf) (presses : BitVec 2) (held : Bool) (cls : UnitClass)
  /-- EXCHANGE_MISSED (R74): the exchange begun on this bus gets no valid answer. -/
  | exchangeMissed (bus : BusId)
  /-- LINK_CHARACTER_RECEIVED (R193): a character arrives on RX; `stopHigh` is no for a character error (R192). -/
  | linkCharacterReceived (char : Byte) (stopHigh : Bool)
  /-- REQUEST_FRAME_QUEUED (R194): this frame completes with its check passing. -/
  | requestFrameQueued (kind tag : Byte) (body : List Byte)
  deriving DecidableEq, Repr

end Sys2Proof
end

