-- ==== Sys2Proof/Machine/Messages.lean ====
section
/-! DEFINITION. The values that the part's blocks hold and that its replies and notices carry: modes, states,
causes, the room profile, the reply contents and the notices of chapters 1 to 11. Each enumeration lists its values
in the order of the rule that defines it, which is the order of its codes (R203). -/

namespace Sys2Proof.Machine

/-- The operating phase (R198). -/
inductive Phase where
  | config | run
  deriving DecidableEq, Repr

/-- A declared or effective wall state (R3): OPEN or CLOSED. -/
inductive Wall where
  | opened | closed
  deriving DecidableEq, Repr

/-- A sensed wall state (R3). -/
inductive Sensed where
  | retracted | deployed | unknown
  deriving DecidableEq, Repr

/-- The level of a sense input (R6): CONTACT_CLOSED or CONTACT_OPEN. -/
inductive Contact where
  | closed | opened
  deriving DecidableEq, Repr

/-- The floor mode (R20): OPEN, REQUEST or CHAIR. -/
inductive FloorMode where
  | openFloor | request | chair
  deriving DecidableEq, Repr

/-- The overflow of OPEN mode (R20). -/
inductive Overflow where
  | queue | refuse
  deriving DecidableEq, Repr

/-- The service order of the request queue (R20). -/
inductive ServiceOrder where
  | arrival | rotating
  deriving DecidableEq, Repr

/-- The priority action (R20). -/
inductive PriorityAction where
  | muteAll | closeAll | closeAndClear
  deriving DecidableEq, Repr

/-- The limit action (R20). -/
inductive LimitAction where
  | close | notify
  deriving DecidableEq, Repr

/-- The booth contention (R20). -/
inductive Contention where
  | interlock | takeover
  deriving DecidableEq, Repr

/-- A room profile (R20). Limits and seconds are counts, levels are steps of 0.5 dB. `fill` none is OFF. -/
structure Profile where
  floorMode : FloorMode
  openLimit : Nat
  chairLimit : Nat
  overflow : Overflow
  mayClose : Bool
  mayCancel : Bool
  service : ServiceOrder
  action : PriorityAction
  speakingLimit : Nat
  warningLead : Nat
  limitAction : LimitAction
  level : Int
  fill : Option Int
  contention : Contention
  languages : List Nat
  deriving DecidableEq, Repr

/-- The defaults of R20. -/
def Profile.defaults : Profile :=
  { floorMode := .request, openLimit := 4, chairLimit := 2, overflow := .queue, mayClose := true, mayCancel := true,
    service := .arrival, action := .muteAll, speakingLimit := 0, warningLead := 30, limitAction := .close,
    level := -12, fill := some (-12), contention := .interlock, languages := [] }

/-- The session state of a room (R19). -/
inductive Session where
  | dormant | armed | inSession | ending
  deriving DecidableEq, Repr

/-- A set of wake conditions (R19, R27). -/
structure Wake where
  chairPress : Bool
  delegatePress : Bool
  consolePress : Bool
  timer : Bool
  deriving DecidableEq, Repr

/-- The empty set of wake conditions. -/
def Wake.empty : Wake := { chairPress := false, delegatePress := false, consolePress := false, timer := false }

/-- Why a session state changes (R36). -/
inductive SessionCause where
  | sessionArm | sessionOpen | sessionDisarm | sessionEnd | chairPress | delegatePress | consolePress | timer
  | lastClosed | merge | split
  deriving DecidableEq, Repr

/-- Who woke a room (R36): a seat by its number or a console by its address. -/
inductive Waker where
  | seat (n : Nat) | console (address : Nat)
  deriving DecidableEq, Repr

/-- The ramp state of a room's level (R168). -/
inductive Ramp where
  | settled | ramping
  deriving DecidableEq, Repr

/-- The class of a seat (R83). -/
inductive SeatClass where
  | delegate | chair
  deriving DecidableEq, Repr

/-- The microphone state of a seat (R83). -/
inductive Mic where
  | absent | idle | queued | opening | live | closing | holdOff
  deriving DecidableEq, Repr

/-- An indication of a unit, in the order of the codes of 11.6.5 (R65). -/
inductive Indication where
  | noSession | idle | waiting | speaking | warning | blocked | ready | cueing | onAir | busy
  deriving DecidableEq, Repr

/-- Why a mic state changes (R89). -/
inductive MicCause where
  | press | host | promoted | next | replaced | opened | closed | holdOffEnd | limit | priority | priorityEnd
  | sessionEnd | unitLost | unitFound
  deriving DecidableEq, Repr

/-- Why a press is refused (R89). -/
inductive RefusedCause where
  | queueFull | atLimit | busFull | blocked
  deriving DecidableEq, Repr

/-- Why a queue entry is dropped (R115). -/
inductive DropCause where
  | mergeOverflow | blocked | priority | sessionEnd | queueClear
  deriving DecidableEq, Repr

/-- The presence of a unit (R75). -/
inductive Presence where
  | unknown | present | absent
  deriving DecidableEq, Repr

/-- The state of a console (R131). -/
inductive ConsoleState where
  | absent | ready | cueing | onAir | releasing
  deriving DecidableEq, Repr

/-- The source of a booth (R129): FLOOR, or RELAY with a language code. -/
inductive Source where
  | floor | relay (code : Nat)
  deriving DecidableEq, Repr

/-- The listen state of a booth (R129). -/
inductive Listen where
  | direct | relay | fallback
  deriving DecidableEq, Repr

/-- The key of a language channel (R150): the anchor of its room and its language code. -/
structure Key where
  anchor : Nat
  code : Nat
  deriving DecidableEq, Repr

/-- Why a BOOTH_STATE notice is raised (R141). -/
inductive BoothCause where
  | press | opened | closed | takeover | host | sessionEnd | languageRemoved | split | unitLost | unitFound
  | languageNotSet | channelBusy | cough
  deriving DecidableEq, Repr

/-- Why a BOOTH_DISPLACED notice is raised, numbered in the order of R48, SAME_LANGUAGE 0 and LANGUAGE_DROPPED 1: DESIGN CHOICE (log 53).
R139, which gives the notice's contents, lists the two as the fifth and the sixth cause of a forced release. -/
inductive DisplacedCause where
  | sameLanguage | languageDropped
  deriving DecidableEq, Repr

/-- The service of a language channel as reports give it (R26, R157). -/
inductive Service where
  | none | served (slot : Nat) | unserved (position : Nat)
  deriving DecidableEq, Repr

/-- Why a CHANNEL_SERVICE notice is raised (R157). -/
inductive ServiceCause where
  | noSlot | slotGiven | removed
  deriving DecidableEq, Repr

/-- The kind of a TOPOLOGY_CHANGED notice with the anchors it carries (R17). -/
inductive Topology where
  | merge (surviving absorbed : Nat) | split (kept new : Nat) | none (anchor : Option Nat)
  deriving DecidableEq, Repr

/-- The event an activity counter counts (R181). The last four are sampled quantities. -/
inductive CountEvent where
  | micOpened | micClosed | requestJoined | requestRefused | requestDropped | limitClose | unitLost | boothTakeover
  | relayFallback | clip | speaking | queued | fill | unserved
  deriving DecidableEq, Repr

/-- The scope of an activity counter (R181). A bus is its number, 4 for B. -/
inductive Scope where
  | all | segment (k : Nat) | group (g : Nat) | bus (i : Nat)
  deriving DecidableEq, Repr

/-- The mode of an activity counter (R181). -/
inductive CountMode where
  | count | threshold | edge
  deriving DecidableEq, Repr

/-- The overflow action of an activity counter (R181). -/
inductive OverflowAction where
  | notice | noticeAndBlock
  deriving DecidableEq, Repr

/-- Who blocked or unblocked a group (R125). -/
inductive BlockCause where
  | host | counter
  deriving DecidableEq, Repr

/-- The cause of a LINK_ERROR notice, in the order of its codes (11 section 11.5). -/
inductive LinkCause where
  | check | length | timeout | character | replyOverrun
  deriving DecidableEq, Repr

/-- The cause of a READY notice (R202). -/
inductive ReadyCause where
  | power | pin
  deriving DecidableEq, Repr

/-- What a slot carries in a block (R152, R161, R144): silence, the floor of a room, or a channel's output. -/
inductive Carry where
  | silence | floor (anchor : Nat) | channel (key : Key)
  deriving DecidableEq, Repr

/-- The notices of 11 section 11.5, in the order of their codes, with what each carries. A room that a seat or a
booth has none of is none. -/
inductive Notice where
  /-- READY (R202), with the phase and the revision. -/
  | ready (cause : ReadyCause) (phase : Phase) (revision : Nat)
  /-- PARTITION_MISMATCH (R9). -/
  | partitionMismatch (partition : Nat) (declared : Wall) (sensed : Sensed) (effective : Wall)
  /-- PARTITION_AGREED (R9). -/
  | partitionAgreed (partition : Nat) (declared : Wall) (sensed : Sensed) (effective : Wall)
  /-- TOPOLOGY_CHANGED (R17). -/
  | topologyChanged (partition : Nat) (effective : Wall) (kind : Topology)
  /-- SESSION_STATE (R36), with the waker of a wake by a press and, for Q at a merge, the absorbed anchor (R41). -/
  | sessionState (anchor : Nat) (old new : Session) (cause : SessionCause) (waker : Option Waker) (absorbed : Option Nat)
  /-- MIC_STATE (R89). -/
  | micState (seat : Nat) (anchor : Option Nat) (old new : Mic) (cause : MicCause) (muted : Bool) (slot : Option Nat)
  /-- REQUEST_REFUSED (R89). -/
  | requestRefused (seat : Nat) (anchor : Option Nat) (cause : RefusedCause)
  /-- REQUEST_DROPPED (R115). -/
  | requestDropped (seat : Nat) (anchor : Option Nat) (stamp : Option Nat) (cause : DropCause)
  /-- SPEAKING_WARNING (R108), with the clock and the limit in seconds. -/
  | speakingWarning (seat : Nat) (clock limit : Nat)
  /-- SPEAKING_LIMIT (R108). R108 does not list what it carries; DEDUCED: as SPEAKING_WARNING (log 23). -/
  | speakingLimit (seat : Nat) (clock limit : Nat)
  /-- UNIT_PRESENCE (R75). -/
  | unitPresence (bus address : Nat) (old new : Presence) (cls : Option UnitClass)
  /-- BOOTH_STATE (R141). -/
  | boothState (booth console : Nat) (anchor : Option Nat) (old new : ConsoleState) (cause : BoothCause)
      (owned : Option Key) (taker : Option Nat)
  /-- BOOTH_DISPLACED (R139). The new state is RELEASING. -/
  | boothDisplaced (booth console : Nat) (old : ConsoleState) (cause : DisplacedCause) (anchor : Nat) (channel : Key)
  /-- RELAY_FALLBACK (R145). -/
  | relayFallback (booth : Nat) (anchor : Option Nat) (code : Nat) (old new : Listen)
  /-- RELAY_RESTORED (R145). -/
  | relayRestored (booth : Nat) (anchor : Option Nat) (code : Nat) (old new : Listen)
  /-- CHANNEL_SERVICE (R157). `entries` is the list's length after a NO_SLOT join. -/
  | channelService (key : Key) (old new : Service) (cause : ServiceCause) (entries : Option Nat)
  /-- LEVEL_SETTLED (R171). -/
  | levelSettled (anchor : Nat) (level request ceiling : Int)
  /-- COUNTER_OVERFLOW (R189). -/
  | counterOverflow (counter : Nat) (event : CountEvent) (scope : Scope) (mode : CountMode) (value : Nat)
      (action : OverflowAction)
  /-- GROUP_BLOCKED (R125, R126). -/
  | groupBlocked (group : Nat) (blocked : Bool) (cause : BlockCause) (members : Nat)
  /-- LINK_ERROR (R193, R196), with the number of bytes received. -/
  | linkError (cause : LinkCause) (bytes : Nat)
  deriving DecidableEq, Repr

/-- The status codes of R196. Code 11 is not used. -/
inductive Status where
  | ok | badKind | badValue | notInstalled | wrongPhase | wrongState | atLimit | busFull | queueFull | queueEmpty
  | blocked | inconsistent | inputFull
  deriving DecidableEq, Repr

/-- The item a failed START names (R199). -/
inductive StartItem where
  | segment | partition (p : Nat) | seat (n : Nat) | booth (b : Nat)
  deriving DecidableEq, Repr

/-- The seat record reply (R86, 11.6.3). -/
structure SeatReport where
  seat : Nat
  installed : Bool
  cls : SeatClass
  segment : Nat
  trim : Int
  presence : Presence
  reported : Option UnitClass
  mic : Mic
  anchor : Option Nat
  slot : Option Nat
  openingNumber : Option Nat
  stamp : Option Nat
  clock : Option Nat
  grant : Option Nat
  warned : Bool
  limitReported : Bool
  muted : Bool
  pendingPress : Bool
  holdOffLeft : Option Nat
  indication : Option Indication
  rank : Nat
  blocked : Bool
  deriving DecidableEq, Repr

/-- The contents of the reply to ROOM_QUERY (R26). -/
structure RoomReport where
  anchor : Nat
  segments : List Nat
  session : Session
  wake : Wake
  timer : Option Nat
  profile : Profile
  ceiling : Int
  target : Int
  level : Int
  delegates : Nat
  chairs : Nat
  openMics : Nat
  queued : Nat
  rotation : Option Nat
  priority : Bool
  channels : List (Nat × Service)
  deriving DecidableEq, Repr

/-- One entry in the reply to QUEUE_QUERY (R121). -/
structure QueueRow where
  seat : Nat
  stamp : Nat
  segment : Nat
  rank : Nat
  eligible : Bool
  deriving DecidableEq, Repr

/-- One console in the reply to BOOTH_QUERY (R148). -/
structure ConsoleReport where
  address : Nat
  presence : Presence
  reported : Option UnitClass
  state : ConsoleState
  owned : Option Key
  cough : Bool
  indication : Option Indication
  deriving DecidableEq, Repr

/-- The contents of the reply to BOOTH_QUERY (R148). `pivot` is the pivot channel and its owner for a RELAY
source; `channel` is the service of the booth's channel and whether it is on fill. -/
structure BoothReport where
  booth : Nat
  installed : Bool
  home : Nat
  language : Nat
  source : Source
  count : Nat
  trim : Int
  anchor : Option Nat
  listen : Listen
  pivot : Option (Key × Option Nat)
  consoles : List ConsoleReport
  channel : Option (Service × Bool)
  deriving DecidableEq, Repr

/-- One slot in the reply to SLOT_QUERY (R163 (2)). -/
inductive SlotRow where
  | floorSlot (slot : Nat) (inAllocation inCurrent : Bool) (carries : Carry)
  | languageSlot (slot : Nat) (allocation current : Option Key) (carries : Carry)
  deriving DecidableEq, Repr

/-- The contents of the reply to SLOT_QUERY (R163). -/
structure SlotReport where
  switchPending : Bool
  mapsWaiting : List Nat
  listed : Nat
  free : Nat
  slots : List SlotRow
  list : List (Nat × Key)
  deriving DecidableEq, Repr

/-- A seat group record (R122). -/
structure Group where
  installed : Bool
  base : Nat
  mask : Nat
  rank : Nat
  blocked : Bool
  deriving DecidableEq, Repr

/-- A seat group after power-on (R122). -/
def Group.initial : Group := { installed := false, base := 0, mask := 0, rank := 0, blocked := false }

/-- An activity counter record (R181). -/
structure Counter where
  enabled : Bool
  event : CountEvent
  scope : Scope
  mode : CountMode
  threshold : Nat
  invert : Bool
  action : OverflowAction
  value : Nat
  edge : Bool
  tally : Nat
  deriving DecidableEq, Repr

/-- An activity counter after power-on, the RESET pin and STOP (R181). -/
def Counter.initial : Counter :=
  { enabled := false, event := .micOpened, scope := .all, mode := .count, threshold := 0, invert := false,
    action := .notice, value := 0, edge := false, tally := 0 }

/-- The contents of an OK reply, and of an INCONSISTENT one (R196). The rule of each request says which. -/
inductive Contents where
  | nothing
  /-- The failing item of START (R199). -/
  | item (i : StartItem)
  /-- PARTITION_DECLARE (R5). -/
  | partition (p : Nat) (declared : Wall) (sensed : Sensed) (effective : Wall)
  /-- A room named by its anchor (R12, R22). -/
  | room (anchor : Nat)
  /-- LEVEL_SET (R24). -/
  | levels (anchor : Nat) (request ceiling target level : Int)
  /-- SESSION_END (R34). -/
  | session (anchor : Nat) (state : Session)
  /-- ROOM_QUERY (R26). -/
  | roomReport (r : RoomReport)
  /-- MIC_OPEN (R97): the upstream slot taken. -/
  | slotTaken (slot : Option Nat)
  /-- REQUEST_ADD (R99): the seat's state after the request. -/
  | mic (m : Mic)
  /-- NEXT (R106): the promoted seat and the seat closed, if any. -/
  | promoted (anchor seat : Nat) (closed : Option Nat)
  /-- QUEUE_CLEAR (R116): the number of entries dropped. -/
  | cleared (anchor count : Nat)
  /-- SEAT_QUERY (R86). -/
  | seatReport (r : SeatReport)
  /-- QUEUE_QUERY (R121). -/
  | queueReport (anchor : Nat) (order : ServiceOrder) (rotation : Option Nat) (count : Nat) (next : Option Nat)
      (rows : List QueueRow)
  /-- BOOTH_SOURCE (R146). -/
  | listen (l : Listen)
  /-- BOOTH_OFF (R140): the console released. -/
  | console (address : Nat)
  /-- BOOTH_QUERY (R148). -/
  | boothReport (r : BoothReport)
  /-- SLOT_QUERY (R163). -/
  | slotReport (r : SlotReport)
  /-- GROUP_SET (R124): the stored record and the number of installed members. -/
  | group (g : Nat) (record : Group) (members : Nat)
  /-- COUNTER_SET (R182). -/
  | counter (c : Nat) (record : Counter)
  /-- COUNTER_READ (R183): the records read and the block count. -/
  | counters (rows : List (Nat × Counter)) (blocks : Option Nat)
  /-- IDENTIFY (R198). -/
  | identity (family : String) (part revision : Nat) (phase : Phase) (rate : Nat) (restartWaiting : Bool)
  deriving DecidableEq, Repr

/-- What a request is answered with (R196): the status, the CLAMPED flag and the contents. -/
structure Answer where
  status : Status
  clamped : Bool
  contents : Contents
  deriving DecidableEq, Repr

/-- A refusal carries no contents, and its CLAMPED flag is clear (R196). -/
def Answer.refuse (status : Status) : Answer := { status := status, clamped := false, contents := .nothing }

/-- An OK reply with the CLAMPED flag clear. -/
def Answer.ok (contents : Contents) : Answer := { status := .ok, clamped := false, contents := contents }

/-- An OK reply whose CLAMPED flag says whether a number was stored clamped (R21). -/
def Answer.okClamped (clamped : Bool) (contents : Contents) : Answer :=
  { status := .ok, clamped := clamped, contents := contents }

/-- A request frame (R193): its kind, its tag and its body. -/
structure Frame where
  kind : Byte
  tag : Byte
  body : List Byte
  deriving DecidableEq, Repr

/-- A formed reply (R196): the request's kind and tag, and the answer. -/
structure Reply where
  kind : Byte
  tag : Byte
  answer : Answer
  deriving DecidableEq, Repr

/-- A frame of the transmitter (R197): a reply, or a notice with its sequence and the lost flag it carries. -/
inductive TxFrame where
  | reply (r : Reply)
  | notice (n : Notice) (sequence : Byte) (lost : Bool)
  deriving DecidableEq, Repr

/-- A field of reply contents or of notice contents as R203 codes it: a yes or no, an enumeration or a level in steps, which
is one byte; a number; bytes whose layout the spec gives; or a field that holds none. -/
inductive Field where
  | coded (b : Byte) | number (n : Nat) | bytes (bs : List Byte) | absent
  deriving DecidableEq, Repr

end Sys2Proof.Machine
end

