-- ==== Sys2Proof/Config.lean ====
section
/-! DEFINITION. The fixed quantities of 00_scope.md section 4, and the values the spec leaves open, which are opaque:
nothing can be proved of them but what holds for every value. -/

namespace Sys2Proof.Config

/-- Entries of a request queue (R113). -/
abbrev queueLimit : Nat := 32
/-- Frames of the input queue (R194). -/
abbrev inputLimit : Nat := 8
/-- Places of the reply list (R196). -/
abbrev replyLimit : Nat := 16
/-- Notices of the notice queue (R197). -/
abbrev noticeLimit : Nat := 64
/-- Upstream slots of a delegate bus (R79). -/
abbrev upstreamSlots : Nat := 12
/-- Exchanges of a control window (R64). -/
abbrev exchangesPerWindow : Nat := 4
/-- Consecutive misses that make a unit absent (R74). -/
abbrev missesToAbsent : Nat := 3
/-- Boundaries a sense level must hold (R6). -/
abbrev settleBlocks : Nat := 100
/-- Boundaries of the hold-off after a close (R95). -/
abbrev holdOffBlocks : Nat := 250
/-- Blocks of a second (R31, R107, R187). -/
abbrev blocksPerSecond : Nat := 1000
/-- Boundaries within which a frame must complete (R193). -/
abbrev frameBlocks : Nat := 20
/-- Distribution frames of a block (R61). -/
abbrev framesPerBlock : Nat := 48
/-- The value that a 32-bit count does not give: all ones (R87, R112). -/
abbrev allOnes32 : Nat := 4294967295
/-- The length of a room profile in a request body (R205). -/
abbrev profileBytes : Nat := 24
/-- The family name, part number and revision of IDENTIFY (R198). -/
abbrev family : String := "ACTUNA"
abbrev partNumber : Nat := 1240
abbrev revision : Nat := 1

/-- FREE (log 13): the number of bytes of a number, or of a field that holds none, at this place of the contents of the reply to
a request kind, and of a notice code (the spec gives such sizes for requests, the seat record and MIC_STATE only). -/
opaque replySize (kind : Byte) (place : Nat) : Nat
opaque noticeSize (code place : Nat) : Nat

/-- FREE (log 13): the bytes of a field of this size that holds none. -/
opaque absentBytes (size : Nat) : List Byte

/-- FREE (log 13): how the coded fields of a reply's contents, and of a notice's, stand in the body. -/
opaque replyLayout (kind : Byte) (fields : List (List Byte)) : List Byte
opaque noticeLayout (code : Nat) (fields : List (List Byte)) : List Byte

/-- FREE (log 13): the byte of BLOCKED and UNBLOCKED in a GROUP_BLOCKED notice (R125 and R126 name one each). -/
opaque blockingByte (blocked : Bool) : Byte

/-- FREE (log 13): the characters of the family name in the reply to IDENTIFY. -/
opaque familyBytes : List Byte

/-- FREE (log 13): what a sent profile holds at this place after its language codes (R205: "the rest are ignored"). -/
opaque unusedLanguage (place : Nat) : Byte

/-- FREE (log 14): the number of bytes in a LINK_ERROR notice of cause REPLY_OVERRUN, for the frame that was lost
(R196 gives the cause only). -/
opaque overrunBytes : Machine.Frame → Nat

end Sys2Proof.Config
end

