-- ==== Sys2Proof/Machine/Records.lean ====
section
/-! DEFINITION. The records of the part's eight blocks (00_scope.md section 3), each with its value after power-on. A
table of numbered records is a `Table`: the records that differ from their value after power-on, numbers rising. -/

namespace Sys2Proof.Machine

/-- Numbered records: the listed ones, in rising number; every other number holds the table's default. -/
abbrev Table (α : Type) := List (Nat × α)

/-! ## Room unit (chapters 1 to 3) -/

/-- A segment record (R1). -/
structure Segment where
  installed : Bool
  maximum : Int
  trim : Int
  profile : Profile
  deriving DecidableEq, Repr

/-- A segment after power-on (R1). -/
def Segment.initial : Segment := { installed := false, maximum := 0, trim := 0, profile := Profile.defaults }

/-- A partition record (R3). -/
structure Partition where
  installed : Bool
  a : Nat
  b : Nat
  fitted : Bool
  declared : Wall
  sensed : Sensed
  effective : Wall
  mismatch : Bool
  deriving DecidableEq, Repr

/-- A partition after power-on (R3). -/
def Partition.initial : Partition :=
  { installed := false, a := 1, b := 2, fitted := false, declared := .closed, sensed := .unknown,
    effective := .closed, mismatch := false }

/-- The settling record of a sense input (R6). -/
structure Settling where
  candidate : Option Contact
  hold : Nat
  stable : Option Contact
  deriving DecidableEq, Repr

/-- A settling record after power-on (R6). -/
def Settling.initial : Settling := { candidate := none, hold := 0, stable := none }

/-- An entry of a request queue (R111). -/
structure Entry where
  seat : Nat
  stamp : Nat
  segment : Nat
  deriving DecidableEq, Repr

/-- A room timer (R31): the remaining seconds and the block count. -/
structure RoomTimer where
  seconds : Nat
  blocks : Nat
  deriving DecidableEq, Repr

/-- A room context (R19, R168). -/
structure Room where
  anchor : Nat
  segments : List Nat
  session : Session
  profile : Profile
  ceiling : Int
  level : Int
  ramp : Ramp
  wake : Wake
  timer : Option RoomTimer
  live : List Nat
  queue : List Entry
  rotation : Option Nat
  priority : Bool
  /-- The model's own (log 6): the ramp reached its target at the present boundary. -/
  settleDue : Bool
  deriving DecidableEq, Repr

/-- The room unit: segment table, partition table, settling records and room table. A number with no room context
reads none, and a segment in no room maps to none (R11). -/
structure RoomUnit where
  segments : Table Segment
  partitions : Table Partition
  settling : Table Settling
  rooms : Table (Option Room)
  segmentMap : Table (Option Nat)
  deriving DecidableEq, Repr

/-! ## Floor unit (chapters 5 and 6) -/

/-- A speaking clock (R107): whole seconds and block count. -/
structure Clock where
  seconds : Nat
  blocks : Nat
  deriving DecidableEq, Repr

/-- A seat record (R83). -/
structure Seat where
  installed : Bool
  cls : SeatClass
  segment : Nat
  trim : Int
  mic : Mic
  pendingPress : Bool
  slot : Option Nat
  openingNumber : Option Nat
  liveNumber : Option Nat
  stamp : Option Nat
  clock : Option Clock
  grant : Option Nat
  warned : Bool
  limitReported : Bool
  muted : Bool
  holdOff : Option Nat
  indication : Option Indication
  /-- The model's own (log 6): the hold-off ends at the present boundary. -/
  holdOffDue : Bool
  /-- The model's own (log 6): the clock reached a whole second at the present boundary. -/
  secondDue : Bool
  deriving DecidableEq, Repr

/-- A seat after power-on (R83). -/
def Seat.initial : Seat :=
  { installed := false, cls := .delegate, segment := 1, trim := 0, mic := .absent, pendingPress := false, slot := none,
    openingNumber := none, liveNumber := none, stamp := none, clock := none, grant := none, warned := false,
    limitReported := false, muted := false, holdOff := none, indication := some .noSession, holdOffDue := false,
    secondDue := false }

/-- The floor unit: seat table, seat groups and the three part-wide counts (R87, R112). -/
structure FloorUnit where
  seats : Table Seat
  groups : Table Group
  openingCount : Nat
  liveCount : Nat
  stampCount : Nat
  deriving DecidableEq, Repr

/-! ## Bus controllers (chapter 4) -/

/-- A unit record (R68). -/
structure UnitRecord where
  presence : Presence
  misses : Nat
  assigned : Bool
  mapOwed : Bool
  told : Option Indication
  held : Bool
  reported : Option UnitClass
  deriving DecidableEq, Repr

/-- A unit record after power-on, the RESET pin, STOP and START (R68). -/
def UnitRecord.initial : UnitRecord :=
  { presence := .unknown, misses := 0, assigned := false, mapOwed := false, told := none, held := false,
    reported := none }

/-- A due item of a pending queue (R69). -/
inductive Item where
  | unit (address : Nat) | map (segment : Nat)
  deriving DecidableEq, Repr

/-- A command of a bus with its contents (R65). A slot of none in a language pair marks the code unserved (R78). -/
inductive Command where
  | poll
  | assign (segment : Nat) (indication : Indication)
  | open_ (slot : Nat)
  | close
  | indicate (indication : Indication)
  | channelMap (segment floorSlot : Nat) (pairs : List (Nat × Option Nat))
  | off
  deriving DecidableEq, Repr

/-- An exchange (R64): the address and the command sent, and whether its answer is still awaited. -/
structure Exchange where
  address : Nat
  command : Command
  awaiting : Bool
  deriving DecidableEq, Repr

/-- The OFF broadcast of a bus after STOP (R81): not due, waiting for the next control window, due in the present
window, sent, or sent with the power withdrawn. -/
inductive OffState where
  | none | waiting | due | sent | done
  deriving DecidableEq, Repr

/-- A bus controller (R61, R68, R69, R71, R72). -/
structure Bus where
  units : Table UnitRecord
  queue : List Item
  pointer : Option Nat
  power : Bool
  /-- Exchanges begun in the present control window. -/
  begun : Nat
  /-- Items missed in the present control window (R71). -/
  missed : List Item
  exchange : Option Exchange
  off : OffState
  deriving DecidableEq, Repr

/-- A bus after power-on: no power, no window open (R61, R68, R72). -/
def Bus.initial : Bus :=
  { units := [], queue := [], pointer := none, power := false, begun := Config.exchangesPerWindow, missed := [],
    exchange := none, off := .none }

/-! ## Booth unit (chapter 7) -/

/-- A booth record (R129). -/
structure Booth where
  installed : Bool
  home : Nat
  language : Nat
  source : Source
  count : Nat
  trim : Int
  listen : Listen
  deriving DecidableEq, Repr

/-- A booth after power-on (R129). -/
def Booth.initial : Booth :=
  { installed := false, home := 1, language := 1, source := .floor, count := 1, trim := 0, listen := .direct }

/-- A console record (R131). `cough` yes is HELD. -/
structure Console where
  state : ConsoleState
  owned : Option Key
  cough : Bool
  indication : Option Indication
  deriving DecidableEq, Repr

/-- A console after power-on (R131). -/
def Console.initial : Console := { state := .absent, owned := none, cough := false, indication := none }

/-- The booth unit. -/
structure BoothUnit where
  booths : Table Booth
  consoles : Table Console
  deriving DecidableEq, Repr

/-! ## Distribution unit (chapter 8) -/

/-- An allocation table or on-air table (R153, R159): the language slots that name a channel, and the anchor set. -/
structure SlotTable where
  slots : Table (Option Key)
  anchors : List Nat
  deriving DecidableEq, Repr

/-- A table with every slot free and no anchors (R164). -/
def SlotTable.empty : SlotTable := { slots := [], anchors := [] }

/-- The distribution unit. -/
structure DistUnit where
  allocation : SlotTable
  current : SlotTable
  unserved : List Key
  /-- The model's own (log 25): the conditions of R160 held at the present boundary. -/
  switchDue : Bool
  deriving DecidableEq, Repr

/-! ## Mix unit (chapter 9) -/

/-- A microphone route (R167): its gain in steps. -/
structure MicRoute where
  seat : Nat
  bus : Nat
  slot : Nat
  anchor : Nat
  gain : Int
  deriving DecidableEq, Repr

/-- A loudspeaker route (R172). A gain below -120 steps is a mute (R165). -/
structure ZoneRoute where
  segment : Nat
  anchor : Nat
  gain : Int
  deriving DecidableEq, Repr

/-- What a language channel carries in a block (R143): the console's microphone through the booth trim, silence under
COUGH, or fill, at the fill level or none for OFF (R173). -/
inductive Output where
  | microphone (console : Nat) (gain : Int)
  | silence
  | fill (anchor : Nat) (gain : Option Int)
  deriving DecidableEq, Repr

/-- The routes of a block and what its slots carry (R165, R152, R161, R144). A slot not listed carries silence. -/
structure Plan where
  mics : List MicRoute
  zones : List ZoneRoute
  channels : List (Key × Output)
  slots : Table Carry
  listens : Table Carry
  deriving DecidableEq, Repr

/-- The plan with no route. -/
def Plan.silent : Plan := { mics := [], zones := [], channels := [], slots := [], listens := [] }

/-- The samples of a block that has ended (R177, R179): floors by anchor, distribution slots, listen slots of bus B,
loudspeaker zones by segment. What is not listed is silence. -/
structure BlockAudio where
  floors : List (Nat × List Sample)
  slots : List (Nat × List Sample)
  listens : List (Nat × List Sample)
  zones : List (Nat × List Sample)
  deriving DecidableEq, Repr

/-- A block of silence. -/
def BlockAudio.silence : BlockAudio := { floors := [], slots := [], listens := [], zones := [] }

/-- The mix unit: the routes of the present block and the samples of the last. -/
structure MixUnit where
  plan : Plan
  heard : BlockAudio
  deriving DecidableEq, Repr

/-! ## Counter unit (chapter 10) -/

/-- An occurrence (R184): the event, the segment whose room it is raised for, its bus and its seat. -/
structure Occurrence where
  event : CountEvent
  segment : Nat
  bus : Option Nat
  seat : Option Nat
  deriving DecidableEq, Repr

/-- The counter unit. -/
structure CounterUnit where
  counters : Table Counter
  blocks : Option Nat
  /-- The model's own (log 6): the present boundary is a second boundary. -/
  secondDue : Bool
  /-- The model's own (R190): occurrences raised and not yet added. Empty between commands. -/
  raised : List Occurrence
  /-- The model's own (R190): a merge or a split is in progress. No between commands. -/
  deferring : Bool
  deriving DecidableEq, Repr

/-! ## Link controller (chapter 11) -/

/-- The receiver (R193): HUNTING, or IN_FRAME with the bytes taken after the start byte and the boundaries counted. -/
inductive Receiver where
  | hunting
  | inFrame (bytes : List Byte) (boundaries : Nat)
  deriving DecidableEq, Repr

/-- The link controller (R192 to R202). -/
structure LinkUnit where
  phase : Phase
  rate1 : Bool
  rate0 : Bool
  receiver : Receiver
  input : List Frame
  replies : List Reply
  notices : List Notice
  lost : Bool
  sequence : Byte
  sending : Option TxFrame
  /-- The tag of a STOP that is not complete (R195). -/
  stopping : Option Byte
  /-- The tags of the RESTARTs taken, in order, whose boundary has not come (R201). -/
  restarts : List Byte
  /-- The model's own (log 6): how many of these RESTARTs fall at the present boundary. -/
  restartDue : Nat
  deriving DecidableEq, Repr

/-- The link controller when the part starts with this READY cause and these strap levels (R202): the queues are empty
but for the READY notice, and the line is free, so that notice has begun to be sent with sequence 0 (R197). -/
def LinkUnit.started (cause : ReadyCause) (rate1 rate0 : Bool) : LinkUnit :=
  { phase := .config, rate1 := rate1, rate0 := rate0, receiver := .hunting, input := [], replies := [], notices := [],
    lost := false, sequence := 1, sending := some (.notice (.ready cause .config Config.revision) 0 false),
    stopping := none, restarts := [], restartDue := 0 }

end Sys2Proof.Machine
end

