-- ==== Sys2Proof/Machine/State.lean ====
section
/-! DEFINITION. The state of the part as plain data, block by block, why a command may stop, and `State.reset`, the part
right after power-on (R202). -/

namespace Sys2Proof.Machine

/-- The state of the part. -/
structure State where
  /-- The commands that wait, first in first out. -/
  pending : List Instr
  /-- The RESET pin is held low (R202). -/
  resetLow : Bool
  hall : RoomUnit
  floor : FloorUnit
  buses : Table Bus
  booth : BoothUnit
  dist : DistUnit
  mix : MixUnit
  counts : CounterUnit
  link : LinkUnit
  deriving DecidableEq, Repr

/-- Why a command stops the machine. The spec names no fault: no command of this part faults, and the type is empty. -/
inductive Fault where
  deriving DecidableEq, Repr

/-- Why a command is refused. Refusals of requests are statuses (R196), not these. -/
inductive Refusal where
  /-- Raised by an arm of `exec` whose command has no meaning yet. Safe: nothing can be proved of its effect. No arm
  of this model raises it. -/
  | notModelled (mnemonic : String)
  deriving DecidableEq, Repr

/-- The part when it starts with this READY cause and these strap levels: every block at its power-on values (R14, R83,
R110, R122, R128, R129, R131, R149, R164, R180, R191, R202). -/
def State.started (cause : ReadyCause) (rate1 rate0 : Bool) (waiting : List Instr) : State :=
  { pending := waiting, resetLow := false,
    hall := { segments := [], partitions := [], settling := [], rooms := [], segmentMap := [] },
    floor := { seats := [], groups := [], openingCount := 0, liveCount := 0, stampCount := 0 },
    buses := [],
    booth := { booths := [], consoles := [] },
    dist := { allocation := SlotTable.empty, current := SlotTable.empty, unserved := [], switchDue := false },
    mix := { plan := Plan.silent, heard := BlockAudio.silence },
    counts := { counters := [], blocks := none, secondDue := false, raised := [], deferring := false },
    link := LinkUnit.started cause rate1 rate0 }

/-- The part right after power-on, with the rate straps low (DESIGN CHOICE, log 10) and no command waiting. -/
def State.reset : State := State.started .power false false []

end Sys2Proof.Machine
end

