-- ==== Sys2Proof/Machine/Bytes.lean ====
section
/-! DEFINITION. Bytes and numbers (R203), clamping (R21), the check of a link frame (R193), and the characters of the
line (R192). -/

namespace Sys2Proof.Machine

/-- The number of two bytes, high byte first (R203). -/
def word16 (hi lo : Byte) : Nat := hi.toNat * 256 + lo.toNat

/-- The number of four bytes, high byte first (R203). -/
def word32 (b3 b2 b1 b0 : Byte) : Nat := word16 b3 b2 * 65536 + word16 b1 b0

/-- A number as one byte. -/
def byteOf (n : Nat) : Byte := BitVec.ofNat 8 n

/-- A number of steps as a signed byte (R203). -/
def stepByte (x : Int) : Byte := BitVec.ofInt 8 x

/-- Yes is 1 and no is 0 (R203). -/
def flagByte (b : Bool) : Byte := if b then 1 else 0

/-- A number as two bytes, high byte first (R203). -/
def bytes16 (n : Nat) : List Byte := [byteOf (n / 256), byteOf n]

/-- A number as four bytes, high byte first (R203). -/
def bytes32 (n : Nat) : List Byte := bytes16 (n / 65536) ++ bytes16 n

/-- A number as so many bytes, high byte first (R203). -/
def numberBytes : Nat → Nat → List Byte
  | 0, _ => []
  | size + 1, n => numberBytes size (n / 256) ++ [byteOf n]

/-- A number of steps brought to the nearest end of its range (R21). -/
def clampInt (lo hi x : Int) : Int := if x < lo then lo else if hi < x then hi else x

/-- A count brought to the nearest end of its range (R21). -/
def clampNat (lo hi x : Nat) : Nat := if x < lo then lo else if hi < x then hi else x

/-- One bit of the check: polynomial x^16 + x^12 + x^5 + 1 (R193). -/
def crcBit (c : BitVec 16) : BitVec 16 := if c.msb then (c <<< 1) ^^^ 0x1021#16 else c <<< 1

/-- One byte of the check, taken most significant bit first (R193). -/
def crcByte (c : BitVec 16) (b : Byte) : BitVec 16 :=
  crcBit (crcBit (crcBit (crcBit (crcBit (crcBit (crcBit (crcBit (c ^^^ (b.zeroExtend 16 <<< 8)))))))))

/-- The CRC-16 over these bytes: initial value 0xFFFF, no final inversion (R193). -/
def crc16 (bytes : List Byte) : BitVec 16 := bytes.foldl crcByte 0xFFFF#16

/-- The two check bytes, high byte first (R193). -/
def checkBytes (bytes : List Byte) : List Byte :=
  [(crc16 bytes).extractLsb' 8 8, (crc16 bytes).extractLsb' 0 8]

/-- The bytes of a link frame after its start byte (R193, 11.6.1): length, kind, tag, body and check. -/
def frameTail (f : Frame) : List Byte :=
  let covered := byteOf (f.body.length + 2) :: f.kind :: f.tag :: f.body
  covered ++ checkBytes covered

/-- The bytes of a link frame (11.6.1). -/
def frameBytes (f : Frame) : List Byte := 0xA5#8 :: frameTail f

/-! ## Characters on the line (R192) -/

/-- The bits of a character on RXD or TXD in the order sent (R192): the start bit, 8 data bits least significant first, and the
stop bit, true for a high level. The start bit is low: DEDUCED (log 45). -/
def characterBits (c : Byte) (stopHigh : Bool) : List Bool :=
  false :: (List.range 8).map c.getLsbD ++ [stopHigh]

/-- The bits of whole characters, one after another; the part sends every stop bit high. -/
def lineBits (bytes : List Byte) : List Bool := bytes.flatMap (fun c => characterBits c true)

/-- The byte whose bits these are, least significant first. -/
def byteOfBits (bits : List Bool) : Byte := BitVec.ofNat 8 (bits.foldr (fun b n => 2 * n + b.toNat) 0)

/-- The character that ten bits of the line hold, with the level of its stop bit, which is a character error where it is low
(R192). None where they do not begin with a start bit. -/
def characterOf (bits : List Bool) : Option (Byte × Bool) :=
  if bits.length = 10 && bits.head? = some false then some (byteOfBits ((bits.drop 1).take 8), bits.getD 9 false) else none

end Sys2Proof.Machine
end

