-- ==== Sys2Proof/Machine/Table.lean ====
section
/-! DEFINITION. Reading and writing a table of numbered records. `d` is the record of every number that is not
listed. A write keeps the listed numbers rising and lists no record equal to `d`, so that equal tables are equal data. -/

namespace Sys2Proof.Machine

/-- The record with number `k`. -/
def tget {α : Type} (d : α) : Table α → Nat → α
  | [], _ => d
  | (j, w) :: r, k => if j = k then w else tget d r k

/-- List the record `v` under `k`. -/
def tput {α : Type} : Table α → Nat → α → Table α
  | [], k, v => [(k, v)]
  | (j, w) :: r, k, v =>
    if k < j then (k, v) :: (j, w) :: r else if k = j then (k, v) :: r else (j, w) :: tput r k v

/-- List nothing under `k`. -/
def tdel {α : Type} : Table α → Nat → Table α
  | [], _ => []
  | (j, w) :: r, k => if j = k then tdel r k else (j, w) :: tdel r k

/-- Write the record `v` under `k`. -/
def tset {α : Type} [DecidableEq α] (d : α) (t : Table α) (k : Nat) (v : α) : Table α :=
  if v = d then tdel t k else tput t k v

/-- The canonical form: numbers strictly rising, and no record equal to `d`. -/
def twf {α : Type} [DecidableEq α] (d : α) : Table α → Bool
  | [] => true
  | (j, w) :: r => decide (w ≠ d) && r.all (fun x => decide (j < x.1)) && twf d r

/-- The numbers whose listed record satisfies `p`, in listed order. -/
def tkeys {α : Type} (p : Nat → α → Bool) (t : Table α) : List Nat :=
  (t.filter (fun x => p x.1 x.2)).map Prod.fst

end Sys2Proof.Machine
end

