-- ==== Sys2Proof/Machine/Flags.lean ====
section
/-! DEFINITION. The flags and values that the rules derive from the records: effective states, mismatch, counts of a
room, targets, indications, group membership, channel service, listen states and channel outputs. -/

namespace Sys2Proof.Machine

/-! ## Walls -/

/-- The effective state of a partition (R8). -/
def effectiveOf (p : Partition) : Wall :=
  if p.installed && p.declared = .opened && (!p.fitted || p.sensed = .retracted) then .opened else .closed

/-- The mismatch flag of a partition (R9). -/
def mismatchOf (p : Partition) : Bool :=
  p.installed && p.fitted &&
    ((p.declared = .opened && p.sensed = .deployed) || (p.declared = .closed && p.sensed = .retracted))

/-- The sensed state that a stable level gives (R7). -/
def sensedOf : Option Contact → Sensed
  | none => .unknown
  | some .closed => .deployed
  | some .opened => .retracted

/-! ## Reading the state -/

/-- The numbers 1 to 12. -/
def segmentNumbers : List Nat := [1, 2, 3, 4, 5, 6, 7, 8, 9, 10, 11, 12]

/-- The numbers of the language slots, 12 to 63 (R152). -/
def languageSlots : List Nat := (List.range 52).map (· + 12)

def State.segment (s : State) (k : Nat) : Segment := tget Segment.initial s.hall.segments k
def State.partition (s : State) (p : Nat) : Partition := tget Partition.initial s.hall.partitions p
def State.settling (s : State) (p : Nat) : Settling := tget Settling.initial s.hall.settling p
/-- The room context with this anchor. -/
def State.room (s : State) (a : Nat) : Option Room := tget none s.hall.rooms a
/-- The anchor of the room that contains a segment (R11). -/
def State.anchorOf (s : State) (k : Nat) : Option Nat := tget none s.hall.segmentMap k
/-- The room that contains a segment. -/
def State.roomOf (s : State) (k : Nat) : Option Room := (s.anchorOf k).bind s.room
/-- The anchors of the rooms, ascending. -/
def State.anchors (s : State) : List Nat := tkeys (fun _ r => r.isSome) s.hall.rooms
def State.seat (s : State) (n : Nat) : Seat := tget Seat.initial s.floor.seats n
def State.group (s : State) (g : Nat) : Group := tget Group.initial s.floor.groups g
def State.bus (s : State) (i : Nat) : Bus := tget Bus.initial s.buses i
def State.unit (s : State) (i a : Nat) : UnitRecord := tget UnitRecord.initial (s.bus i).units a
def State.boothAt (s : State) (b : Nat) : Booth := tget Booth.initial s.booth.booths b
def State.console (s : State) (c : Nat) : Console := tget Console.initial s.booth.consoles c
def State.counter (s : State) (c : Nat) : Counter := tget Counter.initial s.counts.counters c

/-- The bus of a seat (R83). -/
def seatBus (n : Nat) : Nat := n / 256
/-- The address of a seat (R83). -/
def seatAddress (n : Nat) : Nat := n % 256
/-- The seat at an address of a delegate bus (R83). -/
def seatAt (i a : Nat) : Nat := i * 256 + a
/-- A seat number that check (1) of R84 takes. -/
def seatNumberOk (n : Nat) : Bool := n < 1024 && 1 ≤ seatAddress n && seatAddress n ≤ 240
/-- The booth of a console address (R131). -/
def consoleBooth (c : Nat) : Nat := (c + 1) / 2

/-- The anchor of a seat's room (R83). -/
def State.seatAnchor (s : State) (n : Nat) : Option Nat := s.anchorOf (s.seat n).segment
/-- The room of a seat (R83). -/
def State.seatRoom (s : State) (n : Nat) : Option Room := s.roomOf (s.seat n).segment
/-- The anchor of a booth's room (R129). -/
def State.boothAnchor (s : State) (b : Nat) : Option Nat := s.anchorOf (s.boothAt b).home
/-- The room of a booth (R129). -/
def State.boothRoom (s : State) (b : Nat) : Option Room := s.roomOf (s.boothAt b).home

/-- The session state of a room, if it exists. -/
def State.session (s : State) (a : Nat) : Option Session := (s.room a).map Room.session

/-- A console address in use (R68, R130). -/
def State.consoleInUse (s : State) (c : Nat) : Bool :=
  1 ≤ c && c ≤ 48 && (s.boothAt (consoleBooth c)).installed && (c % 2 = 1 || (s.boothAt (consoleBooth c)).count = 2)

/-- A unit record in use (R68). -/
def State.inUse (s : State) (i a : Nat) : Bool :=
  if i < 4 then 1 ≤ a && a ≤ 240 && (s.seat (seatAt i a)).installed else s.consoleInUse a

/-- The installed seats of a delegate bus, by address, ascending (R72). -/
def State.seatAddresses (s : State) (i : Nat) : List Nat :=
  (tkeys (fun n x => x.installed && seatBus n = i && 1 ≤ seatAddress n && seatAddress n ≤ 240) s.floor.seats).map seatAddress

/-- The addresses in use of a bus, ascending (R68, R72). -/
def State.addresses (s : State) (i : Nat) : List Nat :=
  if i < 4 then s.seatAddresses i
  else (List.range 48).filterMap (fun c => if s.consoleInUse (c + 1) then some (c + 1) else none)

/-! ## Counts and the open test's parts -/

/-- A seat that counts in its room's floor (R87): OPENING or LIVE. -/
def Mic.onFloor (m : Mic) : Bool := m = .opening || m = .live

/-- The delegate live count of a room (R87). -/
def State.delegateCount (s : State) (r : Room) : Nat :=
  (r.live.filter (fun n => (s.seat n).cls = .delegate && (s.seat n).mic.onFloor)).length

/-- The chair count of a room (R87). -/
def State.chairCount (s : State) (r : Room) : Nat :=
  (r.live.filter (fun n => (s.seat n).cls = .chair && (s.seat n).mic.onFloor)).length

/-- N, the number of unmuted LIVE seats of a room (R87). -/
def State.openMics (s : State) (r : Room) : Nat :=
  (r.live.filter (fun n => (s.seat n).mic = .live && !(s.seat n).muted)).length

/-- The lowest free upstream slot of a delegate bus (R79): none when all twelve are held. -/
def State.freeSlot (s : State) (i : Nat) : Option Nat :=
  (List.range Config.upstreamSlots).find? (fun k =>
    !(s.floor.seats.any (fun x => seatBus x.1 = i && x.2.slot = some k)))

/-- A room is priority-active under CLOSE_ALL or CLOSE_AND_CLEAR (R103), by its action as stored now. DESIGN CHOICE (log 40):
R23 and R103 leave open whether a ROOM_SET of the action while priority stays active turns this test with it. -/
def Room.closing (r : Room) : Bool := r.priority && r.profile.action ≠ .muteAll

/-! ## Seat groups -/

/-- A seat agrees with a base in every digit that the mask marks (R123). -/
def groupTakes (g : Group) (n : Nat) : Bool := Nat.land n g.mask = Nat.land g.base g.mask

/-- A seat is a member of a group in force (R122, R123). -/
def State.memberOf (s : State) (g n : Nat) : Bool := (s.group g).installed && groupTakes (s.group g) n

/-- The group numbers 1 to 16. -/
def groupNumbers : List Nat := (List.range 16).map (· + 1)

/-- The rank of a seat (R123 (1)). -/
def State.rank (s : State) (n : Nat) : Nat :=
  groupNumbers.foldl (fun m g => if s.memberOf g n then max m (s.group g).rank else m) 0

/-- Whether a seat is blocked (R123 (2)). -/
def State.blocked (s : State) (n : Nat) : Bool :=
  groupNumbers.any (fun g => s.memberOf g n && (s.group g).blocked)

/-- The installed seats that a group takes, counted as if the group were installed (R124). -/
def State.memberCount (s : State) (g : Nat) : Nat :=
  (s.floor.seats.filter (fun x => x.2.installed && groupTakes (s.group g) x.1)).length

/-! ## Levels -/

/-- The target of a room (R168): the lower of the level request and the ceiling. -/
def Room.target (r : Room) : Int := min r.profile.level r.ceiling

/-- The lowest M over these segments (R19). -/
def State.ceilingOf (s : State) (segments : List Nat) : Int :=
  segments.foldl (fun c k => min c (s.segment k).maximum) 0

/-! ## Channels -/

/-- The position of a key on a list, counted from 1. -/
def positionOf (key : Key) : List Key → Nat → Option Nat
  | [], _ => none
  | x :: xs, i => if x = key then some i else positionOf key xs (i + 1)

/-- The slot whose entry names a channel. -/
def SlotTable.slotOf (t : SlotTable) (key : Key) : Option Nat :=
  (tkeys (fun _ x => x = some key) t.slots).head?

/-- The service of a channel (R150): none where there is no such channel. -/
def State.service (s : State) (key : Key) : Service :=
  match s.dist.allocation.slotOf key with
  | some k => .served k
  | none =>
    match positionOf key s.dist.unserved 1 with
    | some i => .unserved i
    | none => .none

/-- A language channel exists (R150). -/
def State.hasChannel (s : State) (key : Key) : Bool := s.service key ≠ .none

/-- A room whose state gives it channels (R150): IN_SESSION or ENDING. -/
def Session.hasChannels (x : Session) : Bool := x = .inSession || x = .ending

/-- The lowest free language slot of the allocation table (R151). -/
def State.freeLanguageSlot (s : State) : Option Nat :=
  languageSlots.find? (fun k => tget none s.dist.allocation.slots k = none)

/-- The allocation table differs from the on-air table (R159). -/
def State.tablesDiffer (s : State) : Bool := s.dist.allocation ≠ s.dist.current

/-- A map item waits on a delegate bus (R160 (1)). -/
def State.mapWaiting (s : State) : Bool :=
  [0, 1, 2, 3].any (fun i => (s.bus i).queue.any (fun it => match it with
    | .map _ => true
    | .unit _ => false))

/-! ## Consoles and booths -/

/-- The console that owns a channel (R132). -/
def State.ownerOf (s : State) (key : Key) : Option Nat :=
  (tkeys (fun _ c => c.owned = some key) s.booth.consoles).head?

/-- The listen state of a booth (R144). -/
def State.listenOf (s : State) (b : Nat) : Listen :=
  match (s.boothAt b).source with
  | .floor => .direct
  | .relay code =>
    match s.boothRoom b with
    | none => .fallback
    | some r =>
      if r.session.hasChannels && s.hasChannel ⟨r.anchor, code⟩ then
        match s.ownerOf ⟨r.anchor, code⟩ with
        | none => .fallback
        | some c =>
          if (s.console c).state = .onAir && (s.boothAt (consoleBooth c)).source = .floor then .relay else .fallback
      else .fallback

/-- The listen state that a booth's source gives without a room (R130, R149). -/
def Source.restListen : Source → Listen
  | .floor => .direct
  | .relay _ => .fallback

/-- A channel of an IN_SESSION or ENDING room is on fill (R143): it has no owner in ON_AIR. -/
def State.onFill (s : State) (key : Key) : Bool :=
  match s.ownerOf key with
  | none => true
  | some c => (s.console c).state ≠ .onAir

/-- The channel keys of a room (R150). -/
def Room.channelKeys (r : Room) : List Key :=
  if r.session.hasChannels then r.profile.languages.map (fun c => ⟨r.anchor, c⟩) else []

/-! ## Indications -/

/-- The indication a seat is to show (R109). -/
def seatIndication (x : Seat) (session : Option Session) (blocked : Bool) : Option Indication :=
  match x.mic with
  | .absent => none
  | m =>
    if session = some .dormant || session = some .armed || session = none then some .noSession
    else match m with
      | .idle => if blocked then some .blocked else some .idle
      | .queued => some .waiting
      | .opening => some .speaking
      | .live => if x.warned || x.limitReported then some .warning else some .speaking
      | _ => some .idle

/-- The indication a console is to show (R133). -/
def State.consoleIndication (s : State) (c : Nat) : Option Indication :=
  match (s.console c).state with
  | .absent => none
  | .cueing => some .cueing
  | .onAir => some .onAir
  | _ =>
    match s.boothRoom (consoleBooth c) with
    | none => some .busy
    | some r =>
      let code := (s.boothAt (consoleBooth c)).language
      if r.session ≠ .inSession then some .busy
      else if !(r.profile.languages.contains code) then some .busy
      else match s.ownerOf ⟨r.anchor, code⟩ with
        | none => some .ready
        | some o => if o = c then some .ready else some .busy

/-- The indication that the unit at an address is to show (R109, R133). -/
def State.shown (s : State) (i a : Nat) : Option Indication :=
  if i < 4 then (s.seat (seatAt i a)).indication else (s.console a).indication

/-- The seat or console of a unit waits for an acknowledgement (R69 (2)). -/
def State.acting (s : State) (i a : Nat) : Bool :=
  if i < 4 then (s.seat (seatAt i a)).mic = .opening || (s.seat (seatAt i a)).mic = .closing
  else (s.console a).state = .cueing || (s.console a).state = .releasing

/-- A unit is unsettled (R69). -/
def State.unsettled (s : State) (i a : Nat) : Bool :=
  !(s.unit i a).assigned || s.acting i a || (s.unit i a).told ≠ s.shown i a

/-- The chair seats of a room that hold PRIORITY by their last report, ascending (R101). -/
def State.chairsHolding (s : State) (segments : List Nat) : List Nat :=
  tkeys (fun n x => x.installed && x.cls = .chair && segments.contains x.segment &&
    (s.unit (seatBus n) (seatAddress n)).held) s.floor.seats

/-- The present seats whose segment is one of these, ascending (R32 (3), R35 (3), R42): a seat whose unit is not PRESENT is in
ABSENT (R75). -/
def State.presentIn (s : State) (segments : List Nat) : List Nat :=
  tkeys (fun _ x => x.installed && segments.contains x.segment && x.mic ≠ .absent) s.floor.seats

/-- The installed booths whose home segment is one of these, ascending. -/
def State.boothsIn (s : State) (segments : List Nat) : List Nat :=
  tkeys (fun _ x => x.installed && segments.contains x.home) s.booth.booths

end Sys2Proof.Machine
end

