-- ==== Sys2Proof/Machine/Ops.lean ====
section
/-! DEFINITION. The operations that every block uses: writing one record, raising a notice and forming a reply (R196,
R197), making units and map items due (R69, R158), forming indications (R109, R133), and raising an occurrence (R184). -/

namespace Sys2Proof.Machine

/-! ## Writing one record -/

def State.setSegment (s : State) (k : Nat) (x : Segment) : State :=
  { s with hall := { s.hall with segments := tset Segment.initial s.hall.segments k x } }
def State.setPartition (s : State) (p : Nat) (x : Partition) : State :=
  { s with hall := { s.hall with partitions := tset Partition.initial s.hall.partitions p x } }
def State.setSettling (s : State) (p : Nat) (x : Settling) : State :=
  { s with hall := { s.hall with settling := tset Settling.initial s.hall.settling p x } }
def State.setRoom (s : State) (a : Nat) (x : Option Room) : State :=
  { s with hall := { s.hall with rooms := tset none s.hall.rooms a x } }
def State.setAnchor (s : State) (k : Nat) (a : Option Nat) : State :=
  { s with hall := { s.hall with segmentMap := tset none s.hall.segmentMap k a } }
def State.setSeat (s : State) (n : Nat) (x : Seat) : State :=
  { s with floor := { s.floor with seats := tset Seat.initial s.floor.seats n x } }
def State.setGroup (s : State) (g : Nat) (x : Group) : State :=
  { s with floor := { s.floor with groups := tset Group.initial s.floor.groups g x } }
def State.setBus (s : State) (i : Nat) (x : Bus) : State :=
  { s with buses := tset Bus.initial s.buses i x }
def State.setUnit (s : State) (i a : Nat) (x : UnitRecord) : State :=
  s.setBus i { s.bus i with units := tset UnitRecord.initial (s.bus i).units a x }
def State.setBooth (s : State) (b : Nat) (x : Booth) : State :=
  { s with booth := { s.booth with booths := tset Booth.initial s.booth.booths b x } }
def State.setConsole (s : State) (c : Nat) (x : Console) : State :=
  { s with booth := { s.booth with consoles := tset Console.initial s.booth.consoles c x } }
def State.setCounter (s : State) (c : Nat) (x : Counter) : State :=
  { s with counts := { s.counts with counters := tset Counter.initial s.counts.counters c x } }

/-- An opening number, a live number or an arrival stamp has been given: the next one is higher by one (R87, R112). -/
def State.countOpening (s : State) : State :=
  { s with floor := { s.floor with openingCount := s.floor.openingCount + 1 } }
def State.countLive (s : State) : State := { s with floor := { s.floor with liveCount := s.floor.liveCount + 1 } }
def State.countStamp (s : State) : State := { s with floor := { s.floor with stampCount := s.floor.stampCount + 1 } }

/-- Change the room with this anchor, if it exists. -/
def State.modRoom (s : State) (a : Nat) (f : Room → Room) : State :=
  match s.room a with
  | none => s
  | some r => s.setRoom a (some (f r))

/-- Change the room that contains a seat's segment, if it exists. -/
def State.modSeatRoom (s : State) (n : Nat) (f : Room → Room) : State :=
  match s.seatAnchor n with
  | none => s
  | some a => s.modRoom a f

/-! ## Sending (R197) -/

/-- The line is free: start the oldest reply, or else the notice at the head of the queue (R197). -/
def LinkUnit.startNext (l : LinkUnit) : LinkUnit :=
  match l.replies with
  | r :: rs => { l with replies := rs, sending := some (.reply r) }
  | [] =>
    match l.notices with
    | n :: ns =>
      { l with notices := ns, sending := some (.notice n l.sequence l.lost), sequence := l.sequence + 1, lost := false }
    | [] => { l with sending := none }

/-- An idle line starts what has arrived (R197). -/
def LinkUnit.kick (l : LinkUnit) : LinkUnit :=
  match l.sending with
  | some _ => l
  | none => l.startNext

/-- A notice is raised: it joins the tail of the notice queue, or is dropped and sets the lost flag (R197). -/
def LinkUnit.raise (l : LinkUnit) (n : Notice) : LinkUnit :=
  if l.notices.length < Config.noticeLimit then LinkUnit.kick { l with notices := l.notices ++ [n] }
  else { l with lost := true }

/-- A reply is formed and placed on the reply list (R195, R196). -/
def LinkUnit.answer (l : LinkUnit) (r : Reply) : LinkUnit :=
  LinkUnit.kick { l with replies := l.replies ++ [r] }

/-- A block raises a notice (R197). -/
def State.note (s : State) (n : Notice) : State := { s with link := s.link.raise n }

/-- A reply is formed (R196). -/
def State.reply (s : State) (r : Reply) : State := { s with link := s.link.answer r }

/-- The places of the reply list that are taken: formed replies, and the places held by requests taken whose reply is
not formed (R195). -/
def LinkUnit.placesTaken (l : LinkUnit) : Nat :=
  l.replies.length + l.restarts.length + (if l.stopping.isSome then 1 else 0)

/-! ## Due items (R69, R158) -/

/-- An item joins the tail of a pending queue, or keeps its place (R69). -/
def State.join (s : State) (i : Nat) (it : Item) : State :=
  if (s.bus i).queue.contains it then s else s.setBus i { s.bus i with queue := (s.bus i).queue ++ [it] }

/-- An item leaves a pending queue from wherever it stands (R69, R77). -/
def State.leave (s : State) (i : Nat) (it : Item) : State :=
  s.setBus i { s.bus i with queue := (s.bus i).queue.filter (· ≠ it) }

/-- The bus controller checks a unit: a PRESENT unit that is unsettled is made due (R69). -/
def State.check (s : State) (i a : Nat) : State :=
  if s.inUse i a && (s.unit i a).presence = .present && s.unsettled i a then s.join i (.unit a) else s

/-- The map items of these segments fall due on D0 to D3, in this order (R158). -/
def State.queueMaps (s : State) (segments : List Nat) : State :=
  [0, 1, 2, 3].foldl (fun t i => segments.foldl (fun u k => u.join i (.map k)) t) s

/-- The maps of every segment of a room fall due (R158). -/
def State.queueRoomMaps (s : State) (a : Nat) : State :=
  match s.roomOf a with
  | none => s
  | some r => s.queueMaps r.segments

/-! ## Indications (R109, R133) -/

/-- The indication that a seat is to show now (R109). -/
def State.indicationOf (s : State) (n : Nat) : Option Indication :=
  seatIndication (s.seat n) ((s.seatRoom n).map Room.session) (s.blocked n)

/-- After a change of its mic state, a seat's indication is formed again, and the bus controller checks the unit (R109,
R69). -/
def State.reseat (s : State) (n : Nat) : State :=
  (s.setSeat n { s.seat n with indication := s.indicationOf n }).check (seatBus n) (seatAddress n)

/-- A seat's indication is formed again where its mic state has not changed: the bus controller hears of it only if the
indication changes (R109, R69). Nothing happens to a seat in ABSENT (R125, R126), whose unit is not told (R109): it keeps what
the last reset (R110) or the loss of its unit gave it (log 19). -/
def State.reform (s : State) (n : Nat) : State :=
  if (s.seat n).mic = .absent || (s.seat n).indication = s.indicationOf n then s else s.reseat n

/-- The same for several seats in turn. -/
def State.reformAll (s : State) (ns : List Nat) : State := ns.foldl State.reform s

/-- After a change of its state, a console's indication is formed again, and the bus controller checks the unit (R133,
R69). -/
def State.showConsole (s : State) (c : Nat) : State :=
  (s.setConsole c { s.console c with indication := s.consoleIndication c }).check 4 c

/-- A console's indication is formed again where its state has not changed: the bus controller hears of it only if the
indication changes (R133, R69). -/
def State.reconsole (s : State) (c : Nat) : State :=
  if (s.console c).indication = s.consoleIndication c then s else s.showConsole c

/-! ## Occurrences (R184, R190) -/

/-- An occurrence is raised. It is added to the counters by `State.settleCounts`. -/
def State.raise (s : State) (o : Occurrence) : State :=
  { s with counts := { s.counts with raised := s.counts.raised ++ [o] } }

/-- An occurrence of a seat: its room is the one that holds its segment (R184). -/
def State.raiseSeat (s : State) (e : CountEvent) (n : Nat) : State :=
  s.raise { event := e, segment := (s.seat n).segment, bus := some (seatBus n), seat := some n }

/-- An occurrence of a booth, on bus B (R184). -/
def State.raiseBooth (s : State) (e : CountEvent) (b : Nat) : State :=
  s.raise { event := e, segment := (s.boothAt b).home, bus := some 4, seat := none }

/-- A change of mic state, or of the muted flag of a LIVE seat, is reported (R89). The muted flag and the slot are
carried as they stand after the change. -/
def State.noteMic (s : State) (n : Nat) (old : Mic) (cause : MicCause) : State :=
  s.note (.micState n (s.seatAnchor n) old (s.seat n).mic cause (s.seat n).muted (s.seat n).slot)

/-- A change of console state, a refused press or a change of cough is reported (R141). -/
def State.noteConsole (s : State) (c : Nat) (old : ConsoleState) (cause : BoothCause) (taker : Option Nat) : State :=
  s.note (.boothState (consoleBooth c) c (s.boothAnchor (consoleBooth c)) old (s.console c).state cause
    (s.console c).owned taker)

end Sys2Proof.Machine
end

