-- ==== Sys2Proof/Machine/Counting.lean ====
section
/-! DEFINITION. The counter unit's additions (R185, R188 to R190), the drops of a queue (R115) and the blocking of a seat
group (R125), which an overflow may bring about. -/

namespace Sys2Proof.Machine

/-! ## Leaving a queue -/

/-- A seat's entry leaves its room's queue and its stamp is cleared (R115). -/
def State.unqueue (s : State) (n : Nat) : State :=
  (s.modSeatRoom n (fun r => { r with queue := r.queue.filter (fun e => e.seat ≠ n) })).setSeat n
    { s.seat n with stamp := none }

/-- A drop (R115): the entry leaves, the seat goes to IDLE, REQUEST_DROPPED is raised, and the occurrence with it. The
indication is formed afterwards. -/
def State.drop (s : State) (n : Nat) (cause : DropCause) : State :=
  let stamp := (s.seat n).stamp
  let t := s.unqueue n
  let u := t.setSeat n { t.seat n with mic := .idle }
  (u.note (.requestDropped n (u.seatAnchor n) stamp cause)).raiseSeat .requestDropped n

/-! ## Blocking a group (R125) -/

/-- The installed seats blocked in `t` and not in `s`, ascending. -/
def newlyBlocked (s t : State) : List Nat :=
  tkeys (fun n x => x.installed && t.blocked n && !(s.blocked n)) t.floor.seats

/-- The queue entries of these seats, rooms in ascending anchor order, entries in queue order (R125). -/
def State.queuedAmong (s : State) (ns : List Nat) : List Nat :=
  s.anchors.flatMap (fun a =>
    match s.room a with
    | none => []
    | some r => (r.queue.map Entry.seat).filter (fun n => ns.contains n))

/-- GROUP_BLOCKED is raised for a group (R125, R126). -/
def State.noteGroup (s : State) (g : Nat) (blocked : Bool) (cause : BlockCause) : State :=
  s.note (.groupBlocked g blocked cause (s.memberCount g))

/-- A counter overflow blocks its group (R125, R189 (2)): the field becomes yes; on a group installed and not yet blocked,
GROUP_BLOCKED is raised, the newly blocked queued seats are dropped and the indications are formed again last. The drops'
occurrences stay raised until the action has been carried out whole (R190 (2)). -/
def State.counterBlocks (s : State) (g : Nat) : State :=
  let x := s.group g
  if x.blocked then s
  else
    let t := s.setGroup g { x with blocked := true }
    if x.installed && s.link.phase = .run then
      let ns := newlyBlocked s t
      let u := t.noteGroup g true .counter
      ((u.queuedAmong ns).foldl (fun v n => v.drop n .blocked) u).reformAll ns
    else if x.installed then t.noteGroup g true .counter
    else t

/-! ## Adding (R188, R189) -/

/-- The top of a counter (R189). -/
abbrev counterTop : Nat := 4294967295

/-- Counter `c` adds `amount`; a sum above the top wraps and is an overflow (R189). -/
def State.addCounter (s : State) (c amount : Nat) : State :=
  let x := s.counter c
  if x.value + amount ≤ counterTop then s.setCounter c { x with value := x.value + amount }
  else
    let t := (s.setCounter c { x with value := x.value + amount - (counterTop + 1) }).note
      (.counterOverflow c x.event x.scope x.mode (x.value + amount - (counterTop + 1)) x.action)
    match x.action, x.scope with
    | .noticeAndBlock, .group g => t.counterBlocks g
    | _, _ => t

/-- An occurrence is in scope for a counter (R185). -/
def State.inScope (s : State) (x : Counter) (o : Occurrence) : Bool :=
  match x.scope with
  | .all => true
  | .segment k => (s.anchorOf k).isSome && s.anchorOf k = s.anchorOf o.segment
  | .group g =>
    match o.seat with
    | none => false
    | some n => s.memberOf g n
  | .bus i => o.bus = some i

/-- The counter numbers 1 to 8 (R181). -/
def counterNumbers : List Nat := [1, 2, 3, 4, 5, 6, 7, 8]

/-- One counter takes one occurrence (R185, R188): in COUNT mode it adds 1, else its tally rises, up to 255. -/
def State.takeOccurrence (s : State) (o : Occurrence) (c : Nat) : State :=
  let x := s.counter c
  if x.enabled && x.event = o.event && s.inScope x o then
    match x.mode with
    | .count => s.addCounter c 1
    | _ => s.setCounter c { x with tally := min 255 (x.tally + 1) }
  else s

/-- The counters take the raised occurrences one after another, in the order raised, each by all counters in ascending
number; what an overflow action raises joins the tail (R190; order among counters: log 17). -/
def addOccurrences : Nat → State → State
  | 0, s => s
  | fuel + 1, s =>
    match s.counts.raised with
    | [] => s
    | o :: os =>
      addOccurrences fuel
        (counterNumbers.foldl (fun t c => t.takeOccurrence o c) { s with counts := { s.counts with raised := os } })

/-- The number of queue entries in the part, which bounds the drops that blockings can raise. -/
def State.entryCount (s : State) : Nat :=
  (s.hall.rooms.map (fun x => match x.2 with
    | none => 0
    | some r => r.queue.length)).sum

/-- The raised occurrences are added now, unless a merge or a split holds them back (R190). -/
def State.settleCounts (s : State) : State :=
  if s.counts.deferring then s else addOccurrences (s.counts.raised.length + s.entryCount) s

/-- A drop with its indication, its occurrence added at once (R115, R190). -/
def State.dropNow (s : State) (n : Nat) (cause : DropCause) : State :=
  ((s.drop n cause).reseat n).settleCounts

/-- Entries are dropped from the head of a room's queue until it is empty (R34 (2), R103, R116). -/
def dropQueue : Nat → Nat → DropCause → State → State
  | 0, _, _, s => s
  | fuel + 1, a, cause, s =>
    match s.room a with
    | none => s
    | some r =>
      match r.queue with
      | [] => s
      | e :: _ => dropQueue fuel a cause (s.dropNow e.seat cause)

/-- Empty a room's queue (R116). -/
def State.emptyQueue (s : State) (a : Nat) (cause : DropCause) : State :=
  match s.room a with
  | none => s
  | some r => dropQueue r.queue.length a cause s

end Sys2Proof.Machine
end

