-- ==== Sys2Proof/Machine/Floor.lean ====
section
/-! DEFINITION. The floor unit (chapters 5 and 6): the open test, entering OPENING and CLOSING, joining the queue, the
choice of the next candidate, promotion, and priority. -/

namespace Sys2Proof.Machine

/-! ## The open test (R88) -/

/-- Why the open test fails (R88). -/
inductive OpenFailure where
  | wrongState | atLimit | busFull
  deriving DecidableEq, Repr

/-- The reply status of a failed open test (R97). -/
def OpenFailure.status : OpenFailure → Status
  | .wrongState => .wrongState
  | .atLimit => .atLimit
  | .busFull => .busFull

/-- The cause of REQUEST_REFUSED for a failed open test (R90). A press meets the test in an IN_SESSION room only, where
it does not fail with WRONG_STATE. -/
def OpenFailure.refused : OpenFailure → RefusedCause
  | .busFull => .busFull
  | _ => .atLimit

/-- The open test of R88 for a seat: none when it passes. -/
def State.openTest (s : State) (n : Nat) : Option OpenFailure :=
  match s.seatRoom n with
  | none => some .wrongState
  | some r =>
    if r.session ≠ .inSession then some .wrongState
    else if (s.seat n).cls = .delegate && r.closing then some .atLimit
    else if (s.seat n).cls = .delegate && r.profile.openLimit ≤ s.delegateCount r then some .atLimit
    else if (s.seat n).cls = .chair && r.profile.chairLimit ≤ s.chairCount r then some .atLimit
    else if s.freeSlot (seatBus n) = none then some .busFull
    else if s.floor.openingCount = Config.allOnes32 then some .atLimit
    else none

/-! ## Opening and closing -/

/-- A seat that has passed the open test enters OPENING (R87 (1), R88, R115): it leaves the queue if it was QUEUED,
takes the lowest free slot of its bus and the next opening number, and joins the tail of its room's live list. -/
def State.enterOpening (s : State) (n : Nat) (cause : MicCause) (grant : Option Nat) : State :=
  let old := (s.seat n).mic
  let t := if old = .queued then s.unqueue n else s
  let u := t.setSeat n { t.seat n with
    mic := .opening, slot := t.freeSlot (seatBus n), openingNumber := some t.floor.openingCount, grant := grant }
  let v := u.countOpening.modSeatRoom n (fun r => { r with live := r.live ++ [n] })
  (v.noteMic n old cause).reseat n

/-- A seat in OPENING or LIVE goes to CLOSING (R91): its clock, live number, grant limit, warned, limit reported and
muted flag are cleared; it keeps its slot, its opening number and its place in the live list. -/
def State.enterClosing (s : State) (n : Nat) (cause : MicCause) : State :=
  let x := s.seat n
  let t := s.setSeat n { x with
    mic := .closing, clock := none, liveNumber := none, grant := none, warned := false, limitReported := false,
    muted := false, secondDue := false }
  (t.noteMic n x.mic cause).reseat n

/-- A delegate leaves the queue for IDLE without a drop (R91 (1), R98, R99). -/
def State.withdraw (s : State) (n : Nat) (cause : MicCause) : State :=
  let t := s.unqueue n
  let u := t.setSeat n { t.seat n with mic := .idle }
  (u.noteMic n .queued cause).reseat n

/-- A press is refused with REQUEST_REFUSED, whose occurrence is added at once (R89, R184). -/
def State.refusePress (s : State) (n : Nat) (cause : RefusedCause) : State :=
  ((s.note (.requestRefused n (s.seatAnchor n) cause)).raiseSeat .requestRefused n).settleCounts

/-- A join finds the queue full, or the stamp counter at its last value (R112, R113). -/
def State.queueFull (s : State) (r : Room) : Bool :=
  Config.queueLimit ≤ r.queue.length || s.floor.stampCount = Config.allOnes32

/-- A delegate that has passed its checks joins its room's queue (R114): entry, state, notice, indication, occurrence.
Promotion follows by the caller. -/
def State.joinQueue (s : State) (n : Nat) (cause : MicCause) : State :=
  let stamp := s.floor.stampCount
  let t := s.modSeatRoom n (fun r =>
    { r with queue := r.queue ++ [{ seat := n, stamp := stamp, segment := (s.seat n).segment }] })
  let u := t.setSeat n { t.seat n with mic := .queued, stamp := some stamp }
  (((u.countStamp.noteMic n .idle cause).reseat n).raiseSeat .requestJoined n).settleCounts

/-! ## The next candidate (R117 to R119) -/

/-- An entry is eligible when its seat's bus has a free slot (R117). -/
def State.eligible (s : State) (e : Entry) : Bool := (s.freeSlot (seatBus e.seat)).isSome

/-- The eligible entries of the top rank, in queue order (R117). -/
def State.topEntries (s : State) (r : Room) : List Entry :=
  let es := r.queue.filter s.eligible
  let top := es.foldl (fun m e => max m (s.rank e.seat)) 0
  es.filter (fun e => s.rank e.seat = top)

/-- The segments of a room in the order of the rotating walk (R119 (1), (2)). -/
def Room.walk (r : Room) : List Nat :=
  match r.rotation with
  | none => r.segments
  | some p => r.segments.filter (p < ·) ++ r.segments.filter (· ≤ p)

/-- The next candidate of a room (R118, R119). The queue stands in ascending stamp order, so the first entry of a kind
is the one with the earliest stamp. -/
def State.candidate (s : State) (r : Room) : Option Entry :=
  match r.profile.service with
  | .arrival => (s.topEntries r).head?
  | .rotating => r.walk.findSome? (fun k => (s.topEntries r).find? (fun e => e.segment = k))

/-- A candidate is taken (R115, R120): it enters OPENING and the rotation pointer becomes its segment. -/
def State.takeCandidate (s : State) (a : Nat) (e : Entry) (cause : MicCause) : State :=
  (s.enterOpening e.seat cause none).modRoom a (fun r => { r with rotation := some e.segment })

/-! ## Promotion (R105) -/

/-- The conditions of R105 for a room. -/
def State.promotes (s : State) (r : Room) : Bool :=
  r.session = .inSession &&
    (r.profile.floorMode = .request || (r.profile.floorMode = .openFloor && r.profile.overflow = .queue)) &&
    !r.closing && s.delegateCount r < r.profile.openLimit

/-- One promotion run, bounded by the length of the queue (R105). -/
def promoteRun : Nat → Nat → State → State
  | 0, _, s => s
  | fuel + 1, a, s =>
    match s.room a with
    | none => s
    | some r =>
      if s.promotes r then
        match s.candidate r with
        | none => s
        | some e =>
          match s.openTest e.seat with
          | some _ => s
          | none => promoteRun fuel a (s.takeCandidate a e .promoted)
      else s

/-- Promotion runs in a room (R105). -/
def State.promote (s : State) (a : Nat) : State :=
  match s.room a with
  | none => s
  | some r => promoteRun r.queue.length a s

/-- Promotion runs in the room of a seat, if it has one. -/
def State.promoteSeat (s : State) (n : Nat) : State :=
  match s.seatAnchor n with
  | none => s
  | some a => s.promote a

/-- After a slot has been returned: the seat's own room first, then every other in ascending anchor order (R105). -/
def State.promoteAfterSlot (s : State) (n : Nat) : State :=
  let t := s.promoteSeat n
  (t.anchors.filter (fun a => s.seatAnchor n ≠ some a)).foldl State.promote t

/-! ## Priority (R101 to R104) -/

/-- A LIVE delegate is muted (R102). -/
def State.mute (s : State) (n : Nat) : State :=
  (s.setSeat n { s.seat n with muted := true }).noteMic n .live .priority

/-- Every LIVE delegate of a room that is not muted is muted, in live-list order: by R102 at an activation, and as a DESIGN CHOICE
(log 47) at a merge, for which R45 (1) and R49 give no order. -/
def State.muteAll (s : State) (a : Nat) : State :=
  match s.room a with
  | none => s
  | some r =>
    (r.live.filter (fun n => (s.seat n).cls = .delegate && (s.seat n).mic = .live && !(s.seat n).muted)).foldl
      State.mute s

/-- Every delegate of a room in OPENING or LIVE goes to CLOSING, in live-list order (R103). -/
def State.closeAll (s : State) (a : Nat) : State :=
  match s.room a with
  | none => s
  | some r =>
    (r.live.filter (fun n => (s.seat n).cls = .delegate && (s.seat n).mic.onFloor)).foldl
      (fun t n => t.enterClosing n .priority) s

/-- A room's priority action is carried out (R102, R103). -/
def State.act (s : State) (a : Nat) : State :=
  match s.room a with
  | none => s
  | some r =>
    match r.profile.action with
    | .muteAll => s.muteAll a
    | .closeAll => s.closeAll a
    | .closeAndClear => (s.closeAll a).emptyQueue a .priority

/-- A chair that holds PRIORITY is opened as for a press, if it is IDLE (R101 (3)). -/
def State.openChair (s : State) (n : Nat) (cause : MicCause) : State :=
  if (s.seat n).mic = .idle then
    match s.openTest n with
    | none => s.enterOpening n cause none
    | some f => s.refusePress n f.refused
  else s

/-- A room's priority becomes active, if it is not (R101): the action is carried out once, and then the given chairs
are opened in turn. -/
def State.activate (s : State) (a : Nat) (chairs : List Nat) : State :=
  match s.room a with
  | none => s
  | some r =>
    let t := if r.priority then s else (s.modRoom a (fun r => { r with priority := true })).act a
    chairs.foldl (fun u n => u.openChair n .priority) t

/-- Every muted seat of a room is unmuted, in live-list order (R104 (2)). -/
def State.unmuteAll (s : State) (a : Nat) : State :=
  match s.room a with
  | none => s
  | some r =>
    (r.live.filter (fun n => (s.seat n).muted)).foldl
      (fun t n => (t.setSeat n { t.seat n with muted := false }).noteMic n .live .priorityEnd) s

/-- A room's priority ends, without the promotion of R104 (3). -/
def State.endPriority (s : State) (a : Nat) : State :=
  (s.modRoom a (fun r => { r with priority := false })).unmuteAll a

end Sys2Proof.Machine
end

