-- ==== Sys2Proof/Machine/Dist.lean ====
section
/-! DEFINITION. The distribution unit's channels (chapter 8): making a channel, giving a freed slot, removing channels,
re-keying, and the anchor set. The maps of every room concerned fall due at the change (R158). -/

namespace Sys2Proof.Machine

/-- The allocation table's entry of a slot becomes this (R153). -/
def State.setSlot (s : State) (k : Nat) (x : Option Key) : State :=
  { s with dist := { s.dist with allocation := { s.dist.allocation with
      slots := tset none s.dist.allocation.slots k x } } }

/-- The allocation table's anchor set becomes this (R153). -/
def State.setAnchorSet (s : State) (anchors : List Nat) : State :=
  { s with dist := { s.dist with allocation := { s.dist.allocation with anchors := anchors } } }

/-- The unserved list becomes this (R154). -/
def State.setUnserved (s : State) (keys : List Key) : State :=
  { s with dist := { s.dist with unserved := keys } }

/-- A channel that does not exist yet is made (R151): it takes the lowest free language slot, or joins the tail of the
unserved list with CHANNEL_SERVICE of cause NO_SLOT (R157). -/
def State.makeChannel (s : State) (key : Key) : State :=
  if s.hasChannel key then s
  else
    match s.freeLanguageSlot with
    | some k => (s.setSlot k (some key)).queueRoomMaps key.anchor
    | none =>
      let n := s.dist.unserved.length + 1
      ((s.setUnserved (s.dist.unserved ++ [key])).note (.channelService key .none (.unserved n) .noSlot
        (some n))).queueRoomMaps key.anchor

/-- Channels are made one after another (R151). -/
def State.makeChannels (s : State) (keys : List Key) : State := keys.foldl State.makeChannel s

/-- A freed slot is given to the head of the unserved list, or stays free (R155). -/
def State.giveSlot (s : State) (k : Nat) : State :=
  match s.dist.unserved with
  | [] => s.setSlot k none
  | head :: rest =>
    (((s.setSlot k (some head)).setUnserved rest).note
      (.channelService head (.unserved 1) (.served k) .slotGiven none)).queueRoomMaps head.anchor

/-- An UNSERVED channel leaves the list (R154 (3), R156 (1)), with CHANNEL_SERVICE of cause REMOVED. -/
def State.removeUnserved (s : State) (key : Key) : State :=
  match positionOf key s.dist.unserved 1 with
  | none => s
  | some i =>
    ((s.setUnserved (s.dist.unserved.filter (· ≠ key))).note
      (.channelService key (.unserved i) .none .removed none)).queueRoomMaps key.anchor

/-- A SERVED channel frees its slot, which is given at once (R155, R156 (2)). -/
def State.removeServed (s : State) (key : Key) : State :=
  match s.dist.allocation.slotOf key with
  | none => s
  | some k => (s.queueRoomMaps key.anchor).giveSlot k

/-- Several channels are removed (R38): the UNSERVED ones first, then the SERVED ones free their slots, both in the order
given (R38 orders the SERVED ones; the order of the UNSERVED ones is log 16). -/
def State.removeChannels (s : State) (keys : List Key) : State :=
  let waiting := keys.filter (fun key => (positionOf key s.dist.unserved 1).isSome)
  let served := keys.filter (fun key => (s.dist.allocation.slotOf key).isSome)
  served.foldl State.removeServed (waiting.foldl State.removeUnserved s)

/-- A channel keeps its slot or its place under a new key, of which there is no channel (R47 (1), R150, R154 (4)). -/
def State.rekey (s : State) (old new : Key) : State :=
  if s.hasChannel new then s
  else
    match s.dist.allocation.slotOf old with
    | some k => s.setSlot k (some new)
    | none => s.setUnserved (s.dist.unserved.map (fun x => if x = old then new else x))

/-- The anchors of the rooms, as the allocation table's anchor set (R153). -/
def State.keepAnchors (s : State) : State := s.setAnchorSet s.anchors

end Sys2Proof.Machine
end

