-- ==== Sys2Proof/Machine/Booths.lean ====
section
/-! DEFINITION. The booth unit (chapter 7): listen states, indications of consoles, forced releases, and the work that
ends each change of console state. -/

namespace Sys2Proof.Machine

/-- The listen state of a booth is recomputed (R144, R145), with its notice and the occurrence of a fallback. -/
def State.relisten (s : State) (b : Nat) : State :=
  let x := s.boothAt b
  let new := s.listenOf b
  if x.listen = new then s
  else
    let t := s.setBooth b { x with listen := new }
    match x.source, new with
    | .relay code, .fallback =>
      ((t.note (.relayFallback b (s.boothAnchor b) code x.listen .fallback)).raiseBooth .relayFallback b).settleCounts
    | .relay code, .relay => t.note (.relayRestored b (s.boothAnchor b) code x.listen .relay)
    | _, _ => t

/-- The listen states of the booths homed in these segments are recomputed, in ascending booth number (R145). -/
def State.relistenIn (s : State) (segments : List Nat) : State := (s.boothsIn segments).foldl State.relisten s

/-- The console addresses in use of the booths homed in these segments, ascending. -/
def State.consolesIn (s : State) (segments : List Nat) : List Nat :=
  (s.addresses 4).filter (fun c => segments.contains (s.boothAt (consoleBooth c)).home)

/-- The indications of the consoles of the booths homed in these segments are formed again (R133). -/
def State.reconsoleIn (s : State) (segments : List Nat) : State := (s.consolesIn segments).foldl State.reconsole s

/-- The segments of a room, if it exists. -/
def State.segmentsOf (s : State) (a : Nat) : List Nat :=
  match s.room a with
  | none => []
  | some r => r.segments

/-- The work that ends each change of console state in a room (R137): listen states, then indications. -/
def State.boothWork (s : State) (a : Nat) : State :=
  (s.relistenIn (s.segmentsOf a)).reconsoleIn (s.segmentsOf a)

/-- The same in the room of a console's booth. -/
def State.consoleWork (s : State) (c : Nat) : State :=
  match s.boothAnchor (consoleBooth c) with
  | none => s.reconsole c
  | some a => s.boothWork a

/-- A console changes its state and its owned channel; the bus controller checks it at once, by the indication of its new
state (R69, R133). -/
def State.moveConsole (s : State) (c : Nat) (state : ConsoleState) (owned : Option Key) : State :=
  (s.setConsole c { s.console c with state := state, owned := owned }).showConsole c

/-- A console gives up its channel and goes to RELEASING, with a BOOTH_STATE notice (R136, R139). -/
def State.release (s : State) (c : Nat) (cause : BoothCause) (taker : Option Nat) : State :=
  (s.moveConsole c .releasing none).noteConsole c (s.console c).state cause taker

/-- A console is displaced at a merge: a forced release with BOOTH_DISPLACED in place of BOOTH_STATE (R48, R139). -/
def State.displace (s : State) (c : Nat) (cause : DisplacedCause) (anchor : Nat) (channel : Key) : State :=
  (s.moveConsole c .releasing none).note
    (.boothDisplaced (consoleBooth c) c (s.console c).state cause anchor channel)

/-- The owners of these channels are released, in the order of the channels (R25 (1)). -/
def State.releaseOwners (s : State) (keys : List Key) (cause : BoothCause) : State :=
  keys.foldl (fun t key => match t.ownerOf key with
    | none => t
    | some c => t.release c cause none) s

/-- The consoles that own a channel of a room, ascending. -/
def State.ownersIn (s : State) (a : Nat) : List Nat :=
  tkeys (fun _ c => match c.owned with
    | none => false
    | some key => key.anchor = a) s.booth.consoles

end Sys2Proof.Machine
end

