-- ==== Sys2Proof/Machine/Sessions.lean ====
section
/-! DEFINITION. Room sessions (chapter 2, section 2.4): the entry into IN_SESSION, the wake of an ARMED room, the ending,
and the passage to DORMANT. -/

namespace Sys2Proof.Machine

/-- A room enters IN_SESSION from DORMANT or ARMED (R32 (1) to (4)): the conditions and the timer go, SESSION_STATE is
raised, the channels are made and the maps queued, the seats leave NO_SESSION and priority is taken up, and the listen
feeds are recomputed. Promotion is run last (R105). -/
def State.enterSession (s : State) (a : Nat) (cause : SessionCause) (waker : Option Waker) : State :=
  match s.room a with
  | none => s
  | some r =>
    let t := s.modRoom a (fun r => { r with session := .inSession, wake := Wake.empty, timer := none })
    let u := t.note (.sessionState a r.session .inSession cause waker none)
    let v := (u.makeChannels (r.profile.languages.map (fun c => ⟨a, c⟩))).queueMaps r.segments
    let w := v.reformAll (v.presentIn r.segments)
    let holding := w.chairsHolding r.segments
    let x := if holding = [] then w else w.activate a holding
    (x.boothWork a).promote a

/-- A wake condition of a room's set occurs (R30): an ARMED room that holds the condition enters IN_SESSION. -/
def State.wake (s : State) (a : Nat) (holds : Wake → Bool) (cause : SessionCause) (waker : Option Waker) : State :=
  match s.room a with
  | none => s
  | some r => if r.session = .armed && holds r.wake then s.enterSession a cause waker else s

/-- An ENDING room becomes DORMANT (R35): SESSION_STATE of cause LAST_CLOSED, the channels removed by R38, the maps
queued, the rotation pointer none, the seats at NO_SESSION, and the listen feeds recomputed. -/
def State.passToDormant (s : State) (a : Nat) : State :=
  match s.room a with
  | none => s
  | some r =>
    let t := s.modRoom a (fun r => { r with session := .dormant, wake := Wake.empty, timer := none })
    let u := t.note (.sessionState a r.session .dormant .lastClosed none none)
    let v := (u.removeChannels (r.profile.languages.map (fun c => ⟨a, c⟩))).queueMaps r.segments
    let w := v.modRoom a (fun r => { r with rotation := none })
    (w.reformAll (w.presentIn r.segments)).boothWork a

/-- A room that is ENDING with an empty live list goes on to DORMANT (R34 (6), R35, R54). -/
def State.passIfEmpty (s : State) (a : Nat) : State :=
  match s.room a with
  | none => s
  | some r => if r.session = .ending && r.live = [] then s.passToDormant a else s

/-- The same for the room of a seat (R94, R96). -/
def State.passSeatRoom (s : State) (n : Nat) : State :=
  match s.seatAnchor n with
  | none => s
  | some a => s.passIfEmpty a

/-- Every seat of a room in OPENING or LIVE goes to CLOSING with cause SESSION_END, in live-list order (R34 (4)). -/
def State.closeSession (s : State) (a : Nat) : State :=
  match s.room a with
  | none => s
  | some r => (r.live.filter (fun n => (s.seat n).mic.onFloor)).foldl (fun t n => t.enterClosing n .sessionEnd) s

/-- SESSION_END in an IN_SESSION room (R34 (1) to (6)). The owning consoles are taken in ascending address (log 16). -/
def State.endSession (s : State) (a : Nat) : State :=
  match s.room a with
  | none => s
  | some r =>
    let t := (s.modRoom a (fun r => { r with session := .ending })).note
      (.sessionState a r.session .ending .sessionEnd none none)
    let u := t.emptyQueue a .sessionEnd
    let v := if r.priority then u.endPriority a else u
    let w := v.closeSession a
    let x := (w.ownersIn a).foldl (fun y c => y.release c .sessionEnd none) w
    (x.boothWork a).passIfEmpty a

end Sys2Proof.Machine
end

