-- ==== Sys2Proof/Machine/Presses.lean ====
section
/-! DEFINITION. What the units' answers bring to the floor unit and the booth unit (chapters 5 and 7): presses,
acknowledgements, held states, and the coming and going of a unit. -/

namespace Sys2Proof.Machine

/-! ## Presses of MIC -/

/-- A press on a delegate in IDLE in an IN_SESSION room (R90). -/
def State.pressIdleDelegate (s : State) (n a : Nat) (r : Room) : State :=
  if s.blocked n then s.refusePress n .blocked
  else
    let join := if s.queueFull r then s.refusePress n .queueFull else (s.joinQueue n .press).promote a
    match r.profile.floorMode with
    | .openFloor =>
      match s.openTest n with
      | none => s.enterOpening n .press none
      | some f =>
        match r.profile.overflow with
        | .queue => join
        | .refuse => s.refusePress n f.refused
    | _ => join

/-- A press on a delegate in an IN_SESSION room (R90 to R92). -/
def State.pressDelegate (s : State) (n a : Nat) (r : Room) : State :=
  match (s.seat n).mic with
  | .idle => s.pressIdleDelegate n a r
  | .queued => if r.profile.mayCancel then s.withdraw n .press else s
  | .opening | .live => if r.profile.mayClose then (s.enterClosing n .press).promote a else s
  | _ => s

/-- A press on a chair in an IN_SESSION room (R100). -/
def State.pressChair (s : State) (n a : Nat) : State :=
  match (s.seat n).mic with
  | .idle => s.openChair n .press
  | .opening | .live => (s.enterClosing n .press).promote a
  | _ => s

/-- A press that reaches a seat in CLOSING or HOLD_OFF toggles its pending press, in every session state (R92). -/
def State.togglePending (s : State) (n : Nat) : State :=
  s.setSeat n { s.seat n with pendingPress := !(s.seat n).pendingPress }

/-- A press handled in session: by R90 to R92 for a delegate, by R100 for a chair; ignored in a room that is not
IN_SESSION (R33), but for the toggling of R92. -/
def State.handlePress (s : State) (n : Nat) : State :=
  if (s.seat n).mic = .closing || (s.seat n).mic = .holdOff then s.togglePending n
  else
    match s.seatAnchor n with
    | none => s
    | some a =>
      match s.room a with
      | none => s
      | some r =>
        if r.session = .inSession then
          match (s.seat n).cls with
          | .delegate => s.pressDelegate n a r
          | .chair => s.pressChair n a
        else s

/-- A MIC press reported by a unit (R30, R33): it may wake the seat's ARMED room, and is then handled. -/
def State.micPress (s : State) (n : Nat) : State :=
  match s.seatAnchor n with
  | none => s.handlePress n
  | some a =>
    match (s.seat n).cls with
    | .delegate => (s.wake a Wake.delegatePress .delegatePress (some (.seat n))).handlePress n
    | .chair => (s.wake a Wake.chairPress .chairPress (some (.seat n))).handlePress n

/-! ## Acknowledgements of a seat -/

/-- An ACK of OPEN reaches a seat (R93). -/
def State.seatOpened (s : State) (n : Nat) : State :=
  let x := s.seat n
  if x.mic = .opening then
    let muted := match s.seatRoom n with
      | none => false
      | some r => x.cls = .delegate && r.priority && r.profile.action = .muteAll
    let t := s.setSeat n { x with
      mic := .live, liveNumber := some s.floor.liveCount, clock := some { seconds := 0, blocks := 0 }, warned := false,
      limitReported := false, muted := muted, secondDue := false }
    (((t.countLive.noteMic n .opening .opened).reseat n).raiseSeat .micOpened n).settleCounts
  else s

/-- An ACK of CLOSE reaches a seat (R94). -/
def State.seatClosed (s : State) (n : Nat) : State :=
  let x := s.seat n
  if x.mic = .closing then
    let t := s.setSeat n { x with mic := .holdOff, slot := none, openingNumber := none, holdOff := some 0, holdOffDue := false }
    let u := t.modSeatRoom n (fun r => { r with live := r.live.filter (· ≠ n) })
    let v := (((u.noteMic n .closing .closed).reseat n).raiseSeat .micClosed n).settleCounts
    (v.passSeatRoom n).promoteAfterSlot n
  else s

/-! ## PRIORITY (R101, R104) -/

/-- Priority ends in a room where no chair holds PRIORITY any longer, and promotion runs (R104). -/
def State.priorityReleased (s : State) (a : Nat) : State :=
  match s.room a with
  | none => s
  | some r =>
    if r.priority && s.chairsHolding r.segments = [] then (s.endPriority a).promote a else s

/-- A change of a chair's held state is handed on (R101, R104). A change to HELD in an ARMED room may wake it (R30), and
the entry into IN_SESSION then takes it up (R32 (3)). -/
def State.chairHeld (s : State) (n : Nat) (held : Bool) : State :=
  match s.seatAnchor n with
  | none => s
  | some a =>
    if held then
      match s.session a with
      | some .inSession => s.activate a [n]
      | some .armed => s.wake a Wake.chairPress .chairPress (some (.seat n))
      | _ => s
    else s.priorityReleased a

/-! ## The unit of a seat comes and goes -/

/-- The unit of a seat has become PRESENT (R76 (2), R96). -/
def State.seatFound (s : State) (n : Nat) : State :=
  if (s.seat n).mic = .absent then
    ((s.setSeat n { s.seat n with mic := .idle }).noteMic n .absent .unitFound).reseat n
  else s

/-- The unit of a seat has become ABSENT (R77 (5), R96). `returned` says that its upstream slot went back to the pool, and
only then does promotion run in the other rooms as well (R105). The occurrence UNIT_LOST is added after the MIC_STATE
notice (log 15). -/
def State.seatLost (s : State) (n : Nat) (returned : Bool) : State :=
  let old := (s.seat n).mic
  let t := if old = .queued then s.unqueue n else s
  let u := t.setSeat n { t.seat n with
    mic := .absent, slot := none, openingNumber := none, liveNumber := none, stamp := none, clock := none, grant := none,
    warned := false, limitReported := false, muted := false, pendingPress := false, holdOff := none,
    holdOffDue := false, secondDue := false }
  let v := u.modSeatRoom n (fun r => { r with live := r.live.filter (· ≠ n) })
  let w := (((v.noteMic n old .unitLost).reseat n).raiseSeat .unitLost n).settleCounts
  if returned then (w.passSeatRoom n).promoteAfterSlot n else (w.passSeatRoom n).promoteSeat n

/-! ## Consoles -/

/-- A console in READY takes a free channel (R134 (3)). -/
def State.takeChannel (s : State) (c : Nat) (key : Key) : State :=
  (s.moveConsole c .cueing (some key)).noteConsole c .ready .press none

/-- An ON-AIR press on a console in READY (R134, R135). -/
def State.pressReady (s : State) (c : Nat) : State :=
  match s.boothRoom (consoleBooth c) with
  | none => s.noteConsole c .ready .languageNotSet none
  | some r =>
    let code := (s.boothAt (consoleBooth c)).language
    if r.session ≠ .inSession then s.noteConsole c .ready .languageNotSet none
    else if !(r.profile.languages.contains code) then s.noteConsole c .ready .languageNotSet none
    else
      match s.ownerOf ⟨r.anchor, code⟩ with
      | none => s.takeChannel c ⟨r.anchor, code⟩
      | some o =>
        match r.profile.contention with
        | .interlock => s.noteConsole c .ready .channelBusy none
        | .takeover =>
          let t := (s.release o .takeover (some c)).takeChannel c ⟨r.anchor, code⟩
          (t.raiseBooth .boothTakeover (consoleBooth c)).settleCounts

/-- An ON-AIR press reaches a console (R134 to R136), with the work of R137. -/
def State.handleOnAir (s : State) (c : Nat) : State :=
  match (s.console c).state with
  | .ready => (s.pressReady c).consoleWork c
  | .cueing | .onAir => (s.release c .press none).consoleWork c
  | _ => s

/-- An ON-AIR press reported by a unit (R30, R134). -/
def State.onAirPress (s : State) (c : Nat) : State :=
  match s.boothAnchor (consoleBooth c) with
  | none => s.handleOnAir c
  | some a => (s.wake a Wake.consolePress .consolePress (some (.console c))).handleOnAir c

/-- An ACK of OPEN reaches a console (R137 (1)). -/
def State.consoleOpened (s : State) (c : Nat) : State :=
  if (s.console c).state = .cueing then
    ((s.moveConsole c .onAir (s.console c).owned).noteConsole c .cueing .opened none).consoleWork c
  else s

/-- An ACK of CLOSE reaches a console (R137 (2)). -/
def State.consoleClosed (s : State) (c : Nat) : State :=
  if (s.console c).state = .releasing then
    ((s.moveConsole c .ready (s.console c).owned).noteConsole c .releasing .closed none).consoleWork c
  else s

/-- A change of a console's held state is handed on (R142). -/
def State.coughHeld (s : State) (c : Nat) (held : Bool) : State :=
  let t := s.setConsole c { s.console c with cough := held }
  if (s.console c).owned.isSome then t.noteConsole c (s.console c).state .cough none else t

/-- The unit of a console has become PRESENT (R138 (2)). -/
def State.consoleFound (s : State) (c : Nat) : State :=
  if (s.console c).state = .absent then
    ((s.moveConsole c .ready none).noteConsole c .absent .unitFound none).consoleWork c
  else s

/-- The unit of a console has become ABSENT (R138 (1)). -/
def State.consoleLost (s : State) (c : Nat) : State :=
  let old := (s.console c).state
  let t := (s.moveConsole c .absent none).noteConsole c old .unitLost none
  ((t.raiseBooth .unitLost (consoleBooth c)).settleCounts).consoleWork c

/-! ## What an answer hands on (R67) -/

/-- An acknowledgement is handed on (R67 (1)). -/
def State.acknowledge (s : State) (i a : Nat) (of : AckOf) : State :=
  match of with
  | .ofOpen => if i < 4 then s.seatOpened (seatAt i a) else s.consoleOpened a
  | .ofClose => if i < 4 then s.seatClosed (seatAt i a) else s.consoleClosed a

/-- Presses are handed on one after another, each carried out whole (R67 (2)). -/
def State.presses (s : State) (i a : Nat) : Nat → State
  | 0 => s
  | n + 1 => State.presses (if i < 4 then s.micPress (seatAt i a) else s.onAirPress a) i a n

/-- A change of held state is handed on (R67 (3), R68 (4)): for a console, and for a seat installed as a chair. The class that a
unit of such a seat reports does not matter, CONSOLE included: DESIGN CHOICE (log 55). -/
def State.heldChanged (s : State) (i a : Nat) (held : Bool) : State :=
  if i < 4 then
    match (s.seat (seatAt i a)).cls with
    | .chair => s.chairHeld (seatAt i a) held
    | .delegate => s
  else s.coughHeld a held

/-- A held state that differs from the recorded one is recorded and handed on (R67 (3)). -/
def State.recordHeld (s : State) (i a : Nat) (held : Bool) : State :=
  if (s.unit i a).held = held then s else (s.setUnit i a { s.unit i a with held := held }).heldChanged i a held

end Sys2Proof.Machine
end

