-- ==== Sys2Proof/Machine/Topology.lean ====
section
/-! DEFINITION. Partition changes, merges and splits (chapters 1 and 3): the groups of joined segments, the steps of R39 to
R49 and of R50 to R57, and the notices around them. -/

namespace Sys2Proof.Machine

/-! ## Rooms from walls (R11) -/

/-- An installed partition with effective state OPEN joins these two segments. -/
def State.joined (s : State) (j k : Nat) : Bool :=
  s.hall.partitions.any (fun x => x.2.installed && x.2.effective = .opened &&
    ((x.2.a = j && x.2.b = k) || (x.2.a = k && x.2.b = j)))

/-- The segments of `among` that one more open partition joins to `group`, with the group itself, ascending. -/
def State.grow (s : State) (among group : List Nat) : List Nat :=
  among.filter (fun k => group.contains k || group.any (fun j => s.joined j k))

/-- The segments of `among` that a chain of open partitions joins to segment `k` (R11). Twelve segments need at most
eleven steps. -/
def State.groupOf (s : State) (among : List Nat) (k : Nat) : List Nat :=
  (List.range 12).foldl (fun g _ => s.grow among g) (among.filter (· = k))

/-- The installed segments, ascending. -/
def State.installedSegments (s : State) : List Nat := segmentNumbers.filter (fun k => (s.segment k).installed)

/-! ## Levels at a change of ceiling (R39, R51, R170) -/

/-- A room's ceiling becomes `c` (R39, R51, R170 (2), (3)): an effective level above it drops to it at once, and a level
that then differs from the new target ramps toward it. Otherwise the ramp state is left as it was. The target after a drop is the
lower of request and ceiling by R168 and R39 (2), also where the request lies below `c` and R170 (2) calls the target `c`: DESIGN
CHOICE (log 56). -/
def Room.withCeiling (r : Room) (c : Int) : Room :=
  let level := min r.level c
  { r with ceiling := c, level := level, ramp := if level = min r.profile.level c then r.ramp else .ramping }

/-! ## The merge (R39 to R49) -/

/-- The rank of a session state in a merge, highest first (R41). -/
def Session.rank : Session → Nat
  | .inSession => 3
  | .ending => 2
  | .armed => 1
  | .dormant => 0

/-- The higher of two session states (R41). -/
def Session.higher (x y : Session) : Session := if x.rank < y.rank then y else x

/-- The union of two sets of wake conditions (R41 (1)). -/
def Wake.union (x y : Wake) : Wake :=
  { chairPress := x.chairPress || y.chairPress, delegatePress := x.delegatePress || y.delegatePress,
    consolePress := x.consolePress || y.consolePress, timer := x.timer || y.timer }

/-- The blocks remaining of a room timer (R41 (1)). -/
def RoomTimer.left (t : RoomTimer) : Int := (t.seconds : Int) * 1000 - t.blocks

/-- The timer that a merged ARMED room keeps (R41 (1)). -/
def shorterTimer : Option RoomTimer → Option RoomTimer → Option RoomTimer
  | none, y => y
  | x, none => x
  | some x, some y => if y.left < x.left then some y else some x

/-- The opening number of a seat, for the order of a joined live list (R43). -/
def State.openingOf (s : State) (n : Nat) : Nat := ((s.seat n).openingNumber).getD 0

/-- Two lists in ascending order of `f`, joined in ascending order (R43, R44). -/
def mergeBy {α : Type} (f : α → Nat) : List α → List α → List α
  | [], ys => ys
  | x :: xs, ys => ys.takeWhile (fun y => f y < f x) ++ x :: mergeBy f xs (ys.dropWhile (fun y => f y < f x))

/-- The merged language set and the cut codes (R46). -/
def mergedLanguages (p q : List Nat) : List Nat × List Nat :=
  let all := p ++ q.filter (fun c => !(p.contains c))
  (all.take 8, all.drop 8)

/-- Steps 1 to 4 of a merge in one record (R39, R40, R41, R43, R44, R45, R46): the merged room keeps P's anchor, profile,
level, ramp and rotation pointer, and the 32 earliest entries of both queues. The ceiling acts by `Room.withCeiling`; the
drops of the entries cut and the priority action are steps of their own. -/
def mergedRoom (s : State) (p q : Room) : Room :=
  let state := p.session.higher q.session
  let segments := segmentNumbers.filter (fun k => p.segments.contains k || q.segments.contains k)
  Room.withCeiling { p with
    segments := segments
    session := state
    profile := { p.profile with languages := (mergedLanguages p.profile.languages q.profile.languages).1 }
    wake := if state = .armed then p.wake.union q.wake else Wake.empty
    timer := if state = .armed then shorterTimer p.timer q.timer else none
    live := mergeBy s.openingOf p.live q.live
    queue := (mergeBy Entry.stamp p.queue q.queue).take Config.queueLimit
    priority := p.priority || q.priority } (s.ceilingOf segments)

/-- Step 3's notices (R41): one for P and one for Q where the state differs, P's first. -/
def State.noteMergeStates (s : State) (p q : Room) : State :=
  let state := p.session.higher q.session
  let t := if p.session = state then s else s.note (.sessionState p.anchor p.session state .merge none none)
  if q.session = state then t else t.note (.sessionState p.anchor q.session state .merge none (some q.anchor))

/-- The entries of two queues beyond the 32 earliest stamps, in ascending stamp order (R44 (2)). -/
def cutEntries (p q : Room) : List Entry := (mergeBy Entry.stamp p.queue q.queue).drop Config.queueLimit

/-- Step 5 (R44): the entries cut are dropped in turn. -/
def State.trimQueue (s : State) (cut : List Entry) : State :=
  cut.foldl (fun t e => t.dropNow e.seat .mergeOverflow) s

/-- Step 7 (R47): kept and re-keyed channels, removed channels, channels made afresh. `s0` is the state before the merge's
channel work, in which P's and Q's channels are read. -/
def State.mergeChannels (s : State) (p q : Room) (codes cut : List Nat) : State :=
  let has := fun (r : Room) (c : Nat) => s.hasChannel ⟨r.anchor, c⟩
  let t := (codes.filter (fun c => !(has p c) && has q c)).foldl
    (fun t c => t.rekey ⟨q.anchor, c⟩ ⟨p.anchor, c⟩) s
  let gone := q.profile.languages.filter (fun c => has q c && (has p c || cut.contains c))
  let u := t.removeChannels (gone.map (fun c => ⟨q.anchor, c⟩))
  u.makeChannels ((codes.filter (fun c => !(has p c) && !(has q c))).map (fun c => ⟨p.anchor, c⟩))

/-- An owner keeps its re-keyed channel, in its state (R48 (2), R56 (2)). The new key is of a channel that had no owner. -/
def State.rekeyOwner (s : State) (c : Nat) (key : Key) : State :=
  match s.ownerOf key with
  | none => s.setConsole c { s.console c with owned := some key }
  | some _ => s

/-- Step 8 (R48): Q-side owners of a language that P has are displaced, owners of re-keyed channels move, owners of cut
codes are displaced. `kept` are the codes whose channel P held before the merge. -/
def State.mergeOwners (s : State) (p q : Room) (codes cut kept : List Nat) : State :=
  let t := (codes.filter kept.contains).foldl (fun t c =>
    match t.ownerOf ⟨q.anchor, c⟩ with
    | none => t
    | some o => t.displace o .sameLanguage p.anchor ⟨q.anchor, c⟩) s
  let u := (codes.filter (fun c => !(kept.contains c))).foldl (fun t c =>
    match t.ownerOf ⟨q.anchor, c⟩ with
    | none => t
    | some o => t.rekeyOwner o ⟨p.anchor, c⟩) t
  (q.profile.languages.filter cut.contains).foldl (fun t c =>
    match t.ownerOf ⟨q.anchor, c⟩ with
    | none => t
    | some o => t.displace o .languageDropped p.anchor ⟨q.anchor, c⟩) u

/-- The occurrences of a procedure are held back from here (R190 (1)). -/
def State.holdCounts (s : State) : State := { s with counts := { s.counts with deferring := true } }

/-- The end of a procedure: the occurrences held back are added (R190 (1)). -/
def State.releaseCounts (s : State) : State :=
  State.settleCounts { s with counts := { s.counts with deferring := false } }

/-- A side that was out of session holds a chair that holds PRIORITY (R45 (3)). -/
def State.bringsPriority (s : State) (r : Room) : Bool :=
  r.session ≠ .inSession && s.chairsHolding r.segments ≠ []

/-- The present seats of a side whose session state differs from the merged one (R42). -/
def State.turnedSeats (s : State) (side merged : Room) : List Nat :=
  if side.session = merged.session then [] else s.presentIn side.segments

/-- Steps 1 to 4 (R39 to R43, R45 (2)): the room table and the segment map, the maps, the notices of step 3, and the
indications of the side that the merged state differs from. -/
def State.mergeRooms (s : State) (p q m : Room) : State :=
  let t := (s.holdCounts.setRoom q.anchor none).setRoom p.anchor (some m)
  let u := (q.segments.foldl (fun v k => v.setAnchor k (some p.anchor)) t).keepAnchors.queueMaps m.segments
  (u.noteMergeStates p q).reformAll (u.turnedSeats p m ++ u.turnedSeats q m)

/-- Steps 5 and 6 (R44, R45 (1)): the queue is cut, and the delegates are muted under an active MUTE_ALL, in live-list order (DESIGN
CHOICE, log 47). -/
def State.mergeFloor (s : State) (a : Nat) (m : Room) (cut : List Entry) : State :=
  if m.priority && m.profile.action = .muteAll then (s.trimQueue cut).muteAll a else s.trimQueue cut

/-- Steps 7 and 8 (R46 to R48), in a merged room that has channels. `kept` are the codes whose channel P held. -/
def State.mergeLanguages (s : State) (p q m : Room) (kept : List Nat) : State :=
  let cut := (mergedLanguages p.profile.languages q.profile.languages).2
  if m.session.hasChannels then
    (s.mergeChannels p q m.profile.languages cut).mergeOwners p q m.profile.languages cut kept
  else s

/-- Step 9 (R49), and the end of the procedure (R190 (1)). -/
def State.mergeEnd (s : State) (a : Nat) (m : Room) : State :=
  (((s.queueMaps m.segments).boothWork a).promote a).releaseCounts

/-- The priority that a side brings into session (R45 (3)). -/
def State.mergePriority (s : State) (a : Nat) (p q m : Room) : State :=
  if !p.priority && !q.priority && m.session = .inSession && (s.bringsPriority p || s.bringsPriority q) then
    s.activate a (s.chairsHolding m.segments)
  else s

/-- The merge of P and Q into the room `m` (R39 to R49), then the priority of R45 (3). -/
def State.mergeInto (s : State) (p q m : Room) : State :=
  ((((s.mergeRooms p q m).mergeFloor p.anchor m (cutEntries p q)).mergeLanguages p q m
    (p.profile.languages.filter (fun c => s.hasChannel ⟨p.anchor, c⟩))).mergeEnd p.anchor m).mergePriority p.anchor p q m

/-- The merge of the rooms with anchors `a` and `b`, `a` below `b` (R15 (1)). -/
def State.merge (s : State) (a b : Nat) : State :=
  match s.room a, s.room b with
  | some p, some q => s.mergeInto p q (mergedRoom s p q)
  | _, _ => s

/-! ## The split (R50 to R57) -/

/-- A half of a split room (R50 to R52): R's context over the half's segments, with its seats and entries. -/
def halfRoom (s : State) (r : Room) (anchor : Nat) (segments : List Nat) : Room :=
  Room.withCeiling { r with
    anchor := anchor
    segments := segments
    live := r.live.filter (fun n => segments.contains (s.seat n).segment)
    queue := r.queue.filter (fun e => segments.contains (s.seat e.seat).segment) } (s.ceilingOf segments)

/-- Step 4 for one half (R53): priority that no chair of the half holds ends, without the promotion of R104, which step 8
runs. -/
def State.splitPriority (s : State) (a : Nat) : State :=
  match s.room a with
  | none => s
  | some r => if r.priority && s.chairsHolding r.segments = [] then s.endPriority a else s

/-- Step 7 (R56): owning consoles of K's booths move to K's channels, in ascending booth number. -/
def State.splitOwners (s : State) (a c : Nat) (segments : List Nat) : State :=
  (s.consolesIn segments).foldl (fun t o =>
    match (t.console o).owned with
    | none => t
    | some key =>
      if key.anchor = a then
        (t.rekeyOwner o ⟨c, key.code⟩).noteConsole o (t.console o).state .split none
      else t) s

/-- Steps 1 to 3 (R50 to R52): the two contexts, the segment map, the anchor set, the maps and the notice for K. -/
def State.splitRooms (s : State) (r : Room) (c : Nat) (keep go : List Nat) : State :=
  let t := (s.holdCounts.setRoom r.anchor (some (halfRoom s r r.anchor keep))).setRoom c (some (halfRoom s r c go))
  ((go.foldl (fun v k => v.setAnchor k (some c)) t).keepAnchors.queueMaps r.segments).note
    (.sessionState c r.session r.session .split none none)

/-- Step 6 (R55): K's channels are made, if it has any. -/
def State.splitChannels (s : State) (c : Nat) : State :=
  match s.room c with
  | none => s
  | some k => s.makeChannels k.channelKeys

/-- Step 8 (R57), and the end of the procedure (R190 (1)). -/
def State.splitEnd (s : State) (a c : Nat) (segments : List Nat) : State :=
  (((((s.queueMaps segments).relistenIn segments).reconsoleIn segments).promote a).promote c).releaseCounts

/-- The split of a room into the half over `keep`, which keeps its anchor, and the half over `go`, with anchor `c` (R50 to
R57). Steps 4 and 5 are priority and an ENDING half with an empty live list (R53, R54), step 7 the owners (R56). -/
def State.splitInto (s : State) (r : Room) (c : Nat) (keep go : List Nat) : State :=
  let t := ((((s.splitRooms r c keep go).splitPriority r.anchor).splitPriority c).passIfEmpty r.anchor).passIfEmpty c
  ((t.splitChannels c).splitOwners r.anchor c go).splitEnd r.anchor c r.segments

/-- The split of the room with anchor `a` (R16 (2)). -/
def State.split (s : State) (a c : Nat) (keep go : List Nat) : State :=
  match s.room a with
  | none => s
  | some r => s.splitInto r c keep go

/-! ## Partition changes (R8, R9, R15 to R17) -/

/-- The lowest number of an ascending list, 0 for none. -/
def lowest (ks : List Nat) : Nat := ks.headD 0

/-- A change of effective state of an installed partition in RUN (R15 to R17): TOPOLOGY_CHANGED, then a merge, a split or
nothing. -/
def State.partitionChanged (s : State) (p : Nat) : State :=
  let x := s.partition p
  match x.effective with
  | .opened =>
    match s.anchorOf x.a, s.anchorOf x.b with
    | some i, some j =>
      if i = j then s.note (.topologyChanged p .opened (.none (some i)))
      else (s.note (.topologyChanged p .opened (.merge (min i j) (max i j)))).merge (min i j) (max i j)
    | _, _ => s.note (.topologyChanged p .opened (.none none))
  | .closed =>
    match s.anchorOf x.a with
    | none => s.note (.topologyChanged p .closed (.none none))
    | some a =>
      match s.room a with
      | none => s.note (.topologyChanged p .closed (.none none))
      | some r =>
        let keep := s.groupOf r.segments a
        let go := r.segments.filter (fun k => !(keep.contains k))
        if go = [] then s.note (.topologyChanged p .closed (.none (some a)))
        else (s.note (.topologyChanged p .closed (.split a (lowest go)))).split a (lowest go) keep go

/-- The effective state and the mismatch flag of a partition are derived again (R8, R9): the mismatch or agreement notice
first, and in RUN the partition change of section 1.6 after it. -/
def State.rederive (s : State) (p : Nat) : State :=
  let x := s.partition p
  let y := { x with effective := effectiveOf x, mismatch := mismatchOf x }
  let t := s.setPartition p y
  let u :=
    if x.mismatch = y.mismatch then t
    else if y.mismatch then t.note (.partitionMismatch p y.declared y.sensed y.effective)
    else t.note (.partitionAgreed p y.declared y.sensed y.effective)
  if x.effective ≠ y.effective && s.link.phase = .run && x.installed then u.partitionChanged p else u

/-- The stable level of a sense input becomes its candidate level, which is the settling event (R6 (4), R7). -/
def State.settle (s : State) (p : Nat) : State :=
  let x := s.settling p
  let t := s.setSettling p { x with stable := x.candidate }
  let u := t.setPartition p { t.partition p with sensed := sensedOf x.candidate }
  if (u.partition p).installed && (u.partition p).fitted then u.rederive p else u

end Sys2Proof.Machine
end

