-- ==== Sys2Proof/Machine/Buses.lean ====
section
/-! DEFINITION. The bus controllers (chapter 4): the window arbiter and the choice of the command (R70 to R72), answered
and missed exchanges (R73, R74), presence (R75 to R77), and the characters of a turn (R64, 11.6.5). -/

namespace Sys2Proof.Machine

/-! ## What an exchange carries -/

/-- The indication that a command carries: the one the unit is to show. A PRESENT unit has one (R109, R133). -/
def State.indicationFor (s : State) (i a : Nat) : Indication := (s.shown i a).getD .noSession

/-- The segment that ASSIGN carries (R65): the seat's, or the home segment of the console's booth. -/
def State.unitSegment (s : State) (i a : Nat) : Nat :=
  if i < 4 then (s.seat (seatAt i a)).segment else (s.boothAt (consoleBooth a)).home

/-- The upstream slot that OPEN carries (R65, R63): the seat's, or the console's fixed slot. -/
def State.unitSlot (s : State) (i a : Nat) : Nat :=
  if i < 4 then ((s.seat (seatAt i a)).slot).getD 0 else a - 1

/-- The seat is OPENING or the console CUEING (R70). -/
def State.wantsOpen (s : State) (i a : Nat) : Bool :=
  if i < 4 then (s.seat (seatAt i a)).mic = .opening else (s.console a).state = .cueing

/-- The seat is CLOSING or the console RELEASING (R70). -/
def State.wantsClose (s : State) (i a : Nat) : Bool :=
  if i < 4 then (s.seat (seatAt i a)).mic = .closing else (s.console a).state = .releasing

/-- The command for a seat item (R70): the first line of the table that applies. -/
def State.commandFor (s : State) (i a : Nat) : Command :=
  if !(s.unit i a).assigned then .assign (s.unitSegment i a) (s.indicationFor i a)
  else if s.wantsOpen i a then .open_ (s.unitSlot i a)
  else if s.wantsClose i a then .close
  else .indicate (s.indicationFor i a)

/-- The contents of the channel map of a segment (R78), read when its exchange begins. -/
def State.mapContents (s : State) (k : Nat) : Command :=
  match s.roomOf k with
  | none => .channelMap k 0 []
  | some r =>
    .channelMap k (r.anchor - 1)
      (r.channelKeys.map (fun key => (key.code, match s.service key with
        | .served slot => some slot
        | _ => none)))

/-- The next address of the poll round (R72): the lowest installed above the pointer, else the lowest installed. -/
def State.nextPoll (s : State) (i : Nat) : Option Nat :=
  let all := s.addresses i
  match (s.bus i).pointer with
  | none => all.head?
  | some p =>
    match all.find? (p < ·) with
    | some a => some a
    | none => all.head?

/-! ## An exchange begins (R70 to R72) -/

/-- The bus carries this exchange; the window counts it. -/
def State.carry (s : State) (i : Nat) (x : Option Exchange) : State :=
  s.setBus i { s.bus i with exchange := x, begun := (s.bus i).begun + 1 }

/-- The exchange polls (R72): the pointer becomes the address polled. With no installed unit it carries nothing. -/
def State.poll (s : State) (i : Nat) : State :=
  match s.nextPoll i with
  | none => s.carry i none
  | some a =>
    let t := s.carry i (some { address := a, command := .poll, awaiting := true })
    t.setBus i { t.bus i with pointer := some a }

/-- PRESENT units of segment `k` on this bus that are not assigned are owed its map (R68 (2)). -/
def State.oweMaps (s : State) (i k : Nat) : State :=
  (s.addresses i).foldl (fun t a =>
    if (t.unit i a).presence = .present && !(t.unit i a).assigned && t.unitSegment i a = k then
      t.setUnit i a { t.unit i a with mapOwed := true }
    else t) s

/-- The exchange serves an item, which leaves the queue (R69, R70, R78). -/
def State.serve (s : State) (i : Nat) (it : Item) : State :=
  let t := s.leave i it
  match it with
  | .unit a => t.carry i (some { address := a, command := t.commandFor i a, awaiting := true })
  | .map k => (t.oweMaps i k).carry i (some { address := 0, command := t.mapContents k, awaiting := false })

/-- The item that exchanges 1 to 3 serve (R71): the first of the queue that was not missed in this window. -/
def Bus.nextItem (b : Bus) : Option Item := b.queue.find? (fun it => !(b.missed.contains it))

/-- The arbiter hands out the next exchange of the window in RUN (R71): exchange 4 always polls. -/
def State.arbitrate (s : State) (i : Nat) : State :=
  if Config.exchangesPerWindow ≤ (s.bus i).begun then s
  else if (s.bus i).begun + 1 = Config.exchangesPerWindow then s.poll i
  else
    match (s.bus i).nextItem with
    | none => s.poll i
    | some it => s.serve i it

/-! ## Presence (R75 to R77) -/

/-- A unit becomes PRESENT at an answer (R75, R76). -/
def State.becomePresent (s : State) (i a : Nat) (cls : UnitClass) : State :=
  let old := (s.unit i a).presence
  let t := s.setUnit i a { s.unit i a with
    presence := .present, misses := 0, assigned := false, mapOwed := false, told := none, reported := some cls }
  let u := t.note (.unitPresence i a old .present (some cls))
  let v := if i < 4 then u.seatFound (seatAt i a) else u.consoleFound a
  let w := v.check i a
  if i < 4 then w.join i (.map (w.seat (seatAt i a)).segment) else w

/-- A unit becomes ABSENT at its third consecutive miss (R75, R77). From UNKNOWN the notice is all. -/
def State.becomeAbsent (s : State) (i a : Nat) : State :=
  let x := s.unit i a
  let t := (s.leave i (.unit a)).setUnit i a { x with
    presence := .absent, assigned := false, mapOwed := false, told := none }
  let u := t.note (.unitPresence i a x.presence .absent none)
  if x.presence = .present then
    let v := if i < 4 then u.setSeat (seatAt i a) { u.seat (seatAt i a) with slot := none } else u
    let w := v.recordHeld i a false
    if i < 4 then w.seatLost (seatAt i a) (s.seat (seatAt i a)).slot.isSome else w.consoleLost a
  else u

/-! ## Answered and missed exchanges (R73, R74) -/

/-- The answered command updates the unit record (R68 (1) to (3)): a STATUS to ASSIGN or INDICATE. An owed map falls due
when ASSIGN is answered (R76). -/
def State.applyStatus (s : State) (i a : Nat) (command : Command) : State :=
  let x := s.unit i a
  match command with
  | .assign k ind =>
    let t := s.setUnit i a { x with assigned := true, told := some ind, mapOwed := false }
    if i < 4 && x.mapOwed then t.join i (.map k) else t
  | .indicate ind => s.setUnit i a { x with told := some ind }
  | _ => s

/-- The answer awaited on a bus, if any. -/
def State.awaited (s : State) (i : Nat) : Option Exchange :=
  match (s.bus i).exchange with
  | none => none
  | some x => if x.awaiting then some x else none

/-- The exchange of a bus is over. -/
def State.endExchange (s : State) (i : Nat) : State :=
  match (s.bus i).exchange with
  | none => s
  | some x => s.setBus i { s.bus i with exchange := some { x with awaiting := false } }

/-- An exchange is answered (R73): the miss count, the record, then what the answer hands on (R67) and the check of R69.
The answer that makes the unit PRESENT is handed on without its presses (R75). `acked` is none for a STATUS. -/
def State.answered (s : State) (i : Nat) (x : Exchange) (acked : Option AckOf) (presses : Nat) (held : Bool)
    (cls : UnitClass) : State :=
  let a := x.address
  let t := s.endExchange i
  if (t.unit i a).presence = .present then
    let u := t.setUnit i a { t.unit i a with misses := 0, reported := some cls }
    let v := match acked with
      | none => u.applyStatus i a x.command
      | some .ofOpen => match x.command with
        | .open_ _ => u.acknowledge i a .ofOpen
        | _ => u
      | some .ofClose => match x.command with
        | .close => u.acknowledge i a .ofClose
        | _ => u
    ((v.presses i a presses).recordHeld i a held).check i a
  else ((t.becomePresent i a cls).recordHeld i a held).check i a

/-- The item of a missed command goes back to the tail, and is not taken again in this window (R74 (1), R71). A missed POLL
leaves the queue unchanged (R74 (2)). -/
def State.requeueMissed (s : State) (i : Nat) (x : Exchange) : State :=
  match x.command with
  | .poll => s
  | _ =>
    let t := s.join i (.unit x.address)
    t.setBus i { t.bus i with missed := (t.bus i).missed ++ [.unit x.address] }

/-- A unit that is not ABSENT becomes so at its third consecutive miss (R74 (3)). -/
def State.absentIfThird (s : State) (i a : Nat) : State :=
  if (s.unit i a).misses = Config.missesToAbsent && (s.unit i a).presence ≠ .absent then s.becomeAbsent i a else s

/-- The miss count of a unit rises by one, up to 3 (R74). -/
def State.countMiss (s : State) (i a : Nat) : State :=
  s.setUnit i a { s.unit i a with misses := min Config.missesToAbsent ((s.unit i a).misses + 1) }

/-- An exchange is missed (R74). -/
def State.missExchange (s : State) (i : Nat) (x : Exchange) : State :=
  (((s.endExchange i).countMiss i x.address).requeueMissed i x).absentIfThird i x.address

/-- An exchange whose answer has not come when the next begins, or when its window ends, is missed (R64; log 8). -/
def State.lapse (s : State) (i : Nat) : State :=
  match s.awaited i with
  | none => s
  | some x => s.missExchange i x

/-! ## Characters (R64, 11.6.5) -/

/-- The code of an indication (11.6.5). -/
def Indication.code : Indication → Nat
  | .noSession => 0
  | .idle => 1
  | .waiting => 2
  | .speaking => 3
  | .warning => 4
  | .blocked => 5
  | .ready => 6
  | .cueing => 7
  | .onAir => 8
  | .busy => 9

/-- The command code and contents of a command (11.6.5). -/
def Command.bytes : Command → List Byte
  | .poll => [0x01]
  | .assign k ind => [0x02, byteOf k, byteOf ind.code]
  | .open_ slot => [0x03, byteOf slot]
  | .close => [0x04]
  | .indicate ind => [0x05, byteOf ind.code]
  | .channelMap k floor pairs =>
    [0x06, byteOf k, byteOf floor, byteOf pairs.length] ++
      pairs.flatMap (fun p => [byteOf p.1, match p.2 with
        | some slot => byteOf slot
        | none => 0xFF])
  | .off => [0x07]

/-- The check character of a turn (11.6.5): every character of the turn sums to 0 modulo 256. -/
def turnCheck (bytes : List Byte) : Byte := 0 - bytes.foldl (· + ·) 0

/-- A turn passes its check (11.6.5). -/
def turnPasses (bytes : List Byte) : Bool := bytes.foldl (· + ·) 0 = 0

/-- The part's turn of an exchange (R64, 11.6.5): the address character with its marker set, then the command, its
contents and the check character with the marker clear. -/
def Exchange.turn (x : Exchange) : List (Bool × Byte) :=
  let bytes := byteOf x.address :: x.command.bytes
  (true, byteOf x.address) :: (x.command.bytes ++ [turnCheck bytes]).map (fun b => (false, b))

/-- The code of a unit class (11.6.5). -/
def classCode : UnitClass → Byte
  | .delegate => 1
  | .chair => 2
  | .console => 3

/-- The characters of a STATUS answer, check included (11.6.5). -/
def statusBytes (presses : BitVec 2) (held : Bool) (cls : UnitClass) : List Byte :=
  let bytes := [0x10, presses.zeroExtend 8, flagByte held, classCode cls]
  bytes ++ [turnCheck bytes]

/-- The characters of an ACK answer, check included (11.6.5). -/
def ackBytes (acked : AckOf) (presses : BitVec 2) (held : Bool) (cls : UnitClass) : List Byte :=
  let bytes := [0x11, (match acked with
    | .ofOpen => 0x03
    | .ofClose => 0x04), presses.zeroExtend 8, flagByte held, classCode cls]
  bytes ++ [turnCheck bytes]

end Sys2Proof.Machine
end

