-- ==== Sys2Proof/Machine/Link.lean ====
section
/-! DEFINITION. The link controller (chapter 11): the receiver (R193), the input queue (R194), the taking of requests and
their replies (R195, R196, R198). -/

namespace Sys2Proof.Machine

/-! ## Request kinds (R198) -/

/-- The phases in which a request is allowed (R198). -/
inductive Allowed where
  | config | run | both
  deriving DecidableEq, Repr

/-- A phase is one of these. -/
def Allowed.permits : Allowed → Phase → Bool
  | .config, p => p = .config
  | .run, p => p = .run
  | .both, _ => true

/-- A kind names a request (R198): 0x01 to 0x22. -/
def kindNamesRequest (kind : Byte) : Bool := 1 ≤ kind.toNat && kind.toNat ≤ 0x22

/-! ## The receiver (R193, R194) -/

/-- The receiver's state becomes this. -/
def State.setReceiver (s : State) (r : Receiver) : State := { s with link := { s.link with receiver := r } }

/-- A frame in reception is discarded (R193): LINK_ERROR, and the receiver hunts. -/
def State.discard (s : State) (cause : LinkCause) (received : Nat) : State :=
  (s.setReceiver .hunting).note (.linkError cause received)

/-- The reply list has a free place (R195, R196). -/
def LinkUnit.hasPlace (l : LinkUnit) : Bool := l.placesTaken < Config.replyLimit

/-- A request frame completes while the input queue is full (R194, R196): it is answered INPUT_FULL at once, or lost with
LINK_ERROR of cause REPLY_OVERRUN when the reply list has no free place. -/
def State.answerInputFull (s : State) (f : Frame) : State :=
  if s.link.hasPlace then s.reply { kind := f.kind, tag := f.tag, answer := .refuse .inputFull }
  else s.note (.linkError .replyOverrun (Config.overrunBytes f))

/-- A request frame completes (R194): it joins the tail of the input queue, unless the queue holds 8 frames. -/
def State.frameCompletes (s : State) (f : Frame) : State :=
  if s.link.input.length < Config.inputLimit then { s with link := { s.link with input := s.link.input ++ [f] } }
  else s.answerInputFull f

/-- A whole frame arrives with its check passing (R193, R194). A body that no length byte can give is discarded at the
length byte, the second byte of the frame (R193 (1)). -/
def State.frameArrives (s : State) (f : Frame) : State :=
  if 240 < f.body.length then s.discard .length 2 else (s.setReceiver .hunting).frameCompletes f

/-- The frame that the bytes after the start byte hold: length, kind, tag, body (11.6.1). -/
def frameOf (bytes : List Byte) : Frame :=
  { kind := bytes.getD 1 0, tag := bytes.getD 2 0, body := (bytes.drop 3).take ((bytes.getD 0 0).toNat - 2) }

/-- The bytes that the check covers, of the bytes after the start byte (R193). -/
def covered (bytes : List Byte) : List Byte := bytes.take (1 + (bytes.getD 0 0).toNat)

/-- A character is taken in IN_FRAME (R193), after these bytes: discarded, taken as the next byte, or the last. A length byte
out of range with a character error is discarded as CHARACTER: DESIGN CHOICE (log 43), since R193 gives its cases (1) and
(2) no precedence. -/
def State.takeInFrame (s : State) (bytes : List Byte) (boundaries : Nat) (c : Byte) (stopHigh : Bool) : State :=
  let now := bytes ++ [c]
  if !stopHigh then s.discard .character (now.length + 1)
  else if bytes = [] && (c.toNat < 2 || 242 < c.toNat) then s.discard .length 2
  else if now.length < 1 + (now.getD 0 0).toNat + 2 then s.setReceiver (.inFrame now boundaries)
  else if checkBytes (covered now) = now.drop (1 + (now.getD 0 0).toNat) then
    (s.setReceiver .hunting).frameCompletes (frameOf now)
  else s.discard .check (now.length + 1)

/-- The frame in reception has reached its 20th boundary: it is discarded (R193 (3)). -/
def State.timeout (s : State) : State :=
  match s.link.receiver with
  | .hunting => s
  | .inFrame bytes boundaries =>
    if Config.frameBlocks ≤ boundaries then s.discard .timeout (bytes.length + 1) else s

/-- A character arrives on RX (R193). In HUNTING all but a start byte without character error is discarded. -/
def State.receive (s : State) (c : Byte) (stopHigh : Bool) : State :=
  match s.timeout.link.receiver with
  | .hunting => if stopHigh && c = 0xA5 then s.timeout.setReceiver (.inFrame [] 0) else s.timeout
  | .inFrame bytes boundaries => s.timeout.takeInFrame bytes boundaries c stopHigh

/-! ## Taking requests (R195) -/

/-- The link controller can take this request now (R195): no STOP is incomplete, the reply list has a free place, and no
other frame stands before it in the input queue (log 3). -/
def State.takes (s : State) (f : Frame) : Bool :=
  s.link.stopping.isNone && s.link.hasPlace &&
    (match s.link.input with
    | [] => true
    | g :: _ => g = f)

/-- The frame taken leaves the input queue (R195). -/
def State.popInput (s : State) : State := { s with link := { s.link with input := s.link.input.drop 1 } }

/-- A request frame is taken and worked, or waits (R195). One that cannot be taken yet stands at the head already, or
completes now and joins the tail (log 4). -/
def State.takeFrame (s : State) (f : Frame) (work : State → State) : State :=
  if s.takes f then work s.popInput
  else if s.link.input.head? = some f then s
  else s.frameArrives f

/-- A refusal leaves the state as it was. -/
def refuse (s : State) (status : Status) : State × Answer := (s, .refuse status)

end Sys2Proof.Machine
end

