-- ==== Sys2Proof/Machine/Mix.lean ====
section
/-! DEFINITION. The mix unit (chapter 9) and what the slots carry (R152, R161, R144): the routes of a block, the factors,
and the sample arithmetic. -/

namespace Sys2Proof.Machine

/-! ## Gains (R166, R167, R175) -/

/-- A(N), the NOM attenuation in steps (R166). -/
def attenuation : Nat → Int
  | 0 => 0
  | 1 => 0
  | 2 => 6
  | 3 => 10
  | 4 => 12
  | 5 => 14
  | 6 => 16
  | 7 => 17
  | 8 => 18
  | 9 => 19
  | 10 => 20
  | 11 => 21
  | 12 => 22
  | 13 => 22
  | 14 => 23
  | _ => 24

/-- `f` is at or below the number that R175 rounds, with halves rounded up: (2 f - 1)^40 is at most
(2 * 65536)^40 * 10^g. -/
def factorAtMost (g : Int) (f : Nat) : Bool :=
  if 0 ≤ g then (2 * f - 1) ^ 40 ≤ 131072 ^ 40 * 10 ^ g.toNat
  else (2 * f - 1) ^ 40 * 10 ^ (-g).toNat ≤ 131072 ^ 40

/-- The highest `f` from `lo` up that satisfies `factorAtMost`, by halving: `n` more binary digits. -/
def factorSearch (g : Int) : Nat → Nat → Nat
  | 0, lo => lo
  | n + 1, lo => factorSearch g n (if factorAtMost g (lo + 2 ^ n) then lo + 2 ^ n else lo)

/-- The factor of a gain in steps (R175): 65536 * 10^(g/40), rounded to the nearest whole number. Every gain of the part is
at most +24 steps, so the factor is below 2^19. -/
def factor (g : Int) : Nat := factorSearch g 19 0

/-- A gain is a mute (R165). -/
def isMute (g : Int) : Bool := g < -120

/-- x * f / 65536, rounded to the nearest whole number, halves away from zero (R176). -/
def scale (x : Int) (f : Nat) : Int :=
  if 0 ≤ x then ((2 * x.natAbs * f + 65536) / 131072 : Nat) else -((2 * x.natAbs * f + 65536) / 131072 : Nat)

/-- The scaled sample of a route (R165, R176). -/
def route (g x : Int) : Int := if isMute g then 0 else scale x (factor g)

/-- The 24-bit range (R177 (3)). -/
def limit24 (x : Int) : Int := clampInt (-8388608) 8388607 x

/-! ## The routes of a block -/

/-- The microphone routes (R167). -/
def State.micRoutes (s : State) : List MicRoute :=
  s.floor.seats.filterMap (fun e =>
    if e.2.mic = .live && !e.2.muted then
      match s.roomOf e.2.segment, e.2.slot with
      | some r, some k =>
        some { seat := e.1, bus := seatBus e.1, slot := k, anchor := r.anchor,
               gain := e.2.trim - attenuation (s.openMics r) }
      | _, _ => none
    else none)

/-- The loudspeaker routes (R172). -/
def State.zoneRoutes (s : State) : List ZoneRoute :=
  s.installedSegments.filterMap (fun k =>
    (s.roomOf k).map (fun r => { segment := k, anchor := r.anchor, gain := r.level + (s.segment k).trim }))

/-- What a channel carries (R143, R173, R174). -/
def State.output (s : State) (r : Room) (key : Key) : Output :=
  match s.ownerOf key with
  | none => .fill r.anchor r.profile.fill
  | some c =>
    if (s.console c).state = .onAir then
      if (s.console c).cough then .silence else .microphone c (s.boothAt (consoleBooth c)).trim
    else .fill r.anchor r.profile.fill

/-- The outputs of every channel of every IN_SESSION or ENDING room (R143, R161). -/
def State.outputs (s : State) : List (Key × Output) :=
  s.anchors.flatMap (fun a =>
    match s.room a with
    | none => []
    | some r => r.channelKeys.map (fun key => (key, s.output r key)))

/-- What floor slot k - 1 carries (R152). -/
def State.floorCarry (s : State) (k : Nat) : Carry :=
  if s.link.phase = .run && (s.segment k).installed && s.dist.current.anchors.contains k then
    match s.roomOf k with
    | none => .silence
    | some r => if r.session.hasChannels then .floor r.anchor else .silence
  else .silence

/-- What language slot k carries (R161): the on-air entry is read through its segment. -/
def State.languageCarry (s : State) (k : Nat) : Carry :=
  match tget none s.dist.current.slots k with
  | none => .silence
  | some key =>
    match s.roomOf key.anchor with
    | none => .silence
    | some r => if r.session.hasChannels && r.profile.languages.contains key.code then .channel ⟨r.anchor, key.code⟩ else .silence

/-- What distribution slot k carries (R152, R161). -/
def State.slotCarry (s : State) (k : Nat) : Carry := if k < 12 then s.floorCarry (k + 1) else s.languageCarry k

/-- What the listen slot of booth b carries (R62, R144). -/
def State.listenCarry (s : State) (b : Nat) : Carry :=
  match s.boothRoom b with
  | none => .silence
  | some r =>
    match (s.boothAt b).listen, (s.boothAt b).source with
    | .relay, .relay code => .channel ⟨r.anchor, code⟩
    | _, _ => .floor r.anchor

/-- The slots that carry something, of these. -/
def carrying (f : Nat → Carry) (ks : List Nat) : Table Carry :=
  ks.filterMap (fun k => if f k = .silence then none else some (k, f k))

/-- The plan of the block that begins at a boundary in RUN (R165). -/
def State.formPlan (s : State) : Plan :=
  { mics := s.micRoutes, zones := s.zoneRoutes, channels := s.outputs,
    slots := carrying s.slotCarry (List.range 64),
    listens := (carrying s.listenCarry (tkeys (fun _ b => b.installed) s.booth.booths)).map (fun x => (x.1 - 1, x.2)) }

/-- The mix unit takes this plan. -/
def State.setPlan (s : State) (p : Plan) : State := { s with mix := { s.mix with plan := p } }

/-! ## Samples (R176 to R179) -/

/-- The sample of an upstream slot in a frame; silence where nothing was sent. -/
def upstreamSample (audio : List Upstream) (bus slot frame : Nat) : Int :=
  match audio.find? (fun u => u.bus.index = bus && u.slot = slot) with
  | none => 0
  | some u => (u.samples.getD frame 0).toInt

/-- The exact sum of a room's microphone routes in a frame (R177 (1), (2)). -/
def floorSum (p : Plan) (audio : List Upstream) (a frame : Nat) : Int :=
  ((p.mics.filter (fun m => m.anchor = a)).map (fun m => route m.gain (upstreamSample audio m.bus m.slot frame))).sum

/-- The frames of a block. -/
def blockFrames : List Nat := List.range Config.framesPerBlock

/-- The floor of a room over a block (R177). -/
def floorBlock (p : Plan) (audio : List Upstream) (a : Nat) : List Int :=
  blockFrames.map (fun i => limit24 (floorSum p audio a i))

/-- A room's floor saturates in a block (R177 (3), R178). -/
def floorClips (p : Plan) (audio : List Upstream) (a : Nat) : Bool :=
  blockFrames.any (fun i => limit24 (floorSum p audio a i) ≠ floorSum p audio a i)

/-- The anchors of the rooms with a microphone route. -/
def Plan.voices (p : Plan) : List Nat := segmentNumbers.filter (fun a => p.mics.any (fun m => m.anchor = a))

/-- A channel's output over a block (R143, R173, R174, R179). -/
def outputBlock (p : Plan) (audio : List Upstream) : Output → List Int
  | .microphone c g => blockFrames.map (fun i => limit24 (route g (upstreamSample audio 4 (c - 1) i)))
  | .silence => blockFrames.map (fun _ => 0)
  | .fill _ none => blockFrames.map (fun _ => 0)
  | .fill a (some g) => (floorBlock p audio a).map (fun x => limit24 (route g x))

/-- The output of a channel of the plan over a block. -/
def channelBlock (p : Plan) (audio : List Upstream) (key : Key) : List Int :=
  match p.channels.find? (fun x => x.1 = key) with
  | none => blockFrames.map (fun _ => 0)
  | some x => outputBlock p audio x.2

/-- What a slot carries over a block, unscaled (R177, R174). -/
def carryBlock (p : Plan) (audio : List Upstream) : Carry → List Int
  | .silence => blockFrames.map (fun _ => 0)
  | .floor a => floorBlock p audio a
  | .channel key => channelBlock p audio key

/-- Samples of 24 bits. -/
def toSamples (xs : List Int) : List Sample := xs.map (fun x => BitVec.ofInt 24 x)

/-- The samples that a plan makes of a block's upstream audio (R177, R179). -/
def mixBlock (p : Plan) (audio : List Upstream) : BlockAudio :=
  { floors := p.voices.map (fun a => (a, toSamples (floorBlock p audio a)))
    slots := p.slots.map (fun x => (x.1, toSamples (carryBlock p audio x.2)))
    listens := p.listens.map (fun x => (x.1, toSamples (carryBlock p audio x.2)))
    zones := p.zones.map (fun z =>
      (z.segment, toSamples ((floorBlock p audio z.anchor).map (fun x => limit24 (route z.gain x))))) }

/-! ## Ramps (R169) -/

/-- A RAMPING room's level moves one step toward its target, and is due to settle if it is there (R169). -/
def Room.stepRamp (r : Room) : Room :=
  match r.ramp with
  | .settled => r
  | .ramping =>
    let l := if r.level < r.target then r.level + 1 else if r.target < r.level then r.level - 1 else r.level
    { r with level := l, settleDue := l = r.target }

end Sys2Proof.Machine
end

