-- ==== Sys2Proof/Machine/Phases.lean ====
section
/-! DEFINITION. START, STOP and RESTART in every block (R199 to R201, and the reset tables R13, R14, R80 to R82, R110, R128,
R149, R164, R180, R191). -/

namespace Sys2Proof.Machine

/-! ## Building rooms (R13) -/

/-- The room over a connected group of segments, with the anchor's default profile, DORMANT, its level at its target
(R13, R180). -/
def State.freshRoom (s : State) (a : Nat) (segments : List Nat) : Room :=
  { anchor := a, segments := segments, session := .dormant, profile := (s.segment a).profile,
    ceiling := s.ceilingOf segments, level := min (s.segment a).profile.level (s.ceilingOf segments), ramp := .settled,
    wake := Wake.empty, timer := none, live := [], queue := [], rotation := none, priority := false, settleDue := false }

/-- The anchor of the group that an installed segment belongs to (R11). -/
def State.builtAnchor (s : State) (k : Nat) : Nat := lowest (s.groupOf s.installedSegments k)

/-- The room table is built from the effective states (R13), and the distribution tables hold its anchors (R164). -/
def State.buildRooms (s : State) : State :=
  let installed := s.installedSegments
  let rooms := (installed.filter (fun k => s.builtAnchor k = k)).map (fun k => (k, some (s.freshRoom k (s.groupOf installed k))))
  let anchors := rooms.map Prod.fst
  let table : SlotTable := { slots := [], anchors := anchors }
  { s with
    hall := { s.hall with rooms := rooms, segmentMap := installed.map (fun k => (k, some (s.builtAnchor k))) }
    dist := { allocation := table, current := table, unserved := [], switchDue := false } }

/-- The listen state of every booth by its source alone (R149). -/
def restBooths (t : Table Booth) : Table Booth :=
  t.foldl (fun u x => tset Booth.initial u x.1 { x.2 with listen := x.2.source.restListen }) []

/-- Every seat record keeps its installation fields; its dynamic fields become these (R110). -/
def State.eachSeat (s : State) (f : Nat → Seat → Seat) : State :=
  { s with floor := { s.floor with
      seats := s.floor.seats.foldl (fun u x => tset Seat.initial u x.1 (f x.1 x.2)) [] } }

/-- A seat with the dynamic fields of power-on (R110). -/
def Seat.cleared (x : Seat) : Seat :=
  { Seat.initial with installed := x.installed, cls := x.cls, segment := x.segment, trim := x.trim }

/-- The map items of every installed segment, in ascending order (R80, R82). -/
def State.allMaps (s : State) : List Item := s.installedSegments.map Item.map

/-! ## START (R199) -/

/-- The checks of START (R199): the first failing item. Check (1) has no item; it is reported as the kind segment without a number:
DESIGN CHOICE (log 51). -/
def State.startFailure (s : State) : Option StartItem :=
  let seg := fun k => (s.segment k).installed
  if s.installedSegments = [] then some .segment
  else
    match (tkeys (fun _ p => p.installed && !(seg p.a && seg p.b)) s.hall.partitions).head? with
    | some p => some (.partition p)
    | none =>
      match (tkeys (fun _ x => x.installed && !(seg x.segment)) s.floor.seats).head? with
      | some n => some (.seat n)
      | none =>
        match (tkeys (fun _ b => b.installed && !(seg b.home)) s.booth.booths).head? with
        | some b => some (.booth b)
        | none => none

/-- A bus controller at START (R80): units UNKNOWN, the map items due on a delegate bus, power asserted. No window is open
before the next boundary. -/
def State.startBus (s : State) (i : Nat) : State :=
  s.setBus i { Bus.initial with queue := if i < 4 then s.allMaps else [], power := true }

/-- The counter unit at START (R191): the records as written, tallies 0, block count 0. -/
def CounterUnit.start (c : CounterUnit) : CounterUnit :=
  { counters := c.counters.foldl (fun u x => tset Counter.initial u x.1 { x.2 with tally := 0 }) [],
    blocks := some 0, secondDue := false, raised := [], deferring := false }

/-- START succeeds (R199): RUN, the rooms, the counts, the tables, the levels and the buses. -/
def State.enterRun (s : State) : State :=
  let t := { s with link := { s.link with phase := .run, restartDue := 0 } }
  let u := t.buildRooms.eachSeat (fun _ x => x.cleared)
  let v := { u with
    floor := { u.floor with openingCount := 0, liveCount := 0, stampCount := 0 }
    booth := { booths := restBooths u.booth.booths, consoles := [] }
    counts := u.counts.start }
  [0, 1, 2, 3, 4].foldl State.startBus v

/-! ## STOP (R200) -/

/-- A bus controller at STOP (R81 (1)): its records, queue and pointer as after power-on, and the OFF broadcast due in the
next control window. The power stays until that window has ended. -/
def State.stopBus (s : State) (i : Nat) : State :=
  s.setBus i { Bus.initial with power := (s.bus i).power, off := .waiting }

/-- Every group's blocked field becomes no (R128). -/
def unblockGroups (t : Table Group) : Table Group :=
  t.foldl (fun u x => tset Group.initial u x.1 { x.2 with blocked := false }) []

/-- A waiting RESTART is answered WRONG_PHASE at STOP's taking (R200). -/
def State.cancelRestarts (s : State) : State :=
  let tags := s.link.restarts
  let t := { s with link := { s.link with restarts := [], restartDue := 0 } }
  tags.foldl (fun u tag => u.reply { kind := 0x07, tag := tag, answer := .refuse .wrongPhase }) t

/-- STOP, within the request (R200): CONFIG, and every block clears its RUN state without notices. Its reply waits for
the OFF broadcasts (R81). -/
def State.enterConfig (s : State) (tag : Byte) : State :=
  let t := s.cancelRestarts
  let u := { t with
    hall := { t.hall with rooms := [], segmentMap := [] }
    floor := { t.floor with groups := unblockGroups t.floor.groups }
    booth := { booths := restBooths t.booth.booths, consoles := [] }
    dist := { allocation := SlotTable.empty, current := SlotTable.empty, unserved := [], switchDue := false }
    counts := { counters := [], blocks := none, secondDue := false, raised := [], deferring := false }
    link := { t.link with phase := .config, stopping := some tag } }
  [0, 1, 2, 3, 4].foldl State.stopBus (u.eachSeat (fun _ x => x.cleared))

/-- The OFF broadcast has been sent on a bus (R81). -/
def Bus.offSent (b : Bus) : Bool := b.off = .sent || b.off = .done

/-- STOP is complete (R81, R200): once the OFF broadcast has been sent on all five buses, the reply is formed. The power of a
bus is withdrawn at the end of the window that carried its OFF, by `State.offWindow`. -/
def State.completeStop (s : State) : State :=
  match s.link.stopping with
  | none => s
  | some tag =>
    if [0, 1, 2, 3, 4].all (fun i => (s.bus i).offSent) then
      let u := { s with link := { s.link with stopping := none } }
      u.reply { kind := 0x06, tag := tag, answer := .ok .nothing }
    else s

/-! ## RESTART (R201) -/

/-- A seat at RESTART (R110): IDLE where its unit is PRESENT, else ABSENT; its dynamic fields cleared; NO_SESSION. -/
def Seat.restarted (x : Seat) (present : Bool) : Seat :=
  { x.cleared with mic := if present then .idle else .absent }

/-- A console at RESTART (R149): READY and BUSY where its unit is PRESENT, else ABSENT; no owner; cough as held. -/
def State.restartConsoles (s : State) : Table Console :=
  (s.addresses 4).foldl (fun u c =>
    let present := (s.unit 4 c).presence = .present
    tset Console.initial u c
      { state := if present then .ready else .absent, owned := none, cough := (s.unit 4 c).held,
        indication := if present then some .busy else none }) []

/-- A unit record at RESTART (R82): assigned no, told none, map owed no; the rest kept. -/
def restartUnits (t : Table UnitRecord) : Table UnitRecord :=
  t.foldl (fun u x => tset UnitRecord.initial u x.1 { x.2 with assigned := false, mapOwed := false, told := none }) []

/-- A bus at RESTART (R82): the queue holds the items of the PRESENT units, ascending, and then the map items. -/
def State.restartBus (s : State) (i : Nat) : State :=
  let b := s.bus i
  let present := (s.addresses i).filter (fun a => (s.unit i a).presence = .present)
  s.setBus i { b with
    units := restartUnits b.units
    queue := present.map Item.unit ++ (if i < 4 then s.allMaps else [])
    exchange := none }

/-- RESTART takes effect (R201): every block's part, and then the replies to the RESTARTs due, in their order. The routes of the
block are formed from the rebuilt rooms (R180). -/
def State.takeRestart (s : State) : State :=
  let t := s.buildRooms.eachSeat (fun n x => x.restarted ((s.unit (seatBus n) (seatAddress n)).presence = .present))
  let u := { t with
    floor := { t.floor with openingCount := 0, liveCount := 0, stampCount := 0 }
    booth := { booths := restBooths t.booth.booths, consoles := s.restartConsoles } }
  let v := [0, 1, 2, 3, 4].foldl State.restartBus u
  let w := v.setPlan v.formPlan
  let n := w.link.restartDue
  let x := { w with link := { w.link with restarts := w.link.restarts.drop n, restartDue := 0 } }
  (w.link.restarts.take n).foldl (fun y tag => y.reply { kind := 0x07, tag := tag, answer := .ok .nothing }) x

end Sys2Proof.Machine
end

