-- ==== Sys2Proof/Machine/Seconds.lean ====
section
/-! DEFINITION. The counter unit's seconds (R186 to R188) and the events of the block clock: room timers (R31), hold-offs
(R95), speaking clocks (R107, R108), the end of ramps (R169, R171), the table switch (R160) and settling (R6). -/

namespace Sys2Proof.Machine

/-! ## Sampled quantities (R186) -/

/-- Seats that count as SPEAKING: delegates in LIVE. -/
def State.speakers (s : State) (p : Nat → Seat → Bool) : Nat :=
  (tkeys (fun n x => x.installed && x.cls = .delegate && x.mic = .live && p n x) s.floor.seats).length

/-- The entries of every queue. -/
def State.allEntries (s : State) : List Entry :=
  s.anchors.flatMap (fun a => match s.room a with
    | none => []
    | some r => r.queue)

/-- The channel keys of every room. -/
def State.allKeys (s : State) : List Key :=
  s.anchors.flatMap (fun a => match s.room a with
    | none => []
    | some r => r.channelKeys)

/-- The sample of SPEAKING (R186). -/
def State.sampleSpeaking (s : State) : Scope → Nat
  | .all => s.speakers (fun _ _ => true)
  | .segment k => if (s.anchorOf k).isSome then s.speakers (fun _ x => s.anchorOf x.segment = s.anchorOf k) else 0
  | .group g => s.speakers (fun n _ => s.memberOf g n)
  | .bus i => s.speakers (fun n _ => seatBus n = i)

/-- The sample of QUEUED (R186). -/
def State.sampleQueued (s : State) : Scope → Nat
  | .all => s.allEntries.length
  | .segment k => match s.roomOf k with
    | none => 0
    | some r => r.queue.length
  | .group g => (s.allEntries.filter (fun e => s.memberOf g e.seat)).length
  | .bus i => (s.allEntries.filter (fun e => seatBus e.seat = i)).length

/-- The sample of FILL (R186). -/
def State.sampleFill (s : State) : Scope → Nat
  | .all => (s.allKeys.filter s.onFill).length
  | .segment k => match s.roomOf k with
    | none => 0
    | some r => (r.channelKeys.filter s.onFill).length
  | _ => 0

/-- The sample of UNSERVED (R186). -/
def State.sampleUnserved (s : State) : Scope → Nat
  | .all => s.dist.unserved.length
  | .segment k => match s.anchorOf k with
    | none => 0
    | some a => (s.dist.unserved.filter (fun key => key.anchor = a)).length
  | _ => 0

/-- An event is a sampled quantity (R181). -/
def CountEvent.sampled : CountEvent → Bool
  | .speaking | .queued | .fill | .unserved => true
  | _ => false

/-- What a counter reads at a second boundary (R187 (1)): its sample or its tally. -/
def State.reading (s : State) (x : Counter) : Nat :=
  match x.event with
  | .speaking => s.sampleSpeaking x.scope
  | .queued => s.sampleQueued x.scope
  | .fill => s.sampleFill x.scope
  | .unserved => s.sampleUnserved x.scope
  | _ => x.tally

/-! ## The second boundary (R187, R188) -/

/-- The condition of THRESHOLD and EDGE (R188). -/
def Counter.condition (x : Counter) (reading : Nat) : Bool :=
  if x.invert then reading < x.threshold else x.threshold ≤ reading

/-- What a counter adds at a second boundary (R188). -/
def Counter.addition (x : Counter) (reading : Nat) : Nat :=
  match x.mode with
  | .count => if x.event.sampled then reading else 0
  | .threshold => if x.condition reading then 1 else 0
  | .edge => if x.condition reading && !x.edge then 1 else 0

/-- A counter takes its second (R187 (3), R188): the addition, the edge memory after it, and what an overflow raises. -/
def State.takeSecond (s : State) (c reading : Nat) : State :=
  let x := s.counter c
  let t := s.addCounter c (x.addition reading)
  let u := match x.mode with
    | .edge => t.setCounter c { t.counter c with edge := x.condition reading }
    | _ => t
  u.settleCounts

/-- The second boundary (R187): the reads, the tallies, and the enabled counters in ascending number. -/
def State.second (s : State) : State :=
  let on := counterNumbers.filter (fun c => (s.counter c).enabled)
  let reads := on.map (fun c => (c, s.reading (s.counter c)))
  let t := counterNumbers.foldl (fun u c => u.setCounter c { u.counter c with tally := 0 }) s
  reads.foldl (fun u x => u.takeSecond x.1 x.2) t

/-- The second boundary is carried out if it is due (R187). -/
def State.secondIfDue (s : State) : State :=
  if s.counts.secondDue then State.second { s with counts := { s.counts with secondDue := false } } else s

/-! ## Room timers (R31) -/

/-- The timer of a room has expired (R31): the room wakes with cause TIMER, or reports the expiry and stays ARMED. -/
def State.expireTimer (s : State) (a : Nat) : State :=
  match s.room a with
  | none => s
  | some r =>
    let t := s.modRoom a (fun r => { r with timer := none })
    if r.wake.timer then t.enterSession a .timer none
    else t.note (.sessionState a .armed .armed .timer none none)

/-- A room's timer has reached 0. -/
def Room.timerDue (r : Room) : Bool :=
  r.session = .armed && match r.timer with
    | none => false
    | some t => t.seconds = 0

/-- The anchors of the rooms that satisfy `p`, ascending. -/
def State.roomsWith (s : State) (p : Room → Bool) : List Nat :=
  tkeys (fun _ x => match x with
    | none => false
    | some r => p r) s.hall.rooms

/-- The expired timer of the lowest anchor is carried out, if any (R31). -/
def State.nextTimer (s : State) : State :=
  match (s.roomsWith Room.timerDue).head? with
  | none => s
  | some a => s.expireTimer a

/-! ## Hold-offs (R95) -/

/-- The hold-off of a seat ends (R95): IDLE, and then its pending press. -/
def State.endHoldOff (s : State) (n : Nat) : State :=
  let x := s.seat n
  let t := s.setSeat n { x with mic := .idle, holdOff := none, holdOffDue := false, pendingPress := false }
  let u := (t.noteMic n .holdOff .holdOffEnd).reseat n
  if x.pendingPress then u.handlePress n else u

/-- The hold-off of the lowest seat that is due ends, if any (R95). -/
def State.nextHoldOff (s : State) : State :=
  match (tkeys (fun _ x => x.mic = .holdOff && x.holdOffDue) s.floor.seats).head? with
  | none => s
  | some n => s.endHoldOff n

/-! ## Speaking clocks (R107, R108) -/

/-- The applicable limit of a seat in its room (R107); none for no limit. -/
def applicableLimit (x : Seat) (r : Room) : Option Nat :=
  match x.grant with
  | some g => some g
  | none =>
    match x.cls with
    | .chair => none
    | .delegate => if r.profile.speakingLimit = 0 then none else some r.profile.speakingLimit

/-- The warning check (R108 (1)). -/
def State.warnIfDue (s : State) (n clock limit : Nat) (r : Room) : State :=
  if 0 < r.profile.warningLead && r.profile.warningLead < limit && limit - r.profile.warningLead ≤ clock &&
      !(s.seat n).warned then
    ((s.setSeat n { s.seat n with warned := true }).reform n).note (.speakingWarning n clock limit)
  else s

/-- The limit check (R108 (2)). -/
def State.limitIfDue (s : State) (n clock limit : Nat) (r : Room) : State :=
  if limit ≤ clock then
    match r.profile.limitAction with
    | .close => (((s.enterClosing n .limit).raiseSeat .limitClose n).settleCounts).promote r.anchor
    | .notify =>
      if (s.seat n).limitReported then s
      else ((s.setSeat n { s.seat n with limitReported := true }).reform n).note (.speakingLimit n clock limit)
  else s

/-- A LIVE seat has reached a whole second (R108). -/
def State.clockSecond (s : State) (n : Nat) : State :=
  let t := s.setSeat n { s.seat n with secondDue := false }
  match (s.seat n).clock, s.seatRoom n with
  | some c, some r =>
    match applicableLimit (s.seat n) r with
    | none => t
    | some limit => (t.warnIfDue n c.seconds limit r).limitIfDue n c.seconds limit r
  | _, _ => t

/-- The whole second of the lowest seat that is due is checked, if any (R108). -/
def State.nextClock (s : State) : State :=
  match (tkeys (fun _ x => x.mic = .live && x.secondDue) s.floor.seats).head? with
  | none => s
  | some n => s.clockSecond n

/-! ## Ramps (R169 (2), R171) -/

/-- A ramp that has reached its target ends with LEVEL_SETTLED (R169 (2), R171). -/
def State.settleRamp (s : State) (a : Nat) : State :=
  match s.room a with
  | none => s
  | some r =>
    (s.setRoom a (some { r with ramp := .settled, settleDue := false })).note
      (.levelSettled a r.level r.profile.level r.ceiling)

/-- The ramp of the lowest anchor that is due ends, if any (R171). -/
def State.nextRamp (s : State) : State :=
  match (s.roomsWith Room.settleDue).head? with
  | none => s
  | some a => s.settleRamp a

/-! ## The table switch (R160) -/

/-- The on-air table becomes a copy of the allocation table, and the block that begins is formed from it (R160). -/
def State.switchTables (s : State) : State :=
  let t := { s with dist := { s.dist with current := s.dist.allocation } }
  t.setPlan { t.mix.plan with slots := carrying t.slotCarry (List.range 64) }

/-- The switch is made if the boundary called for it (R160; log 25). -/
def State.switchIfDue (s : State) : State :=
  if s.dist.switchDue then State.switchTables { s with dist := { s.dist with switchDue := false } } else s

/-! ## Settling (R6) -/

/-- The settling record of an input after a sample (R6 (1) to (3)). -/
def Settling.sample (x : Settling) (level : Contact) : Settling :=
  if x.candidate = some level then
    if x.hold < Config.settleBlocks then { x with hold := x.hold + 1 } else x
  else { x with candidate := some level, hold := 1 }

/-- A settling event is due (R6 (4)). -/
def Settling.due (x : Settling) : Bool := x.hold = Config.settleBlocks && x.candidate ≠ x.stable

/-- The settling event of an input is carried out if it is due (R6 (4)). -/
def State.settleIfDue (s : State) (p : Nat) : State := if (s.settling p).due then s.settle p else s

end Sys2Proof.Machine
end

