-- ==== Sys2Proof/Machine/DueWork.lean ====
section
/-! DEFINITION. What falls due at a block boundary and has a command of its own (log 6), when it is done at the latest, and the
taking of a request (R195) and of an event, which find it done. -/

namespace Sys2Proof.Machine

/-- The numbers of the sense inputs. -/
def inputNumbers : List Nat := (List.range 16).map (· + 1)

/-- `f` carried out once for every element of a list. -/
def timesOf {α : Type} (f : State → State) (xs : List α) (s : State) : State := xs.foldl (fun t _ => f t) s

/-- The RESTARTs due at the present boundary take effect (R201). -/
def State.restartIfDue (s : State) : State := if s.link.restartDue = 0 then s else s.takeRestart

/-- The ramps that the present boundary brought to their targets end (R169 (2)), and the table switch that it called for is made
(R160). Nothing else that happens at the boundary or after it comes before them. -/
def State.closeInstant (s : State) : State := (timesOf State.nextRamp (s.roomsWith Room.settleDue) s).switchIfDue

/-- All that fell due at the present boundary, and a STOP whose OFF broadcasts have gone out, is carried out in this order. -/
def State.catchUp (s : State) : State :=
  let t1 := inputNumbers.foldl State.settleIfDue s.closeInstant.timeout
  let t2 := t1.restartIfDue
  let t3 := timesOf State.nextTimer (t2.roomsWith Room.timerDue) t2
  let t4 := timesOf State.nextHoldOff (tkeys (fun _ x => x.holdOffDue) t3.floor.seats) t3
  let t5 := timesOf State.nextClock (tkeys (fun _ x => x.secondDue) t4.floor.seats) t4
  t5.secondIfDue.completeStop

/-! ## Events while the RESET pin is high (R202; log 11) -/

/-- RAMP_SETTLE and TABLE_SWITCH: what `State.closeInstant` would do next. -/
def State.whileUp (s : State) (work : State → State) : State := if s.resetLow then s else work s

/-- The other commands whose work falls due at a boundary, in the order in which they are commanded. -/
def State.whenDue (s : State) (work : State → State) : State := s.whileUp fun t => work t.closeInstant

/-- An event that comes after the boundary: all that fell due there has been done. -/
def State.upToDate (s : State) (work : State → State) : State := s.whileUp fun t => work t.catchUp

/-! ## Requests (R195) -/

/-- A request frame is taken and worked, or waits (R195). -/
def State.taking (s : State) (f : Frame) (work : State → State) : State := s.upToDate fun t => t.takeFrame f work

/-- The answer to a request is formed (R195, R196). -/
def State.answerWith (r : State × Answer) (kind tag : Byte) : State :=
  r.1.reply { kind := kind, tag := tag, answer := r.2 }

/-- A request of an allowed phase is handed to its block and answered (R195 (2) to (4)). -/
def State.request (s : State) (kind tag : Byte) (body : List Byte) (allowed : Allowed)
    (handle : List Byte → State → State × Answer) : State :=
  s.taking { kind := kind, tag := tag, body := body } (fun t =>
    if allowed.permits t.link.phase then State.answerWith (handle body t) kind tag
    else t.reply { kind := kind, tag := tag, answer := .refuse .wrongPhase })

end Sys2Proof.Machine
end

