-- ==== Sys2Proof/Machine/Operands.lean ====
section
/-! DEFINITION. The operands of the requests: the fields of each body (R205, R206), the checks of R195 (3) and R21 on them,
and which room, seat or booth a request names (R12, R84, R140). A reader answers none for a body that is refused BAD_VALUE
by R195 (3): its length, its own length field, or a coded byte that the request reads. -/

namespace Sys2Proof.Machine

/-! ## Single fields (R203, R206) -/

/-- The byte at an offset. -/
def byteAt (b : List Byte) (i : Nat) : Nat := (b.getD i 0).toNat

/-- The signed number of steps at an offset (R203). -/
def stepsAt (b : List Byte) (i : Nat) : Int := (b.getD i 0).toInt

/-- The two-byte number at an offset (R203). -/
def word16At (b : List Byte) (i : Nat) : Nat := word16 (b.getD i 0) (b.getD (i + 1) 0)

/-- The four-byte number at an offset (R203). -/
def word32At (b : List Byte) (i : Nat) : Nat :=
  word32 (b.getD i 0) (b.getD (i + 1) 0) (b.getD (i + 2) 0) (b.getD (i + 3) 0)

/-- A coded byte: the code-th value of its list (R203), none outside its coding. -/
def codedAt {α : Type} (values : List α) (b : List Byte) (i : Nat) : Option α := values[byteAt b i]?

/-- A yes-or-no byte (R203). -/
def yesNoAt (b : List Byte) (i : Nat) : Option Bool := codedAt [false, true] b i

/-- A body of the length that its kind calls for (R195 (3), R206). -/
def sized (n : Nat) (b : List Byte) : Option Unit := if b.length = n then some () else none

/-! ## The room profile (R20, R21, R205) -/

/-- The speaking limit as it is stored (R21): 0 is no limit. -/
def clampSpeaking (n : Nat) : Nat := if n = 0 then 0 else clampNat 10 3600 n

/-- The fill level of a byte (R205): -128 is OFF, and any other number is clamped (R21). -/
def fillOf (x : Int) : Option Int := if x = -128 then none else some (clampInt (-40) 0 x)

/-- The codes of a language set are structurally right (R21): at most eight, each 1 to 63, none twice. -/
def languagesRight (codes : List Nat) : Bool :=
  decide (codes.length ≤ 8) && codes.all (fun c => decide (1 ≤ c) && decide (c ≤ 63)) && decide codes.Nodup

/-- The language set of a profile (R205), none with a structural error (R21). -/
def languagesAt (b : List Byte) : Option (List Nat) :=
  let codes := ((b.drop 16).take (byteAt b 15)).map BitVec.toNat
  if byteAt b 15 ≤ 8 && languagesRight codes then some codes else none

/-- A field that is selected takes the value read, and one that is not keeps its value (R22). -/
def chosen {α : Type} (sel : Nat → Bool) (k : Nat) (old : α) (new : Option α) : Option α :=
  if sel k then new else some old

/-- The profile that these 24 bytes make of `old` (R205), where `sel k` says whether field `k` of R20's table is selected, from
0 for the floor mode to 14 for the language set. None at a structural error of a selected field (R21). -/
def profileFrom (sel : Nat → Bool) (old : Profile) (b : List Byte) : Option Profile :=
  match chosen sel 0 old.floorMode (codedAt [.openFloor, .request, .chair] b 0),
    chosen sel 3 old.overflow (codedAt [.queue, .refuse] b 3),
    chosen sel 4 old.mayClose (yesNoAt b 4),
    chosen sel 5 old.mayCancel (yesNoAt b 5),
    chosen sel 6 old.service (codedAt [.arrival, .rotating] b 6),
    chosen sel 7 old.action (codedAt [.muteAll, .closeAll, .closeAndClear] b 7),
    chosen sel 10 old.limitAction (codedAt [.close, .notify] b 11),
    chosen sel 13 old.contention (codedAt [.interlock, .takeover] b 14),
    chosen sel 14 old.languages (languagesAt b) with
  | some floorMode, some overflow, some mayClose, some mayCancel, some service, some action, some limitAction,
    some contention, some languages =>
    some {
      floorMode := floorMode
      openLimit := if sel 1 then clampNat 1 8 (byteAt b 1) else old.openLimit
      chairLimit := if sel 2 then clampNat 1 4 (byteAt b 2) else old.chairLimit
      overflow := overflow
      mayClose := mayClose
      mayCancel := mayCancel
      service := service
      action := action
      speakingLimit := if sel 8 then clampSpeaking (word16At b 8) else old.speakingLimit
      warningLead := if sel 9 then clampNat 0 60 (byteAt b 10) else old.warningLead
      limitAction := limitAction
      level := if sel 11 then clampInt (-120) 0 (stepsAt b 12) else old.level
      fill := if sel 12 then fillOf (stepsAt b 13) else old.fill
      contention := contention
      languages := languages }
  | _, _, _, _, _, _, _, _, _ => none

/-- A selected number of these 24 bytes lies outside its range, so that it is stored clamped (R21). -/
def profileClamps (sel : Nat → Bool) (b : List Byte) : Bool :=
  (sel 1 && clampNat 1 8 (byteAt b 1) ≠ byteAt b 1) ||
  (sel 2 && clampNat 1 4 (byteAt b 2) ≠ byteAt b 2) ||
  (sel 8 && clampSpeaking (word16At b 8) ≠ word16At b 8) ||
  (sel 9 && clampNat 0 60 (byteAt b 10) ≠ byteAt b 10) ||
  (sel 11 && clampInt (-120) 0 (stepsAt b 12) ≠ stepsAt b 12) ||
  (sel 12 && stepsAt b 13 ≠ -128 && clampInt (-40) 0 (stepsAt b 13) ≠ stepsAt b 13)

/-- Every field is selected (SEGMENT_SET). -/
def allFields : Nat → Bool := fun _ => true

/-- The selection word of ROOM_SET (R205): bit 15 marks field 0, and so on down to bit 1 for the language set. -/
def selection (word : Nat) (k : Nat) : Bool := k ≤ 14 && word.testBit (15 - k)

/-- The numbers of the profile fields. -/
def fieldNumbers : List Nat := List.range 15

/-! ## The bodies of CONFIG -/

/-- SEGMENT_SET (R2, R206): the segment, its record, and whether a number was clamped. -/
def readSegmentSet (b : List Byte) : Option (Nat × Segment × Bool) :=
  match sized 28 b, yesNoAt b 1, profileFrom allFields Profile.defaults (b.drop 4) with
  | some _, some installed, some profile =>
    some (byteAt b 0,
      { installed := installed, maximum := clampInt (-120) 0 (stepsAt b 2), trim := clampInt (-24) 0 (stepsAt b 3),
        profile := profile },
      clampInt (-120) 0 (stepsAt b 2) ≠ stepsAt b 2 || clampInt (-24) 0 (stepsAt b 3) ≠ stepsAt b 3 ||
        profileClamps allFields (b.drop 4))
  | _, _, _ => none

/-- The fields of PARTITION_SET (R4, R206). -/
structure PartitionFields where
  partition : Nat
  installed : Bool
  a : Nat
  b : Nat
  fitted : Bool
  deriving DecidableEq, Repr

/-- PARTITION_SET. -/
def readPartitionSet (b : List Byte) : Option PartitionFields :=
  match sized 5 b, yesNoAt b 1, yesNoAt b 4 with
  | some _, some installed, some fitted =>
    some { partition := byteAt b 0, installed := installed, a := byteAt b 2, b := byteAt b 3, fitted := fitted }
  | _, _, _ => none

/-- The fields of SEAT_SET (R84, R206), the trim as given. -/
structure SeatFields where
  seat : Nat
  installed : Bool
  cls : SeatClass
  segment : Nat
  trim : Int
  deriving DecidableEq, Repr

/-- SEAT_SET. -/
def readSeatSet (b : List Byte) : Option SeatFields :=
  match sized 6 b, yesNoAt b 2, codedAt [SeatClass.delegate, .chair] b 3 with
  | some _, some installed, some cls =>
    some { seat := word16At b 0, installed := installed, cls := cls, segment := byteAt b 4, trim := stepsAt b 5 }
  | _, _, _ => none

/-- A source and its relay code (R206): the code is read for RELAY only. -/
def sourceAt (b : List Byte) (i : Nat) : Option Source :=
  match byteAt b i with
  | 0 => some .floor
  | 1 => some (.relay (byteAt b (i + 1)))
  | _ => none

/-- A source's relay code lies in 1 to 63 (R130 (4), R146 (1)). -/
def Source.inRange : Source → Bool
  | .floor => true
  | .relay code => 1 ≤ code && code ≤ 63

/-- The fields of BOOTH_SET (R130, R206), the trim as given. -/
structure BoothFields where
  booth : Nat
  installed : Bool
  home : Nat
  language : Nat
  source : Source
  count : Nat
  trim : Int
  deriving DecidableEq, Repr

/-- BOOTH_SET. -/
def readBoothSet (b : List Byte) : Option BoothFields :=
  match sized 8 b, yesNoAt b 1, sourceAt b 4 with
  | some _, some installed, some source =>
    some { booth := byteAt b 0, installed := installed, home := byteAt b 2, language := byteAt b 3, source := source,
           count := byteAt b 6, trim := stepsAt b 7 }
  | _, _, _ => none

/-! ## The bodies of RUN and of both phases -/

/-- PARTITION_DECLARE (R5): the partition and the declared state. -/
def readPartitionDeclare (b : List Byte) : Option (Nat × Wall) :=
  match sized 2 b, codedAt [Wall.opened, .closed] b 1 with
  | some _, some wall => some (byteAt b 0, wall)
  | _, _ => none

/-- ROOM_SET (R22, R205): the segment, the selection word and the profile bytes. -/
def readRoomSet (b : List Byte) : Option (Nat × Nat × List Byte) :=
  (sized 27 b).map (fun _ => (byteAt b 0, word16At b 1, b.drop 3))

/-- LEVEL_SET (R24): the segment and the level request as given. -/
def readLevelSet (b : List Byte) : Option (Nat × Int) := (sized 2 b).map (fun _ => (byteAt b 0, stepsAt b 1))

/-- LANGUAGES_SET (R25): the segment and the codes. The body holds as many codes as its count gives (R195 (3)). -/
def readLanguagesSet (b : List Byte) : Option (Nat × List Nat) :=
  if 2 ≤ b.length && b.length = 2 + byteAt b 1 then some (byteAt b 0, (b.drop 2).map BitVec.toNat) else none

/-- The requests whose body is one segment (R206). -/
def readSegment (b : List Byte) : Option Nat := (sized 1 b).map (fun _ => byteAt b 0)

/-- SESSION_ARM (R27, R206): the segment, the conditions byte and the room timer in seconds, none for all ones. -/
def readSessionArm (b : List Byte) : Option (Nat × Nat × Option Nat) :=
  (sized 6 b).map (fun _ =>
    (byteAt b 0, byteAt b 1, if word32At b 2 = Config.allOnes32 then none else some (word32At b 2)))

/-- The wake conditions of a byte (R206). -/
def wakeOf (n : Nat) : Wake :=
  { chairPress := n.testBit 0, delegatePress := n.testBit 1, consolePress := n.testBit 2, timer := n.testBit 3 }

/-- MIC_OPEN (R97): the seat and the duration, none for all ones. -/
def readMicOpen (b : List Byte) : Option (Nat × Option Nat) :=
  (sized 4 b).map (fun _ => (word16At b 0, if word16At b 2 = 65535 then none else some (word16At b 2)))

/-- The requests whose body is one seat number (R206). -/
def readSeat (b : List Byte) : Option Nat := (sized 2 b).map (fun _ => word16At b 0)

/-- NEXT (R106): the segment, and whether the manner is REPLACE. -/
def readNext (b : List Byte) : Option (Nat × Bool) :=
  match sized 2 b, codedAt [false, true] b 1 with
  | some _, some replace => some (byteAt b 0, replace)
  | _, _ => none

/-- SEAT_TRIM (R85). -/
def readSeatTrim (b : List Byte) : Option (Nat × Int) := (sized 3 b).map (fun _ => (word16At b 0, stepsAt b 2))

/-- QUEUE_QUERY (R121): the segment and the starting position. -/
def readQueueQuery (b : List Byte) : Option (Nat × Nat) := (sized 2 b).map (fun _ => (byteAt b 0, byteAt b 1))

/-- BOOTH_SOURCE (R146). -/
def readBoothSource (b : List Byte) : Option (Nat × Source) :=
  match sized 3 b, sourceAt b 1 with
  | some _, some source => some (byteAt b 0, source)
  | _, _ => none

/-- BOOTH_TRIM (R147). -/
def readBoothTrim (b : List Byte) : Option (Nat × Int) := (sized 2 b).map (fun _ => (byteAt b 0, stepsAt b 1))

/-- The requests whose body is one booth, or one counter (R206). -/
def readByte (b : List Byte) : Option Nat := (sized 1 b).map (fun _ => byteAt b 0)

/-- SLOT_QUERY (R163): whether the selector is LIST, and the starting point. -/
def readSlotQuery (b : List Byte) : Option (Bool × Nat) :=
  match sized 2 b, codedAt [false, true] b 0 with
  | some _, some list => some (list, byteAt b 1)
  | _, _ => none

/-- GROUP_SET (R124): the group and its record. -/
def readGroupSet (b : List Byte) : Option (Nat × Group) :=
  match sized 8 b, yesNoAt b 1, yesNoAt b 7 with
  | some _, some installed, some blocked =>
    some (byteAt b 0,
      { installed := installed, base := word16At b 2, mask := word16At b 4, rank := byteAt b 6, blocked := blocked })
  | _, _, _ => none

/-- The events of R181, in the order of their codes. -/
def countEvents : List CountEvent :=
  [.micOpened, .micClosed, .requestJoined, .requestRefused, .requestDropped, .limitClose, .unitLost, .boothTakeover,
    .relayFallback, .clip, .speaking, .queued, .fill, .unserved]

/-- The scope of a counter (R206): the number is not read for ALL. -/
def scopeAt (b : List Byte) (i : Nat) : Option Scope :=
  codedAt [Scope.all, .segment (byteAt b (i + 1)), .group (byteAt b (i + 1)), .bus (byteAt b (i + 1))] b i

/-- A scope names a segment, a group or a bus (R182 (3)). -/
def Scope.inRange : Scope → Bool
  | .all => true
  | .segment k => 1 ≤ k && k ≤ 12
  | .group g => 1 ≤ g && g ≤ 16
  | .bus i => i ≤ 4

/-- COUNTER_SET (R182): the counter, its record with the threshold clamped, the edge memory no and the tally 0, and whether
the threshold was clamped. -/
def readCounterSet (b : List Byte) : Option (Nat × Counter × Bool) :=
  match sized 15 b, yesNoAt b 1, codedAt countEvents b 2, scopeAt b 3, codedAt [CountMode.count, .threshold, .edge] b 5,
    yesNoAt b 8, codedAt [OverflowAction.notice, .noticeAndBlock] b 9 with
  | some _, some enabled, some event, some scope, some mode, some invert, some action =>
    some (byteAt b 0,
      { enabled := enabled, event := event, scope := scope, mode := mode, threshold := min 255 (word16At b 6),
        invert := invert, action := action, value := word32At b 11, edge := false, tally := 0 },
      255 < word16At b 6)
  | _, _, _, _, _, _, _ => none

/-! ## What a request names -/

/-- A segment number of 1 to 12. -/
def segmentOk (k : Nat) : Bool := 1 ≤ k && k ≤ 12

/-- A request acts on the room that contains a segment, by the checks of R12. -/
def State.inRoom (s : State) (k : Nat) (f : Room → State × Answer) : State × Answer :=
  if !(segmentOk k) then refuse s .badValue
  else if !(s.segment k).installed then refuse s .notInstalled
  else match s.roomOf k with
    | none => refuse s .notInstalled
    | some r => f r

/-- A request acts on an installed seat, by the checks of R97 (1). -/
def State.onSeat (s : State) (n : Nat) (f : Seat → State × Answer) : State × Answer :=
  if !(seatNumberOk n) then refuse s .badValue
  else if !(s.seat n).installed then refuse s .notInstalled
  else f (s.seat n)

/-- A booth number of 1 to 24. -/
def boothOk (b : Nat) : Bool := 1 ≤ b && b ≤ 24

/-- A request acts on an installed booth (R140, R147). -/
def State.onBooth (s : State) (b : Nat) (f : Booth → State × Answer) : State × Answer :=
  if !(boothOk b) then refuse s .badValue
  else if !(s.boothAt b).installed then refuse s .notInstalled
  else f (s.boothAt b)

/-- A body that R195 (3) refuses is answered BAD_VALUE. -/
def withBody {α : Type} (s : State) (fields : Option α) (f : α → State × Answer) : State × Answer :=
  match fields with
  | none => refuse s .badValue
  | some x => f x

end Sys2Proof.Machine
end

