-- ==== Sys2Proof/Machine/FloorRequests.lean ====
section
/-! DEFINITION. The requests of chapters 5 and 6 on seats and queues: SEAT_SET (R84), SEAT_TRIM (R85), SEAT_QUERY (R86), MIC_OPEN
(R97), MIC_CLOSE (R98), REQUEST_ADD and REQUEST_CANCEL (R99), NEXT (R106), QUEUE_CLEAR (R116) and QUEUE_QUERY (R121). -/

namespace Sys2Proof.Machine

/-! ## Seat records -/

/-- A trim as it is stored (R84, R85, R130, R147). -/
def clampTrim (x : Int) : Int := clampInt (-12) 12 x

/-- SEAT_SET (R84). -/
def handleSeatSet (body : List Byte) (s : State) : State × Answer :=
  withBody s (readSeatSet body) fun x =>
    if !(seatNumberOk x.seat) then refuse s .badValue
    else if !(segmentOk x.segment) then refuse s .badValue
    else
      (s.setSeat x.seat { s.seat x.seat with
        installed := x.installed, cls := x.cls, segment := x.segment, trim := clampTrim x.trim },
        .okClamped (clampTrim x.trim ≠ x.trim) .nothing)

/-- SEAT_SET. -/
def execSeatSet (tag : Byte) (body : List Byte) (s : State) : Host.Outcome State Fault Refusal :=
  .next (s.request 0x03 tag body .config handleSeatSet)

/-- SEAT_TRIM (R85). -/
def handleSeatTrim (body : List Byte) (s : State) : State × Answer :=
  withBody s (readSeatTrim body) fun x =>
    s.onSeat x.1 fun seat =>
      (s.setSeat x.1 { seat with trim := clampTrim x.2 }, .okClamped (clampTrim x.2 ≠ x.2) .nothing)

/-- SEAT_TRIM. -/
def execSeatTrim (tag : Byte) (body : List Byte) (s : State) : Host.Outcome State Fault Refusal :=
  .next (s.request 0x17 tag body .run handleSeatTrim)

/-- What SEAT_QUERY reads (R86). -/
def State.seatReport (s : State) (n : Nat) : SeatReport :=
  let x := s.seat n
  let u := s.unit (seatBus n) (seatAddress n)
  { seat := n, installed := x.installed, cls := x.cls, segment := x.segment, trim := x.trim, presence := u.presence,
    reported := u.reported, mic := x.mic, anchor := if x.installed then s.seatAnchor n else none, slot := x.slot,
    openingNumber := x.openingNumber, stamp := x.stamp, clock := x.clock.map Clock.seconds, grant := x.grant,
    warned := x.warned, limitReported := x.limitReported, muted := x.muted, pendingPress := x.pendingPress,
    holdOffLeft := x.holdOff.map (fun k => Config.holdOffBlocks - k), indication := x.indication, rank := s.rank n,
    blocked := s.blocked n }

/-- SEAT_QUERY (R86). -/
def handleSeatQuery (body : List Byte) (s : State) : State × Answer :=
  withBody s (readSeat body) fun n =>
    if seatNumberOk n then (s, .ok (.seatReport (s.seatReport n))) else refuse s .badValue

/-- SEAT_QUERY. -/
def execSeatQuery (tag : Byte) (body : List Byte) (s : State) : Host.Outcome State Fault Refusal :=
  .next (s.request 0x18 tag body .both handleSeatQuery)

/-! ## Opening and closing -/

/-- The grant limit that a duration gives (R97). -/
def clampGrant (n : Nat) : Nat := clampNat 10 3600 n

/-- A seat's room is IN_SESSION. -/
def State.seatInSession (s : State) (n : Nat) : Bool := (s.seatRoom n).map Room.session = some .inSession

/-- MIC_OPEN (R97). -/
def handleMicOpen (body : List Byte) (s : State) : State × Answer :=
  withBody s (readMicOpen body) fun x =>
    s.onSeat x.1 fun seat =>
      if !(s.seatInSession x.1) then refuse s .wrongState
      else if seat.mic ≠ .idle && seat.mic ≠ .queued then refuse s .wrongState
      else
        match s.openTest x.1 with
        | some f => refuse s f.status
        | none =>
          let t := s.enterOpening x.1 .host (x.2.map clampGrant)
          (t, .okClamped (x.2 ≠ x.2.map clampGrant) (.slotTaken (t.seat x.1).slot))

/-- MIC_OPEN. -/
def execMicOpen (tag : Byte) (body : List Byte) (s : State) : Host.Outcome State Fault Refusal :=
  .next (s.request 0x11 tag body .run handleMicOpen)

/-- MIC_CLOSE (R98). -/
def handleMicClose (body : List Byte) (s : State) : State × Answer :=
  withBody s (readSeat body) fun n =>
    s.onSeat n fun seat =>
      match seat.mic with
      | .queued => (s.withdraw n .host, .ok .nothing)
      | .opening | .live => ((s.enterClosing n .host).promoteSeat n, .ok .nothing)
      | _ => refuse s .wrongState

/-- MIC_CLOSE. -/
def execMicClose (tag : Byte) (body : List Byte) (s : State) : Host.Outcome State Fault Refusal :=
  .next (s.request 0x12 tag body .run handleMicClose)

/-! ## The queue -/

/-- REQUEST_ADD (R99 (1), R113). -/
def handleRequestAdd (body : List Byte) (s : State) : State × Answer :=
  withBody s (readSeat body) fun n =>
    s.onSeat n fun seat =>
      if seat.cls = .chair then refuse s .badValue
      else
        match s.seatRoom n with
        | none => refuse s .wrongState
        | some r =>
          if r.session ≠ .inSession then refuse s .wrongState
          else if seat.mic ≠ .idle then refuse s .wrongState
          else if s.blocked n then refuse s .blocked
          else if s.queueFull r then refuse s .queueFull
          else
            let t := (s.joinQueue n .host).promote r.anchor
            (t, .ok (.mic (t.seat n).mic))

/-- REQUEST_ADD. -/
def execRequestAdd (tag : Byte) (body : List Byte) (s : State) : Host.Outcome State Fault Refusal :=
  .next (s.request 0x13 tag body .run handleRequestAdd)

/-- REQUEST_CANCEL (R99 (2)). -/
def handleRequestCancel (body : List Byte) (s : State) : State × Answer :=
  withBody s (readSeat body) fun n =>
    s.onSeat n fun seat =>
      if seat.cls = .chair then refuse s .badValue
      else if seat.mic = .queued then (s.withdraw n .host, .ok .nothing)
      else refuse s .wrongState

/-- REQUEST_CANCEL. -/
def execRequestCancel (tag : Byte) (body : List Byte) (s : State) : Host.Outcome State Fault Refusal :=
  .next (s.request 0x14 tag body .run handleRequestCancel)

/-- The seat with the lowest number of those given, where `f` gives a number (R106). -/
def lowestBy (f : Nat → Nat) : List Nat → Option Nat
  | [] => none
  | n :: ns =>
    match lowestBy f ns with
    | none => some n
    | some m => if f m < f n then some m else some n

/-- The delegate that NEXT REPLACE closes (R106): the LIVE one with the lowest live number, or else the OPENING one with the
lowest opening number. -/
def State.replaced (s : State) (r : Room) : Option Nat :=
  let delegates := r.live.filter (fun n => (s.seat n).cls = .delegate)
  match lowestBy (fun n => ((s.seat n).liveNumber).getD 0) (delegates.filter (fun n => (s.seat n).mic = .live)) with
  | some n => some n
  | none => lowestBy s.openingOf (delegates.filter (fun n => (s.seat n).mic = .opening))

/-- The candidate of NEXT enters OPENING, and the reply names it (R106). -/
def State.serveNext (s : State) (a : Nat) (e : Entry) : State × Answer :=
  (s.takeCandidate a e .next, .ok (.promoted a e.seat none))

/-- NEXT REPLACE in a room exactly at its limit (R106): the close, the candidate, and then promotion. -/
def State.replaceNext (s : State) (a : Nat) (e : Entry) (victim : Nat) : State × Answer :=
  (((s.enterClosing victim .replaced).takeCandidate a e .next).promote a, .ok (.promoted a e.seat (some victim)))

/-- NEXT (R106). -/
def handleNext (body : List Byte) (s : State) : State × Answer :=
  withBody s (readNext body) fun x =>
    s.inRoom x.1 fun r =>
      if r.session ≠ .inSession then refuse s .wrongState
      else if r.closing then refuse s .atLimit
      else if r.queue = [] then refuse s .queueEmpty
      else
        match s.candidate r with
        | none => refuse s .busFull
        | some e =>
          if s.floor.openingCount = Config.allOnes32 then refuse s .atLimit
          else if s.delegateCount r < r.profile.openLimit then s.serveNext r.anchor e
          else if x.2 && s.delegateCount r = r.profile.openLimit then
            match s.replaced r with
            | none => refuse s .atLimit
            | some n => s.replaceNext r.anchor e n
          else refuse s .atLimit

/-- NEXT. -/
def execNext (tag : Byte) (body : List Byte) (s : State) : Host.Outcome State Fault Refusal :=
  .next (s.request 0x15 tag body .run handleNext)

/-- QUEUE_CLEAR (R116): the reply carries the number of entries that the queue held (log 32). -/
def handleQueueClear (body : List Byte) (s : State) : State × Answer :=
  withBody s (readSegment body) fun k =>
    s.inRoom k fun r => (s.emptyQueue r.anchor .queueClear, .ok (.cleared r.anchor r.queue.length))

/-- QUEUE_CLEAR. -/
def execQueueClear (tag : Byte) (body : List Byte) (s : State) : Host.Outcome State Fault Refusal :=
  .next (s.request 0x16 tag body .run handleQueueClear)

/-- An entry as QUEUE_QUERY reads it (R121). -/
def State.queueRow (s : State) (e : Entry) : QueueRow :=
  { seat := e.seat, stamp := e.stamp, segment := e.segment, rank := s.rank e.seat, eligible := s.eligible e }

/-- QUEUE_QUERY (R121). -/
def handleQueueQuery (body : List Byte) (s : State) : State × Answer :=
  withBody s (readQueueQuery body) fun x =>
    s.inRoom x.1 fun r =>
      if x.2 < 1 || 32 < x.2 then refuse s .badValue
      else
        (s, .ok (.queueReport r.anchor r.profile.service r.rotation r.queue.length ((s.candidate r).map Entry.seat)
          (((r.queue.drop (x.2 - 1)).take 16).map s.queueRow)))

/-- QUEUE_QUERY. -/
def execQueueQuery (tag : Byte) (body : List Byte) (s : State) : Host.Outcome State Fault Refusal :=
  .next (s.request 0x19 tag body .run handleQueueQuery)

end Sys2Proof.Machine
end

