-- ==== Sys2Proof/Machine/BoothRequests.lean ====
section
/-! DEFINITION. The requests of chapter 7: BOOTH_SET (R130), BOOTH_SOURCE (R146), BOOTH_TRIM (R147), BOOTH_OFF (R140) and
BOOTH_QUERY (R148). -/

namespace Sys2Proof.Machine

/-- A source's relay code is this code. -/
def Source.relays (x : Source) (code : Nat) : Bool := x = .relay code

/-- The checks of R130. -/
def BoothFields.fit (x : BoothFields) : Bool :=
  boothOk x.booth && segmentOk x.home && 1 ≤ x.language && x.language ≤ 63 && x.source.inRange &&
    !(x.source.relays x.language) && (x.count = 1 || x.count = 2)

/-- BOOTH_SET (R130). -/
def handleBoothSet (body : List Byte) (s : State) : State × Answer :=
  withBody s (readBoothSet body) fun x =>
    if x.fit then
      (s.setBooth x.booth { installed := x.installed, home := x.home, language := x.language, source := x.source,
                            count := x.count, trim := clampTrim x.trim, listen := x.source.restListen },
        .okClamped (clampTrim x.trim ≠ x.trim) .nothing)
    else refuse s .badValue

/-- BOOTH_SET. -/
def execBoothSet (tag : Byte) (body : List Byte) (s : State) : Host.Outcome State Fault Refusal :=
  .next (s.request 0x04 tag body .config handleBoothSet)

/-- A booth's source becomes this, and the booths of its room are recomputed (R146, R145). -/
def State.resource (s : State) (b : Nat) (source : Source) : State :=
  let t := s.setBooth b { s.boothAt b with source := source }
  match t.boothAnchor b with
  | none => t.relisten b
  | some a => t.relistenIn (t.segmentsOf a)

/-- BOOTH_SOURCE (R146). -/
def handleBoothSource (body : List Byte) (s : State) : State × Answer :=
  withBody s (readBoothSource body) fun x =>
    if !(x.2.inRange) then refuse s .badValue
    else
      s.onBooth x.1 fun booth =>
        if x.2.relays booth.language then refuse s .badValue
        else (s.resource x.1 x.2, .ok (.listen ((s.resource x.1 x.2).boothAt x.1).listen))

/-- BOOTH_SOURCE. -/
def execBoothSource (tag : Byte) (body : List Byte) (s : State) : Host.Outcome State Fault Refusal :=
  .next (s.request 0x1A tag body .run handleBoothSource)

/-- BOOTH_TRIM (R147). -/
def handleBoothTrim (body : List Byte) (s : State) : State × Answer :=
  withBody s (readBoothTrim body) fun x =>
    s.onBooth x.1 fun booth =>
      (s.setBooth x.1 { booth with trim := clampTrim x.2 }, .okClamped (clampTrim x.2 ≠ x.2) .nothing)

/-- BOOTH_TRIM. -/
def execBoothTrim (tag : Byte) (body : List Byte) (s : State) : Host.Outcome State Fault Refusal :=
  .next (s.request 0x1B tag body .run handleBoothTrim)

/-- The console of a booth that owns a channel (R132). -/
def State.boothOwner (s : State) (b : Nat) : Option Nat := [2 * b - 1, 2 * b].find? (fun c => (s.console c).owned.isSome)

/-- BOOTH_OFF (R140). -/
def handleBoothOff (body : List Byte) (s : State) : State × Answer :=
  withBody s (readByte body) fun b =>
    s.onBooth b fun _ =>
      match s.boothOwner b with
      | none => refuse s .wrongState
      | some c => ((s.release c .host none).consoleWork c, .ok (.console c))

/-- BOOTH_OFF. -/
def execBoothOff (tag : Byte) (body : List Byte) (s : State) : Host.Outcome State Fault Refusal :=
  .next (s.request 0x1C tag body .run handleBoothOff)

/-- A console as BOOTH_QUERY reads it (R148). -/
def State.consoleReport (s : State) (c : Nat) : ConsoleReport :=
  { address := c, presence := (s.unit 4 c).presence, reported := (s.unit 4 c).reported, state := (s.console c).state,
    owned := (s.console c).owned, cough := (s.console c).cough, indication := (s.console c).indication }

/-- The pivot channel of a RELAY source and its owner (R148, R144), none where there is no such channel. -/
def State.pivot (s : State) (b : Nat) : Option (Key × Option Nat) :=
  match (s.boothAt b).source, s.boothAnchor b with
  | .relay code, some a => if s.hasChannel ⟨a, code⟩ then some (⟨a, code⟩, s.ownerOf ⟨a, code⟩) else none
  | _, _ => none

/-- The channel of a booth's room and language: its service and whether it is on fill (R148). -/
def State.boothChannel (s : State) (b : Nat) : Option (Service × Bool) :=
  match s.boothAnchor b with
  | none => none
  | some a =>
    let key : Key := ⟨a, (s.boothAt b).language⟩
    if s.hasChannel key then some (s.service key, s.onFill key) else none

/-- What BOOTH_QUERY reads (R148). -/
def State.boothReport (s : State) (b : Nat) : BoothReport :=
  let x := s.boothAt b
  { booth := b, installed := x.installed, home := x.home, language := x.language, source := x.source, count := x.count,
    trim := x.trim, anchor := s.boothAnchor b, listen := x.listen, pivot := s.pivot b,
    consoles := (if x.count = 2 then [2 * b - 1, 2 * b] else [2 * b - 1]).map s.consoleReport,
    channel := s.boothChannel b }

/-- BOOTH_QUERY (R148). -/
def handleBoothQuery (body : List Byte) (s : State) : State × Answer :=
  withBody s (readByte body) fun b =>
    if boothOk b then (s, .ok (.boothReport (s.boothReport b))) else refuse s .badValue

/-- BOOTH_QUERY. -/
def execBoothQuery (tag : Byte) (body : List Byte) (s : State) : Host.Outcome State Fault Refusal :=
  .next (s.request 0x1D tag body .both handleBoothQuery)

end Sys2Proof.Machine
end

