-- ==== Sys2Proof/Machine/Boundary.lean ====
section
/-! DEFINITION. The block boundary: what it ends, what it counts, and what it forms for the block that begins (R6, R31, R61,
R95, R107, R160, R165, R169, R178, R187, R193). -/

namespace Sys2Proof.Machine

/-- The bus numbers. -/
def busNumbers : List Nat := [0, 1, 2, 3, 4]

/-- What the last boundary left due is carried out before the next (log 6), and then the exchanges still unanswered are missed,
and STOP is complete if they were the last (R64, R81). -/
def State.finishDue (s : State) : State := (busNumbers.foldl State.lapse s.catchUp).completeStop

/-- The block that ends is heard (R177, R179), and a floor that saturated in it gives one CLIP event (R178). At a boundary that
is a second boundary as well, its occurrences fall in the second that ends there: DESIGN CHOICE (log 44), R187 lets them
fall on either side. They are counted, with the notice and the blocking of an overflow, before the ramps end there with
LEVEL_SETTLED and before a settling event merges or splits rooms there: DESIGN CHOICE (log 54), the spec does not order them. -/
def State.closeBlock (s : State) (audio : List Upstream) : State :=
  let p := s.mix.plan
  let t := { s with mix := { s.mix with heard := mixBlock p audio } }
  if s.link.phase = .run then
    ((p.voices.filter (floorClips p audio)).foldl
      (fun u a => u.raise { event := .clip, segment := a, bus := none, seat := none }) t).settleCounts
  else t

/-- The level of a sense input (11.7): low is CONTACT_CLOSED, high is CONTACT_OPEN. -/
def contactAt (sense : BitVec 16) (p : Nat) : Contact := if sense.getLsbD (p - 1) then .opened else .closed

/-- Every sense input is sampled (R6). -/
def State.sampleInputs (s : State) (sense : BitVec 16) : State :=
  inputNumbers.foldl (fun t p => t.setSettling p ((t.settling p).sample (contactAt sense p))) s

/-- The frame timer counts the boundary (R193 (3)). -/
def State.tickFrame (s : State) : State :=
  match s.link.receiver with
  | .hunting => s
  | .inFrame bytes n => s.setReceiver (.inFrame bytes (n + 1))

/-- A room timer counts the boundary (R31). -/
def Room.tick (r : Room) : Room :=
  match r.session, r.timer with
  | .armed, some t =>
    if t.seconds = 0 then r
    else if t.blocks + 1 = Config.blocksPerSecond then { r with timer := some { seconds := t.seconds - 1, blocks := 0 } }
    else { r with timer := some { t with blocks := t.blocks + 1 } }
  | _, _ => r

/-- A hold-off or a speaking clock counts the boundary (R95, R107). -/
def Seat.tick (x : Seat) : Seat :=
  match x.mic with
  | .holdOff =>
    match x.holdOff with
    | none => x
    | some k => if Config.holdOffBlocks ≤ k + 1 then { x with holdOffDue := true } else { x with holdOff := some (k + 1) }
  | .live =>
    match x.clock with
    | none => x
    | some c =>
      if c.blocks + 1 = Config.blocksPerSecond then
        { x with clock := some { seconds := c.seconds + 1, blocks := 0 }, secondDue := true }
      else { x with clock := some { c with blocks := c.blocks + 1 } }
  | _ => x

/-- A room counts the boundary and steps its ramp (R31, R169). Where the boundary is one at which RESTART takes effect, no ramp
ends there: what is in progress is abandoned, without a notice (R171, R180). -/
def Room.cross (restart : Bool) (r : Room) : Room :=
  let x := r.tick.stepRamp
  { x with settleDue := x.settleDue && !restart }

/-- Every room counts the boundary and steps its ramp. A waiting RESTART takes effect at this boundary (R201). -/
def State.tickRooms (s : State) : State :=
  { s with hall := { s.hall with
      rooms := s.hall.rooms.map (fun x => (x.1, x.2.map (Room.cross (!s.link.restarts.isEmpty)))) } }

/-- The counter unit counts the boundary (R187). -/
def CounterUnit.tick (c : CounterUnit) : CounterUnit :=
  match c.blocks with
  | none => c
  | some b =>
    if b + 1 = Config.blocksPerSecond then { c with blocks := some 0, secondDue := true } else { c with blocks := some (b + 1) }

/-- A bus frame begins in RUN: its control window opens (R61, R71). -/
def State.openWindow (s : State) (i : Nat) : State :=
  s.setBus i { s.bus i with begun := 0, missed := [], exchange := none }

/-- A boundary in CONFIG at a bus (R81 (2)): the window after STOP opens, or the one that carried OFF ends and the power is
withdrawn. -/
def State.offWindow (s : State) (i : Nat) : State :=
  match (s.bus i).off with
  | .waiting => s.setBus i { s.bus i with off := .due, begun := 0 }
  | .sent => s.setBus i { s.bus i with off := .done, power := false, exchange := none }
  | _ => s

/-- What a boundary does in RUN (R165): counts, ramps, windows, what falls due, and the plan of the block that begins. The routes
are formed before the seat and room changes that fall due at this same boundary (a close by a speaking limit, a merge or split by
a settling event), which therefore act on the samples one block later: DESIGN CHOICE (log 50), R165 and R167 do not say on which
side of them the routes are formed. At a RESTART `State.takeRestart` forms them again (R180). -/
def State.tickRun (s : State) : State :=
  let t := s.tickRooms.eachSeat (fun _ x => x.tick)
  let u := busNumbers.foldl State.openWindow { t with counts := t.counts.tick }
  let v := { u with
    link := { u.link with restartDue := u.link.restarts.length }
    dist := { u.dist with switchDue := !u.mapWaiting && u.tablesDiffer } }
  v.setPlan v.formPlan

/-- What a boundary does in CONFIG (R61, R81, R165): the OFF windows, and no routes. -/
def State.tickConfig (s : State) : State := (busNumbers.foldl State.offWindow s).setPlan Plan.silent

/-- A block boundary. -/
def State.boundary (s : State) (sense : BitVec 16) (audio : List Upstream) : State :=
  let t := ((s.finishDue.closeBlock audio).sampleInputs sense).tickFrame
  match t.link.phase with
  | .run => t.tickRun
  | .config => t.tickConfig

end Sys2Proof.Machine
end

