-- ==== Sys2Proof/Machine/Events.lean ====
section
/-! DEFINITION. The commands that are not requests: the pins (R202), the link's events (R193, R194, R197), the completions of
STOP and RESTART (R81, R201), the events of the block clock, and the exchanges of the buses (R64 to R74). -/

namespace Sys2Proof.Machine

/-! ## Pins (R202) -/

/-- While the RESET pin is held low the part sends nothing (R202): what would be the frame being sent waits at the head of the
notice queue. -/
def LinkUnit.startedLow (cause : ReadyCause) (rate1 rate0 : Bool) : LinkUnit :=
  { LinkUnit.started cause rate1 rate0 with
    notices := [.ready cause .config Config.revision], sequence := 0, sending := none }

/-- Power is applied (R202). The RESET pin is not touched: where it is held low, the part stays held. -/
def State.powerOn (s : State) (rate1 rate0 : Bool) : State :=
  let t := State.started .power rate1 rate0 s.pending
  if s.resetLow then { t with resetLow := true, link := LinkUnit.startedLow .power rate1 rate0 } else t

/-- POWER_ON (R202). -/
def execPowerOn (rate1 rate0 : Bool) (s : State) : Host.Outcome State Fault Refusal := .next (s.powerOn rate1 rate0)

/-- The RESET pin goes low (R202): the frame being sent is cut off. -/
def State.holdReset (s : State) : State := { s with resetLow := true, link := { s.link with sending := none } }

/-- RESET_ASSERT (R202). -/
def execResetAssert (s : State) : Host.Outcome State Fault Refusal := .next s.holdReset

/-- RESET_RELEASE (R202). A pin that is not low cannot return high. -/
def execResetRelease (rate1 rate0 : Bool) (s : State) : Host.Outcome State Fault Refusal :=
  .next (if s.resetLow then State.started .pin rate1 rate0 s.pending else s)

/-! ## The link -/

/-- INPUT_FULL (R194): a whole request frame completes. -/
def execInputFull (kind tag : Byte) (body : List Byte) (s : State) : Host.Outcome State Fault Refusal :=
  .next (s.upToDate fun t => t.frameArrives { kind := kind, tag := tag, body := body })

/-- REQUEST_FRAME_QUEUED (R194): a whole request frame completes. -/
def execRequestFrameQueued (kind tag : Byte) (body : List Byte) (s : State) : Host.Outcome State Fault Refusal :=
  .next (s.upToDate fun t => t.frameArrives { kind := kind, tag := tag, body := body })

/-- The LINK_ERROR cause of a discard (R193). -/
def linkCauseOf : DiscardCause → LinkCause
  | .badCheck => .check
  | .badLength => .length
  | .badCharacter => .character

/-- LINK_FRAME_DISCARD (R193). -/
def execLinkFrameDiscard (cause : DiscardCause) (received : Nat) (s : State) : Host.Outcome State Fault Refusal :=
  .next (s.upToDate fun t => t.discard (linkCauseOf cause) received)

/-- LINK_FRAME_TIMEOUT (R193 (3)). -/
def execLinkFrameTimeout (s : State) : Host.Outcome State Fault Refusal := .next (s.whenDue State.timeout)

/-- LINK_CHARACTER_RECEIVED (R193). -/
def execLinkCharacterReceived (char : Byte) (stopHigh : Bool) (s : State) : Host.Outcome State Fault Refusal :=
  .next (s.upToDate fun t => t.receive char stopHigh)

/-- The frame being sent has ended, and the next begins (R197). -/
def State.sent (s : State) : State :=
  match s.link.sending with
  | none => s
  | some _ => { s with link := s.link.startNext }

/-- FRAME_SENT (R197). -/
def execFrameSent (s : State) : Host.Outcome State Fault Refusal := .next (s.upToDate State.sent)

/-! ## Completions -/

/-- STOP_COMPLETE (R81, R200). -/
def execStopComplete (s : State) : Host.Outcome State Fault Refusal := .next (s.whenDue State.completeStop)

/-- RESTART_TAKES_EFFECT (R201). -/
def execRestartTakesEffect (s : State) : Host.Outcome State Fault Refusal := .next (s.whenDue State.restartIfDue)

/-! ## The block clock -/

/-- A number of a sense input, 1 to 16. -/
def inputOk (p : Nat) : Bool := 1 ≤ p && p ≤ 16

/-- SETTLING_EVENT (R6 (4), R7). -/
def execSettlingEvent (input : Nat) (s : State) : Host.Outcome State Fault Refusal :=
  .next (s.whenDue fun t => if inputOk input then t.settleIfDue input else t)

/-- BLOCK_BOUNDARY (R165). -/
def execBlockBoundary (sense : BitVec 16) (audio : List Upstream) (s : State) : Host.Outcome State Fault Refusal :=
  .next (s.whileUp fun t => t.boundary sense audio)

/-- TABLE_SWITCH (R160). -/
def execTableSwitch (s : State) : Host.Outcome State Fault Refusal := .next (s.whileUp State.switchIfDue)

/-- ROOM_TIMER_EXPIRY (R31). -/
def execRoomTimerExpiry (s : State) : Host.Outcome State Fault Refusal := .next (s.whenDue State.nextTimer)

/-- HOLD_OFF_END (R95). -/
def execHoldOffEnd (s : State) : Host.Outcome State Fault Refusal := .next (s.whenDue State.nextHoldOff)

/-- SPEAKING_CLOCK_SECOND (R108). -/
def execSpeakingClockSecond (s : State) : Host.Outcome State Fault Refusal := .next (s.whenDue State.nextClock)

/-- RAMP_SETTLE (R169 (2), R171). -/
def execRampSettle (s : State) : Host.Outcome State Fault Refusal := .next (s.whileUp State.nextRamp)

/-- SECOND_BOUNDARY (R187). -/
def execSecondBoundary (s : State) : Host.Outcome State Fault Refusal := .next (s.whenDue State.secondIfDue)

/-! ## The buses -/

/-- Exchange 1 of the window after STOP carries OFF to address 0 (R81 (2)). -/
def State.sendOff (s : State) (i : Nat) : State :=
  let t := s.carry i (some { address := 0, command := .off, awaiting := false })
  t.setBus i { t.bus i with off := .sent }

/-- An exchange of a bus begins (R71): one still unanswered is missed first (R64; log 8). In CONFIG there is a window for the
OFF broadcast only (R81). -/
def State.beginExchange (s : State) (i : Nat) : State :=
  let t := s.lapse i
  match t.link.phase with
  | .run => t.arbitrate i
  | .config => if (t.bus i).off = .due then t.sendOff i else t

/-- BUS_EXCHANGE (R71). -/
def execBusExchange (bus : BusId) (s : State) : Host.Outcome State Fault Refusal :=
  .next (s.upToDate fun t => t.beginExchange bus.index)

/-- An answer reaches the exchange that awaits one (R64, R73); where none does, it is not heard (log 8). -/
def State.hear (s : State) (i : Nat) (acked : Option AckOf) (presses : Nat) (held : Bool) (cls : UnitClass) : State :=
  match s.awaited i with
  | none => s
  | some x => s.answered i x acked presses held cls

/-- UNIT_REPLY_STATUS (R66, R67). -/
def execUnitReplyStatus (bus : BusId) (presses : BitVec 2) (held : Bool) (cls : UnitClass) (s : State) :
    Host.Outcome State Fault Refusal :=
  .next (s.upToDate fun t => t.hear bus.index none presses.toNat held cls)

/-- UNIT_REPLY_ACK (R67). -/
def execUnitReplyAck (bus : BusId) (acked : AckOf) (presses : BitVec 2) (held : Bool) (cls : UnitClass) (s : State) :
    Host.Outcome State Fault Refusal :=
  .next (s.upToDate fun t => t.hear bus.index (some acked) presses.toNat held cls)

/-- EXCHANGE_MISSED (R74). -/
def execExchangeMissed (bus : BusId) (s : State) : Host.Outcome State Fault Refusal :=
  .next (s.upToDate fun t => t.lapse bus.index)

end Sys2Proof.Machine
end

