-- ==== Sys2Proof/Machine/GroupRequests.lean ====
section
/-! DEFINITION. GROUP_SET (R124 to R127). -/

namespace Sys2Proof.Machine

/-- A group number of 1 to 16. -/
def groupOk (g : Nat) : Bool := 1 ≤ g && g ≤ 16

/-- The blocking of a group is in force (R122). -/
def Group.inForce (x : Group) : Bool := x.installed && x.blocked

/-- A dropped seat whose blocking was HOST's (R125): an entry that an overflow has dropped already is not dropped again. -/
def State.dropBlocked (s : State) (n : Nat) : State :=
  if (s.seat n).mic = .queued then (s.drop n .blocked).settleCounts else s

/-- The notice of a blocking that comes into force or ceases to be (R125, R126). Its count is of the seats that the NEW record
takes, counted as if the group were installed (R124): DESIGN CHOICE (log 41), since R126 does not say which record counts
for a group that is uninstalled or changed by the same request. -/
def State.noteForce (s : State) (g : Nat) (old new : Group) : State :=
  if old.inForce = new.inForce then s else s.noteGroup g new.inForce .host

/-- The installed seats whose blocking is not the same in `s` and `t`, ascending. -/
def changedBlocking (s t : State) : List Nat :=
  tkeys (fun n x => x.installed && t.blocked n ≠ s.blocked n) t.floor.seats

/-- The work of GROUP_SET in RUN (R124 to R126), from the state `t` that holds the new record: the drops of the newly blocked
QUEUED seats, the indications of the seats concerned, and promotion in every room where blocking has ended. Where one
request blocks some seats and frees others, their indications are formed in one pass, so that they fall due in ascending
address (R69): DESIGN CHOICE (log 42), since R125 and R126 do not say whether that is one step or two. -/
def State.regroup (s t : State) (g : Nat) : State :=
  let freed := newlyBlocked t s
  let u := (t.queuedAmong (newlyBlocked s t)).foldl State.dropBlocked t
  let v := u.reformAll (changedBlocking s t)
  if freed ≠ [] || ((s.group g).inForce && !(t.group g).inForce) then v.anchors.foldl State.promote v else v

/-- A group record is written, with what it brings (R124). -/
def State.writeGroup (s : State) (g : Nat) (x : Group) : State :=
  let t := (s.setGroup g x).noteForce g (s.group g) x
  if s.link.phase = .run then s.regroup t g else t

/-- GROUP_SET (R124). The reply carries the record as the request stored it. -/
def handleGroupSet (body : List Byte) (s : State) : State × Answer :=
  withBody s (readGroupSet body) fun x =>
    if !(groupOk x.1) then refuse s .badValue
    else if 1023 < x.2.base || 1023 < x.2.mask then refuse s .badValue
    else if 3 < x.2.rank then refuse s .badValue
    else (s.writeGroup x.1 x.2, .ok (.group x.1 x.2 ((s.setGroup x.1 x.2).memberCount x.1)))

/-- GROUP_SET. -/
def execGroupSet (tag : Byte) (body : List Byte) (s : State) : Host.Outcome State Fault Refusal :=
  .next (s.request 0x1F tag body .both handleGroupSet)

end Sys2Proof.Machine
end

