-- ==== Sys2Proof/Machine/HallRequests.lean ====
section
/-! DEFINITION. The requests of chapter 1: SEGMENT_SET (R2), PARTITION_SET (R4) and PARTITION_DECLARE (R5). -/

namespace Sys2Proof.Machine

/-- SEGMENT_SET (R2): the record is written whole. -/
def handleSegmentSet (body : List Byte) (s : State) : State × Answer :=
  withBody s (readSegmentSet body) fun x =>
    if segmentOk x.1 then (s.setSegment x.1 x.2.1, .okClamped x.2.2 .nothing) else refuse s .badValue

/-- SEGMENT_SET. -/
def execSegmentSet (tag : Byte) (body : List Byte) (s : State) : Host.Outcome State Fault Refusal :=
  .next (s.request 0x01 tag body .config handleSegmentSet)

/-- A partition number of 1 to 16. -/
def partitionOk (p : Nat) : Bool := 1 ≤ p && p ≤ 16

/-- Another installed partition has this pair of ends, in either order (R4 (4)). -/
def State.pairTaken (s : State) (x : PartitionFields) : Bool :=
  s.hall.partitions.any (fun y => y.1 ≠ x.partition && y.2.installed &&
    ((y.2.a = x.a && y.2.b = x.b) || (y.2.a = x.b && y.2.b = x.a)))

/-- The checks of R4 (1) to (4). -/
def State.partitionFits (s : State) (x : PartitionFields) : Bool :=
  partitionOk x.partition && segmentOk x.a && segmentOk x.b && !(x.installed && (x.a = x.b || s.pairTaken x))

/-- PARTITION_SET (R4): the four fields, then the effective state and the mismatch flag. -/
def handlePartitionSet (body : List Byte) (s : State) : State × Answer :=
  withBody s (readPartitionSet body) fun x =>
    if s.partitionFits x then
      ((s.setPartition x.partition { s.partition x.partition with
        installed := x.installed, a := x.a, b := x.b, fitted := x.fitted }).rederive x.partition, .ok .nothing)
    else refuse s .badValue

/-- PARTITION_SET. -/
def execPartitionSet (tag : Byte) (body : List Byte) (s : State) : Host.Outcome State Fault Refusal :=
  .next (s.request 0x02 tag body .config handlePartitionSet)

/-- The declared state of a partition becomes this (R5 (3)): nothing else happens where it was so already. -/
def State.declare (s : State) (p : Nat) (wall : Wall) : State :=
  if (s.partition p).declared = wall then s
  else (s.setPartition p { s.partition p with declared := wall }).rederive p

/-- What the reply to PARTITION_DECLARE carries (R5). -/
def State.wallContents (s : State) (p : Nat) : Contents :=
  .partition p (s.partition p).declared (s.partition p).sensed (s.partition p).effective

/-- PARTITION_DECLARE (R5). -/
def handlePartitionDeclare (body : List Byte) (s : State) : State × Answer :=
  withBody s (readPartitionDeclare body) fun x =>
    if !(partitionOk x.1) then refuse s .badValue
    else if !(s.partition x.1).installed then refuse s .notInstalled
    else (s.declare x.1 x.2, .ok ((s.declare x.1 x.2).wallContents x.1))

/-- PARTITION_DECLARE. -/
def execPartitionDeclare (tag : Byte) (body : List Byte) (s : State) : Host.Outcome State Fault Refusal :=
  .next (s.request 0x08 tag body .both handlePartitionDeclare)

end Sys2Proof.Machine
end

