-- ==== Sys2Proof/Machine/RoomRequests.lean ====
section
/-! DEFINITION. The requests of chapter 2: ROOM_SET (R22, R23), LEVEL_SET (R24, R170), LANGUAGES_SET (R25), the session
requests (R27 to R29, R34) and ROOM_QUERY (R26). -/

namespace Sys2Proof.Machine

/-! ## Settings -/

/-- A selection word that ROOM_SET refuses (R22, R205): it marks the level request, the language set, or nothing. -/
def selectionRefused (word : Nat) : Bool :=
  selection word 11 || selection word 14 || !(fieldNumbers.any (selection word))

/-- A new profile lets promotion run (R105): the floor mode, the overflow or the open limit has changed. -/
def Profile.mayPromote (old new : Profile) : Bool :=
  old.floorMode ≠ new.floorMode || old.overflow ≠ new.overflow || old.openLimit ≠ new.openLimit

/-- A room takes a new profile, with its effects on the floor (R22, R23). -/
def State.setProfile (s : State) (r : Room) (p : Profile) : State :=
  let t := s.modRoom r.anchor (fun x => { x with profile := p })
  if r.profile.mayPromote p then t.promote r.anchor else t

/-- ROOM_SET (R22). The coded bytes of the selected fields are checked first (R195 (3)), then the room (R12), then the
selection (R22). -/
def handleRoomSet (body : List Byte) (s : State) : State × Answer :=
  withBody s (readRoomSet body) fun x =>
    match profileFrom (fun k => selection x.2.1 k && k ≠ 14) Profile.defaults x.2.2 with
    | none => refuse s .badValue
    | some _ =>
      s.inRoom x.1 fun r =>
        if selectionRefused x.2.1 then refuse s .badValue
        else
          match profileFrom (selection x.2.1) r.profile x.2.2 with
          | none => refuse s .badValue
          | some p => (s.setProfile r p, .okClamped (profileClamps (selection x.2.1) x.2.2) (.room r.anchor))

/-- ROOM_SET. -/
def execRoomSet (tag : Byte) (body : List Byte) (s : State) : Host.Outcome State Fault Refusal :=
  .next (s.request 0x09 tag body .run handleRoomSet)

/-- A room with a new level request (R24, R170 (1)): a changed target that the effective level does not meet starts or turns
a ramp. -/
def Room.withRequest (r : Room) (level : Int) : Room :=
  let target := min level r.ceiling
  { r with
    profile := { r.profile with level := level }
    ramp := if target ≠ r.target && r.level ≠ target then .ramping else r.ramp }

/-- LEVEL_SET (R24). -/
def handleLevelSet (body : List Byte) (s : State) : State × Answer :=
  withBody s (readLevelSet body) fun x =>
    s.inRoom x.1 fun r =>
      let level := clampInt (-120) 0 x.2
      let t := r.withRequest level
      (s.setRoom r.anchor (some t),
        .okClamped (level ≠ x.2) (.levels r.anchor level t.ceiling t.target t.level))

/-- LEVEL_SET. -/
def execLevelSet (tag : Byte) (body : List Byte) (s : State) : Host.Outcome State Fault Refusal :=
  .next (s.request 0x0A tag body .run handleLevelSet)

/-- The language set of a room becomes this list. -/
def State.setLanguages (s : State) (a : Nat) (codes : List Nat) : State :=
  s.modRoom a (fun r => { r with profile := { r.profile with languages := codes } })

/-- The channels of an IN_SESSION room are brought in line with its new list (R25 (1) to (3)), with the maps and the listen
feeds. -/
def State.realign (s : State) (r : Room) (codes : List Nat) : State :=
  let removed := (r.profile.languages.filter (fun c => !(codes.contains c))).map (fun c => (⟨r.anchor, c⟩ : Key))
  let added := (codes.filter (fun c => !(r.profile.languages.contains c))).map (fun c => (⟨r.anchor, c⟩ : Key))
  let t := s.setLanguages r.anchor codes
  let u := (t.releaseOwners removed .languageRemoved).removeChannels removed
  ((u.makeChannels added).queueMaps r.segments).boothWork r.anchor

/-- The new language list of a room, by its session state (R25). -/
def State.relanguage (s : State) (r : Room) (codes : List Nat) : State :=
  if codes = r.profile.languages then s
  else if r.session = .inSession then s.realign r codes
  else s.setLanguages r.anchor codes

/-- LANGUAGES_SET (R25). -/
def handleLanguagesSet (body : List Byte) (s : State) : State × Answer :=
  withBody s (readLanguagesSet body) fun x =>
    s.inRoom x.1 fun r =>
      if !(languagesRight x.2) then refuse s .badValue
      else if r.session = .ending then refuse s .wrongState
      else (s.relanguage r x.2, .ok (.room r.anchor))

/-- LANGUAGES_SET. -/
def execLanguagesSet (tag : Byte) (body : List Byte) (s : State) : Host.Outcome State Fault Refusal :=
  .next (s.request 0x0B tag body .run handleLanguagesSet)

/-! ## Sessions -/

/-- SESSION_OPEN (R28). -/
def handleSessionOpen (body : List Byte) (s : State) : State × Answer :=
  withBody s (readSegment body) fun k =>
    s.inRoom k fun r =>
      if r.session = .dormant || r.session = .armed then
        (s.enterSession r.anchor .sessionOpen none, .ok (.room r.anchor))
      else refuse s .wrongState

/-- SESSION_OPEN. -/
def execSessionOpen (tag : Byte) (body : List Byte) (s : State) : Host.Outcome State Fault Refusal :=
  .next (s.request 0x0C tag body .run handleSessionOpen)

/-- A DORMANT room becomes ARMED (R27 (3), R36). -/
def State.arm (s : State) (r : Room) (wake : Wake) (seconds : Option Nat) : State :=
  (s.setRoom r.anchor (some { r with
    session := .armed, wake := wake, timer := seconds.map (fun n => { seconds := n, blocks := 0 }) })).note
    (.sessionState r.anchor r.session .armed .sessionArm none none)

/-- SESSION_ARM (R27). -/
def handleSessionArm (body : List Byte) (s : State) : State × Answer :=
  withBody s (readSessionArm body) fun x =>
    s.inRoom x.1 fun r =>
      if 16 ≤ x.2.1 then refuse s .badValue
      else if (wakeOf x.2.1).timer && x.2.2 = none then refuse s .badValue
      else if r.session ≠ .dormant then refuse s .wrongState
      else
        (s.arm r (wakeOf x.2.1) (x.2.2.map (clampNat 1 86400)),
          .okClamped (x.2.2 ≠ x.2.2.map (clampNat 1 86400)) (.room r.anchor))

/-- SESSION_ARM. -/
def execSessionArm (tag : Byte) (body : List Byte) (s : State) : Host.Outcome State Fault Refusal :=
  .next (s.request 0x0D tag body .run handleSessionArm)

/-- An ARMED room returns to DORMANT (R29, R36). -/
def State.disarm (s : State) (r : Room) : State :=
  (s.setRoom r.anchor (some { r with session := .dormant, wake := Wake.empty, timer := none })).note
    (.sessionState r.anchor r.session .dormant .sessionDisarm none none)

/-- SESSION_DISARM (R29). -/
def handleSessionDisarm (body : List Byte) (s : State) : State × Answer :=
  withBody s (readSegment body) fun k =>
    s.inRoom k fun r =>
      if r.session = .armed then (s.disarm r, .ok (.room r.anchor)) else refuse s .wrongState

/-- SESSION_DISARM. -/
def execSessionDisarm (tag : Byte) (body : List Byte) (s : State) : Host.Outcome State Fault Refusal :=
  .next (s.request 0x0E tag body .run handleSessionDisarm)

/-- SESSION_END (R34): the reply carries the session state that results. -/
def handleSessionEnd (body : List Byte) (s : State) : State × Answer :=
  withBody s (readSegment body) fun k =>
    s.inRoom k fun r =>
      if r.session = .inSession then
        (s.endSession r.anchor,
          .ok (.session r.anchor (((s.endSession r.anchor).session r.anchor).getD .dormant)))
      else refuse s .wrongState

/-- SESSION_END. -/
def execSessionEnd (tag : Byte) (body : List Byte) (s : State) : Host.Outcome State Fault Refusal :=
  .next (s.request 0x0F tag body .run handleSessionEnd)

/-! ## ROOM_QUERY -/

/-- What ROOM_QUERY reads (R26). A room timer that counts blocks of a second not yet over reads that second whole (R31). -/
def State.roomReport (s : State) (r : Room) : RoomReport :=
  { anchor := r.anchor, segments := r.segments, session := r.session, wake := r.wake,
    timer := r.timer.map RoomTimer.seconds, profile := r.profile, ceiling := r.ceiling, target := r.target,
    level := r.level, delegates := s.delegateCount r, chairs := s.chairCount r, openMics := s.openMics r,
    queued := r.queue.length, rotation := r.rotation, priority := r.priority,
    channels := r.profile.languages.map (fun c =>
      (c, if r.session.hasChannels then s.service ⟨r.anchor, c⟩ else .none)) }

/-- ROOM_QUERY (R26). -/
def handleRoomQuery (body : List Byte) (s : State) : State × Answer :=
  withBody s (readSegment body) fun k => s.inRoom k fun r => (s, .ok (.roomReport (s.roomReport r)))

/-- ROOM_QUERY. -/
def execRoomQuery (tag : Byte) (body : List Byte) (s : State) : Host.Outcome State Fault Refusal :=
  .next (s.request 0x10 tag body .run handleRoomQuery)

end Sys2Proof.Machine
end

