-- ==== Sys2Proof/Machine/SystemRequests.lean ====
section
/-! DEFINITION. SLOT_QUERY (R163), the counter requests (R182, R183), and the requests of the link controller: IDENTIFY (R198),
START (R199), STOP (R200), RESTART (R201) and unknown kinds (R195 (1)). -/

namespace Sys2Proof.Machine

/-! ## SLOT_QUERY -/

/-- What a slot carries in the present block. -/
def State.carriedNow (s : State) (k : Nat) : Carry := tget .silence s.mix.plan.slots k

/-- One slot of SLOT_QUERY (R163 (2)). -/
def State.slotRow (s : State) (k : Nat) : SlotRow :=
  if k < 12 then
    .floorSlot k (s.dist.allocation.anchors.contains (k + 1)) (s.dist.current.anchors.contains (k + 1)) (s.carriedNow k)
  else .languageSlot k (tget none s.dist.allocation.slots k) (tget none s.dist.current.slots k) (s.carriedNow k)

/-- The slots that SLOT_QUERY reads from a first slot (R163 (2)): up to 16. -/
def slotsFrom (first : Nat) : List Nat := ((List.range 64).drop first).take 16

/-- The entries of the unserved list that SLOT_QUERY reads from a position (R163 (3)): up to 16. -/
def State.listFrom (s : State) (position : Nat) : List (Nat × Key) :=
  ((s.dist.unserved.zipIdx 1).map (fun x => (x.2, x.1))).drop (position - 1) |>.take 16

/-- The map items that wait on a bus (R163 (1)). -/
def Bus.mapsWaiting (b : Bus) : Nat :=
  (b.queue.filter (fun it => match it with
    | .map _ => true
    | .unit _ => false)).length

/-- What SLOT_QUERY reads (R163). -/
def State.slotReport (s : State) (list : Bool) (start : Nat) : SlotReport :=
  { switchPending := s.tablesDiffer, mapsWaiting := [0, 1, 2, 3].map (fun i => (s.bus i).mapsWaiting),
    listed := s.dist.unserved.length,
    free := (languageSlots.filter (fun k => tget none s.dist.allocation.slots k = none)).length,
    slots := if list then [] else (slotsFrom start).map s.slotRow,
    list := if list then s.listFrom start else [] }

/-- SLOT_QUERY (R163). -/
def handleSlotQuery (body : List Byte) (s : State) : State × Answer :=
  withBody s (readSlotQuery body) fun x =>
    if (if x.1 then x.2 < 1 || 96 < x.2 else 63 < x.2) then refuse s .badValue
    else (s, .ok (.slotReport (s.slotReport x.1 x.2)))

/-- SLOT_QUERY. -/
def execSlotQuery (tag : Byte) (body : List Byte) (s : State) : Host.Outcome State Fault Refusal :=
  .next (s.request 0x1E tag body .both handleSlotQuery)

/-! ## Counters -/

/-- A counter number of 1 to 8. -/
def counterOk (c : Nat) : Bool := 1 ≤ c && c ≤ 8

/-- Checks (3) and (4) of R182. -/
def Counter.fits (x : Counter) : Bool :=
  x.scope.inRange && (x.action = .notice || match x.scope with
    | .group _ => true
    | _ => false)

/-- COUNTER_SET (R182). -/
def handleCounterSet (body : List Byte) (s : State) : State × Answer :=
  withBody s (readCounterSet body) fun x =>
    if counterOk x.1 && x.2.1.fits then (s.setCounter x.1 x.2.1, .okClamped x.2.2 (.counter x.1 x.2.1))
    else refuse s .badValue

/-- COUNTER_SET. -/
def execCounterSet (tag : Byte) (body : List Byte) (s : State) : Host.Outcome State Fault Refusal :=
  .next (s.request 0x20 tag body .both handleCounterSet)

/-- COUNTER_READ (R183): 0 reads all eight (R206). -/
def handleCounterRead (body : List Byte) (s : State) : State × Answer :=
  withBody s (readByte body) fun c =>
    if c = 0 then (s, .ok (.counters (counterNumbers.map (fun k => (k, s.counter k))) s.counts.blocks))
    else if counterOk c then (s, .ok (.counters [(c, s.counter c)] s.counts.blocks))
    else refuse s .badValue

/-- COUNTER_READ. -/
def execCounterRead (tag : Byte) (body : List Byte) (s : State) : Host.Outcome State Fault Refusal :=
  .next (s.request 0x21 tag body .both handleCounterRead)

/-! ## The link controller's own requests -/

/-- The rate that the straps give, in baud (R192). -/
def baud (rate1 rate0 : Bool) : Nat :=
  match rate1, rate0 with
  | false, false => 115200
  | false, true => 460800
  | true, false => 921600
  | true, true => 3000000

/-- IDENTIFY (R198). -/
def handleIdentify (body : List Byte) (s : State) : State × Answer :=
  withBody s (sized 0 body) fun _ =>
    (s, .ok (.identity Config.family Config.partNumber Config.revision s.link.phase (baud s.link.rate1 s.link.rate0)
      (s.link.restarts ≠ [])))

/-- IDENTIFY. -/
def execIdentify (tag : Byte) (body : List Byte) (s : State) : Host.Outcome State Fault Refusal :=
  .next (s.request 0x22 tag body .both handleIdentify)

/-- START (R199). -/
def handleStart (body : List Byte) (s : State) : State × Answer :=
  withBody s (sized 0 body) fun _ =>
    match s.startFailure with
    | some item => (s, { status := .inconsistent, clamped := false, contents := .item item })
    | none => (s.enterRun, .ok .nothing)

/-- START. -/
def execStart (tag : Byte) (body : List Byte) (s : State) : Host.Outcome State Fault Refusal :=
  .next (s.request 0x05 tag body .config handleStart)

/-- A request of RUN without a body whose reply is formed later (R195, R200, R201): refused at once, or `work` is done. -/
def State.later (s : State) (kind tag : Byte) (body : List Byte) (work : State → State) : State :=
  s.taking { kind := kind, tag := tag, body := body } fun t =>
    if t.link.phase ≠ .run then t.reply { kind := kind, tag := tag, answer := .refuse .wrongPhase }
    else if body ≠ [] then t.reply { kind := kind, tag := tag, answer := .refuse .badValue }
    else work t

/-- STOP (R200): its reply is formed when the OFF broadcasts have gone out. -/
def execStop (tag : Byte) (body : List Byte) (s : State) : Host.Outcome State Fault Refusal :=
  .next (s.later 0x06 tag body (fun t => t.enterConfig tag))

/-- A restart is due at the next block boundary (R201): the request holds its place of the reply list until then. -/
def State.scheduleRestart (s : State) (tag : Byte) : State :=
  { s with link := { s.link with restarts := s.link.restarts ++ [tag] } }

/-- RESTART (R201). -/
def execRestart (tag : Byte) (body : List Byte) (s : State) : Host.Outcome State Fault Refusal :=
  .next (s.later 0x07 tag body (fun t => t.scheduleRestart tag))

/-- A frame whose kind names no request (R195 (1)). A frame whose kind does name one is not this command's: it joins the
input queue as any frame does (log 3). -/
def execUnknownKind (kind tag : Byte) (body : List Byte) (s : State) : Host.Outcome State Fault Refusal :=
  .next (s.taking { kind := kind, tag := tag, body := body } fun t =>
    if kindNamesRequest kind then t.frameArrives { kind := kind, tag := tag, body := body }
    else t.reply { kind := kind, tag := tag, answer := .refuse .badKind })

end Sys2Proof.Machine
end

