-- ==== Sys2Proof/Machine/Dispatch.lean ====
section
/-! DEFINITION. `exec`: the meaning of each command, one arm for each constructor of `Instr`. -/

namespace Sys2Proof.Machine

/-- A command's effect on everything but the queue of waiting commands. -/
def exec (i : Instr) (s : State) : Host.Outcome State Fault Refusal :=
  match i with
  | .powerOn rate1 rate0 => Sys2Proof.Machine.execPowerOn rate1 rate0 s
  | .resetAssert => Sys2Proof.Machine.execResetAssert s
  | .resetRelease rate1 rate0 => Sys2Proof.Machine.execResetRelease rate1 rate0 s
  | .segmentSet tag body => Sys2Proof.Machine.execSegmentSet tag body s
  | .partitionSet tag body => Sys2Proof.Machine.execPartitionSet tag body s
  | .seatSet tag body => Sys2Proof.Machine.execSeatSet tag body s
  | .boothSet tag body => Sys2Proof.Machine.execBoothSet tag body s
  | .start tag body => Sys2Proof.Machine.execStart tag body s
  | .stop tag body => Sys2Proof.Machine.execStop tag body s
  | .stopComplete => Sys2Proof.Machine.execStopComplete s
  | .restart tag body => Sys2Proof.Machine.execRestart tag body s
  | .restartTakesEffect => Sys2Proof.Machine.execRestartTakesEffect s
  | .partitionDeclare tag body => Sys2Proof.Machine.execPartitionDeclare tag body s
  | .roomSet tag body => Sys2Proof.Machine.execRoomSet tag body s
  | .levelSet tag body => Sys2Proof.Machine.execLevelSet tag body s
  | .languagesSet tag body => Sys2Proof.Machine.execLanguagesSet tag body s
  | .sessionOpen tag body => Sys2Proof.Machine.execSessionOpen tag body s
  | .sessionArm tag body => Sys2Proof.Machine.execSessionArm tag body s
  | .sessionDisarm tag body => Sys2Proof.Machine.execSessionDisarm tag body s
  | .sessionEnd tag body => Sys2Proof.Machine.execSessionEnd tag body s
  | .roomQuery tag body => Sys2Proof.Machine.execRoomQuery tag body s
  | .micOpen tag body => Sys2Proof.Machine.execMicOpen tag body s
  | .micClose tag body => Sys2Proof.Machine.execMicClose tag body s
  | .requestAdd tag body => Sys2Proof.Machine.execRequestAdd tag body s
  | .requestCancel tag body => Sys2Proof.Machine.execRequestCancel tag body s
  | .nextCandidate tag body => Sys2Proof.Machine.execNext tag body s
  | .queueClear tag body => Sys2Proof.Machine.execQueueClear tag body s
  | .seatTrim tag body => Sys2Proof.Machine.execSeatTrim tag body s
  | .seatQuery tag body => Sys2Proof.Machine.execSeatQuery tag body s
  | .queueQuery tag body => Sys2Proof.Machine.execQueueQuery tag body s
  | .boothSource tag body => Sys2Proof.Machine.execBoothSource tag body s
  | .boothTrim tag body => Sys2Proof.Machine.execBoothTrim tag body s
  | .boothOff tag body => Sys2Proof.Machine.execBoothOff tag body s
  | .boothQuery tag body => Sys2Proof.Machine.execBoothQuery tag body s
  | .slotQuery tag body => Sys2Proof.Machine.execSlotQuery tag body s
  | .groupSet tag body => Sys2Proof.Machine.execGroupSet tag body s
  | .counterSet tag body => Sys2Proof.Machine.execCounterSet tag body s
  | .counterRead tag body => Sys2Proof.Machine.execCounterRead tag body s
  | .identify tag body => Sys2Proof.Machine.execIdentify tag body s
  | .unknownKind kind tag body => Sys2Proof.Machine.execUnknownKind kind tag body s
  | .inputFull kind tag body => Sys2Proof.Machine.execInputFull kind tag body s
  | .linkFrameDiscard cause received => Sys2Proof.Machine.execLinkFrameDiscard cause received s
  | .linkFrameTimeout => Sys2Proof.Machine.execLinkFrameTimeout s
  | .frameSent => Sys2Proof.Machine.execFrameSent s
  | .settlingEvent input => Sys2Proof.Machine.execSettlingEvent input s
  | .blockBoundary sense audio => Sys2Proof.Machine.execBlockBoundary sense audio s
  | .tableSwitch => Sys2Proof.Machine.execTableSwitch s
  | .roomTimerExpiry => Sys2Proof.Machine.execRoomTimerExpiry s
  | .holdOffEnd => Sys2Proof.Machine.execHoldOffEnd s
  | .speakingClockSecond => Sys2Proof.Machine.execSpeakingClockSecond s
  | .rampSettle => Sys2Proof.Machine.execRampSettle s
  | .secondBoundary => Sys2Proof.Machine.execSecondBoundary s
  | .busExchange bus => Sys2Proof.Machine.execBusExchange bus s
  | .unitReplyStatus bus presses held cls => Sys2Proof.Machine.execUnitReplyStatus bus presses held cls s
  | .unitReplyAck bus acked presses held cls => Sys2Proof.Machine.execUnitReplyAck bus acked presses held cls s
  | .exchangeMissed bus => Sys2Proof.Machine.execExchangeMissed bus s
  | .linkCharacterReceived char stopHigh => Sys2Proof.Machine.execLinkCharacterReceived char stopHigh s
  | .requestFrameQueued kind tag body => Sys2Proof.Machine.execRequestFrameQueued kind tag body s

end Sys2Proof.Machine
end

