-- ==== Sys2Proof/Machine/Step.lean ====
section
/-! DEFINITION. The step: the command at the front of the queue, with the queue's rest. On an empty queue the block idles
(DESIGN CHOICE, log 2). -/

namespace Sys2Proof.Machine

/-- The state with this queue of waiting commands. -/
def State.setPending (s : State) (cs : List Instr) : State := { s with pending := cs }

/-- One step. -/
def step (s : State) : Host.Outcome State Fault Refusal :=
  match s.pending with
  | [] => .next s
  | c :: cs => exec c (s.setPending cs)

/-- The state with the command that a word spells put at the front of its queue, unchanged where the word spells none (which
is every word, since no row of the table has bits: log 33). -/
def State.withFetchWord (s : State) (nbits w : Nat) : State :=
  match decodeTableWord nbits w with
  | none => s
  | some c => s.setPending (c :: s.pending)

end Sys2Proof.Machine
end

