-- ==== Sys2Proof/Safety.lean ====
section
/-! DEFINITION. What counts as a safe state: the bounds and the exclusions that the rules state of every moment, in the terms
that the claims use. -/

namespace Sys2Proof.Machine

/-- The numbers of a segment record that set a room's level lie in their ranges (R1, R20). -/
def Segment.levelsOk (x : Segment) : Prop :=
  -120 ≤ x.maximum ∧ x.maximum ≤ 0 ∧ -120 ≤ x.profile.level ∧ x.profile.level ≤ 0

/-- A room's effective level stands between -120 steps and its ceiling, and its level request in its range (R168). -/
def Room.levelsOk (r : Room) : Prop :=
  -120 ≤ r.level ∧ r.level ≤ r.ceiling ∧ -120 ≤ r.ceiling ∧ r.ceiling ≤ 0 ∧ -120 ≤ r.profile.level ∧ r.profile.level ≤ 0

/-- The levels of every segment and of every room are in order (R168). -/
def State.levelsOk (s : State) : Prop :=
  (∀ k, (s.segment k).levelsOk) ∧ ∀ a r, s.room a = some r → r.levelsOk

/-- The seat table is in its canonical form, every upstream slot held lies in 0 to 11, and no two seats of one bus hold the
same slot (R79). -/
def State.slotsOk (s : State) : Prop :=
  twf Seat.initial s.floor.seats = true ∧ (∀ n k, (s.seat n).slot = some k → k < Config.upstreamSlots) ∧
    ∀ n m k, n ≠ m → seatBus n = seatBus m → (s.seat n).slot = some k → (s.seat m).slot ≠ some k

/-- Every hold count lies in 0 to 100 (R6). -/
def State.settlingOk (s : State) : Prop := ∀ p, (s.settling p).hold ≤ Config.settleBlocks

/-- Every effective state is the one that R8 derives. -/
def State.wallsOk (s : State) : Prop := ∀ p, (s.partition p).effective = effectiveOf (s.partition p)

/-- Every room stands under its anchor, holds at most 32 entries in ascending arrival stamp, each stamp one that has been given,
and no stamp stands in the queues of two rooms (R111, R112, R113). -/
structure State.QueuesOk (s : State) : Prop where
  anchor : ∀ a r, s.room a = some r → r.anchor = a
  bound : ∀ a r, s.room a = some r → r.queue.length ≤ Config.queueLimit
  rising : ∀ a r, s.room a = some r → r.queue.Pairwise (fun x y => x.stamp < y.stamp)
  given : ∀ a r, s.room a = some r → ∀ e ∈ r.queue, e.stamp < s.floor.stampCount
  apart : ∀ a b r q, a ≠ b → s.room a = some r → s.room b = some q → ∀ e ∈ r.queue, ∀ f ∈ q.queue, e.stamp ≠ f.stamp

/-- The console table is in its canonical form, a console owns a channel in CUEING and ON_AIR and in no other state, and each
channel has at most one owner (R132). -/
structure State.OwnersOk (s : State) : Prop where
  canonical : twf Console.initial s.booth.consoles = true
  owner : ∀ c, (s.console c).owned.isSome = true ↔ (s.console c).state = .cueing ∨ (s.console c).state = .onAir
  one : ∀ c d key, (s.console c).owned = some key → (s.console d).owned = some key → c = d

/-- The allocation table is in its canonical form and holds language slots, no channel has two slots, none is both SERVED and on
the unserved list, none stands on the list twice, and a slot is free only while the list is empty (R153, R154). -/
structure State.ChannelsOk (s : State) : Prop where
  canonical : twf none s.dist.allocation.slots = true
  language : ∀ k key, tget none s.dist.allocation.slots k = some key → 12 ≤ k ∧ k ≤ 63
  one : ∀ j k key, tget none s.dist.allocation.slots j = some key → tget none s.dist.allocation.slots k = some key → j = k
  apart : ∀ k key, tget none s.dist.allocation.slots k = some key → key ∉ s.dist.unserved
  once : s.dist.unserved.Nodup
  full : s.dist.unserved ≠ [] → ∀ k, 12 ≤ k → k ≤ 63 → tget none s.dist.allocation.slots k ≠ none

/-- The segment map and the room contexts agree: a room stands under its lowest segment, its segments ascend in 1 to 12, and the map
gives a room's anchor to its segments and to no other segment (R11). -/
structure State.RoomsOk (s : State) : Prop where
  anchor : ∀ a r, s.room a = some r → r.anchor = a ∧ r.segments.head? = some a
  rising : ∀ a r, s.room a = some r → r.segments.Pairwise (· < ·)
  numbers : ∀ a r, s.room a = some r → ∀ k ∈ r.segments, 1 ≤ k ∧ k ≤ 12
  map : ∀ a r, s.room a = some r → ∀ k, k ∈ r.segments ↔ s.anchorOf k = some a
  rooms : ∀ k a, s.anchorOf k = some a → (s.room a).isSome = true

/-- The queues of the link controller keep their lengths: 8 request frames (R194), 16 places of the reply list (R196), 64
notices (R197). -/
def LinkUnit.bounded (l : LinkUnit) : Prop :=
  l.input.length ≤ Config.inputLimit ∧ l.placesTaken ≤ Config.replyLimit ∧ l.notices.length ≤ Config.noticeLimit

/-- A safe state. -/
structure State.Safe (s : State) : Prop where
  levels : s.levelsOk
  slots : s.slotsOk
  settling : s.settlingOk
  walls : s.wallsOk
  queues : s.QueuesOk
  owners : s.OwnersOk
  channels : s.ChannelsOk
  rooms : s.RoomsOk
  link : s.link.bounded

/-! ## Conditions under which a command has its own effect -/

/-- The frame in reception, if any, has reached its 20th boundary (R193 (3)). -/
def Receiver.overdue : Receiver → Bool
  | .hunting => false
  | .inFrame _ n => Config.frameBlocks ≤ n

/-- The ramps that end at the present boundary have ended, and its table switch has been made (R160, R169; log 25). -/
structure State.BoundaryDone (s : State) : Prop where
  ramps : s.roomsWith Room.settleDue = []
  switch : s.dist.switchDue = false

/-- Nothing that fell due at the last boundary is left to be done (log 6), and no STOP waits for its reply only. -/
structure State.NothingDue (s : State) : Prop extends s.BoundaryDone where
  receiver : s.link.receiver.overdue = false
  inputs : ∀ p ∈ inputNumbers, (s.settling p).due = false
  restart : s.link.restartDue = 0
  timers : s.roomsWith Room.timerDue = []
  seats : ∀ x ∈ s.floor.seats, x.2.holdOffDue = false ∧ x.2.secondDue = false
  counters : s.counts.secondDue = false
  stopping : s.link.stopping = none ∨ [0, 1, 2, 3, 4].all (fun i => (s.bus i).offSent) = false

/-- The link controller takes this request frame now (R195): the RESET pin is high, nothing is due (log 6), no STOP is incomplete,
the reply list has a free place, and no other frame stands before it. -/
structure State.CanTake (s : State) (f : Frame) : Prop where
  up : s.resetLow = false
  due : s.NothingDue
  complete : s.link.stopping = none
  place : s.link.placesTaken < Config.replyLimit
  first : s.link.input = [] ∨ s.link.input.head? = some f

/-- The link controller after a request has left the input queue and its reply has been formed (R195, R196). -/
def LinkUnit.served (l : LinkUnit) (r : Reply) : LinkUnit := LinkUnit.answer { l with input := l.input.drop 1 } r

/-- A request has been answered and nothing else has happened. -/
def State.served (s : State) (r : Reply) : State := { s with link := s.link.served r }

/-- No counter is enabled and no occurrence waits to be added, so that occurrences change nothing (R185). -/
structure State.CountersOff (s : State) : Prop where
  off : ∀ c ∈ counterNumbers, (s.counter c).enabled = false
  none : s.counts.raised = []
  open_ : s.counts.deferring = false

/-- Nothing is due and no answer, frame or STOP is awaited: the next boundary only counts. -/
structure State.Calm (s : State) : Prop where
  up : s.resetLow = false
  due : s.NothingDue
  hunting : s.link.receiver = .hunting
  complete : s.link.stopping = none
  buses : ∀ i ∈ busNumbers, s.awaited i = none

/-- Segment `k` names the room `r` with anchor `a` (R11, R12). -/
structure State.RoomAt (s : State) (k a : Nat) (r : Room) : Prop where
  number : 1 ≤ k ∧ k ≤ 12
  installed : (s.segment k).installed = true
  map : s.anchorOf k = some a
  room : s.room a = some r
  anchor : r.anchor = a

/-- Seat `n` is installed, and its segment lies in the room `r` with anchor `a` (R83, R97 (1)). -/
structure State.SeatAt (s : State) (n a : Nat) (r : Room) : Prop where
  number : seatNumberOk n = true
  installed : (s.seat n).installed = true
  map : s.seatAnchor n = some a
  room : s.room a = some r
  anchor : r.anchor = a

/-- Every block stands at its power-on values, and the READY notice with this cause is being sent as the first frame, with
sequence 0 (R202 and the reset tables of the chapters). -/
structure State.AtStart (t : State) (cause : ReadyCause) (rate1 rate0 : Bool) : Prop where
  resetHigh : t.resetLow = false
  segments : ∀ k, t.segment k = Segment.initial
  partitions : ∀ p, t.partition p = Partition.initial
  settling : ∀ p, t.settling p = Settling.initial
  rooms : ∀ a, t.room a = none
  map : ∀ k, t.anchorOf k = none
  seats : ∀ n, t.seat n = Seat.initial
  groups : ∀ g, t.group g = Group.initial
  stamps : t.floor.stampCount = 0
  buses : ∀ i, t.bus i = Bus.initial
  booths : ∀ b, t.boothAt b = Booth.initial
  consoles : ∀ c, t.console c = Console.initial
  tables : t.dist = { allocation := SlotTable.empty, current := SlotTable.empty, unserved := [], switchDue := false }
  routes : t.mix.plan = Plan.silent
  counters : ∀ c, t.counter c = Counter.initial
  seconds : t.counts.blocks = none
  phase : t.link.phase = .config
  rates : t.link.rate1 = rate1 ∧ t.link.rate0 = rate0
  receiver : t.link.receiver = .hunting
  queues : t.link.input = [] ∧ t.link.replies = [] ∧ t.link.notices = []
  lost : t.link.lost = false
  ready : t.link.sending = some (.notice (.ready cause .config 1) 0 false)
  waiting : t.link.stopping = none ∧ t.link.restarts = []

/-! ## Frames and hypotheses that several statements share -/

/-- Every bus controller is as it was, but for the items of its pending queue. -/
def State.QueuesOnly (s t : State) : Prop := ∀ i, t.bus i = { s.bus i with queue := (t.bus i).queue }

/-- The exchange `x` of bus `i` is over and the record of its unit is now `u`; every other unit is as it was, and so is every bus
controller but for the items of its pending queue. -/
structure State.Heard (s t : State) (i : Nat) (x : Exchange) (u : UnitRecord) : Prop where
  record : t.unit i x.address = u
  units : ∀ b, b ≠ x.address → t.unit i b = s.unit i b
  here : t.bus i = { s.bus i with queue := (t.bus i).queue, units := (t.bus i).units
                                  exchange := some { x with awaiting := false } }
  others : ∀ j, j ≠ i → t.bus j = { s.bus j with queue := (t.bus j).queue }

/-- The exchange `x` of a bus awaits its answer, and nothing is due. -/
structure State.Awaits (s : State) (bus : BusId) (i : Nat) (x : Exchange) : Prop where
  index : i = bus.index
  up : s.resetLow = false
  due : s.NothingDue
  awaited : s.awaited i = some x

/-- It is the exchange of a seat in the room `r` with anchor `a`, whose unit is PRESENT, and no counter is enabled. -/
structure State.AwaitsSeat (s : State) (bus : BusId) (i n a : Nat) (x : Exchange) (r : Room) : Prop
    extends s.Awaits bus i x where
  small : i < 4 ∧ x.address < 256
  number : n = i * 256 + x.address
  present : (s.unit i x.address).presence = .present
  seat : s.SeatAt n a r
  counters : s.CountersOff

/-- It is the exchange of a console whose booth stands in the room `r` with anchor `a`, whose unit is PRESENT, and no counter is
enabled. -/
structure State.AwaitsConsole (s : State) (x : Exchange) (a : Nat) (r : Room) : Prop extends s.Awaits .b 4 x where
  present : (s.unit 4 x.address).presence = .present
  map : s.boothAnchor (consoleBooth x.address) = some a
  room : s.room a = some r
  anchor : r.anchor = a
  counters : s.CountersOff

/-- Every booth listens as R144 derives it. -/
def State.ListensRight (s : State) : Prop := ∀ b, (s.boothAt b).listen = s.listenOf b

/-- From `s` to `t` no console but `c` changes its state, its channel or its cough, and no booth anything but its listen state. -/
def State.OnlyConsole (s t : State) (c : Nat) : Prop :=
  (∀ d, d ≠ c → t.console d = { s.console d with indication := (t.console d).indication }) ∧
    ∀ b, t.boothAt b = { s.boothAt b with listen := (t.boothAt b).listen }

/-- From `s` to `t` no seat but `n` and no room but the one with anchor `a` changes. -/
def State.OthersSame (s t : State) (n a : Nat) : Prop :=
  (∀ m, m ≠ n → t.seat m = s.seat m) ∧ ∀ b, b ≠ a → t.room b = s.room b

/-- Every entry stands in the queue of the room of its seat, and its seat is QUEUED. -/
def State.EntriesRight (s : State) : Prop :=
  ∀ a r, s.room a = some r → ∀ e ∈ r.queue, s.seatAnchor e.seat = some a ∧ (s.seat e.seat).mic = .queued

/-- `l` holds every element of two lists, each once, in ascending order of `f` (R43, R44). -/
def JoinedBy {α : Type} (f : α → Nat) (xs ys l : List α) : Prop := l.Perm (xs ++ ys) ∧ l.Pairwise (fun x y => f x < f y)

/-- The seats of a list whose segment is one of these (R52). -/
def State.seatsIn (s : State) (segments seats : List Nat) : List Nat :=
  seats.filter (fun n => segments.contains (s.seat n).segment)

/-- A room has a channel for each code of its set while it is IN_SESSION or ENDING, and no others (R150). -/
def State.ChannelsOf (s : State) (r : Room) : Prop :=
  ∀ c, s.hasChannel ⟨r.anchor, c⟩ = true ↔ r.session.hasChannels = true ∧ c ∈ r.profile.languages

/-- Only channels that exist are owned (R132). -/
def State.OwnersHaveChannels (s : State) : Prop :=
  ∀ o key, (s.console o).owned = some key → s.hasChannel key = true

/-- Delegate `v` is the one that NEXT REPLACE closes (R106): LIVE with the lowest live number, or OPENING with the lowest opening
number in a room without a LIVE delegate. -/
def State.Replaced (s : State) (r : Room) (v : Nat) : Prop :=
  v ∈ r.live ∧ (s.seat v).cls = .delegate ∧
    (((s.seat v).mic = .live ∧ ∃ k, (s.seat v).liveNumber = some k ∧ ∀ m ∈ r.live, m ≠ v → (s.seat m).cls = .delegate →
      (s.seat m).mic = .live → ∃ j, (s.seat m).liveNumber = some j ∧ k < j) ∨
    ((s.seat v).mic = .opening ∧ (∀ m ∈ r.live, (s.seat m).cls = .delegate → (s.seat m).mic ≠ .live) ∧
      ∃ k, (s.seat v).openingNumber = some k ∧ ∀ m ∈ r.live, m ≠ v → (s.seat m).cls = .delegate →
        (s.seat m).mic = .opening → ∃ j, (s.seat m).openingNumber = some j ∧ k < j))

/-- What a changed effective state of partition `p` makes of `v` in RUN (R15 to R17): TOPOLOGY_CHANGED, and after it the merge of
the rooms of its two ends, the split of the room that its ends no longer hold together, or nothing. -/
structure State.WallTurned (v t : State) (p : Nat) : Prop where
  loop : ∀ i, (v.partition p).effective = .opened → v.anchorOf (v.partition p).a = some i →
    v.anchorOf (v.partition p).b = some i → t = v.note (.topologyChanged p .opened (.none (some i)))
  merge : ∀ i j, (v.partition p).effective = .opened → i < j →
    (v.anchorOf (v.partition p).a = some i ∧ v.anchorOf (v.partition p).b = some j ∨
      v.anchorOf (v.partition p).a = some j ∧ v.anchorOf (v.partition p).b = some i) →
    t = (v.note (.topologyChanged p .opened (.merge i j))).merge i j
  chain : ∀ i r, (v.partition p).effective = .closed → v.anchorOf (v.partition p).a = some i → v.room i = some r →
    (∀ k ∈ r.segments, k ∈ v.groupOf r.segments i) → t = v.note (.topologyChanged p .closed (.none (some i)))
  split : ∀ i r go, (v.partition p).effective = .closed → v.anchorOf (v.partition p).a = some i → v.room i = some r →
    go = r.segments.filter (fun k => decide (k ∉ v.groupOf r.segments i)) → go ≠ [] →
    t = (v.note (.topologyChanged p .closed (.split i (lowest go)))).split i (lowest go) (v.groupOf r.segments i) go

/-! ## What several statements say of one event -/

/-- From `s` to `t` the ARMED room `r` with anchor `a` has been woken (R30, R32): it is IN_SESSION without conditions and timer, it
keeps its profile and its segments, it has a channel for each code of its set, and of all notices SESSION_STATE with this cause and
waker comes first. -/
structure State.Woken (s t : State) (a : Nat) (r : Room) (cause : SessionCause) (waker : Waker) : Prop where
  room : ∃ x, t.room a = some x ∧ x.session = .inSession ∧ x.wake = Wake.empty ∧ x.timer = none ∧ x.profile = r.profile ∧
    x.segments = r.segments
  channels : ∀ c ∈ r.profile.languages, t.hasChannel ⟨a, c⟩ = true
  notice : ∃ ns, t.link = (Notice.sessionState a .armed .inSession cause (some waker) none :: ns).foldl LinkUnit.raise s.link

/-- No occurrence waits to be added, none is held back, and no counter stands at its top. -/
structure State.CountersReady (s : State) : Prop where
  none : s.counts.raised = []
  open_ : s.counts.deferring = false
  below : ∀ c ∈ counterNumbers, (s.counter c).value < 4294967295

/-- An occurrence is in scope (R185): under ALL always, under SEGMENT where its room contains the segment, under GROUP where its seat
is a member of the installed group, under BUS where its bus is the bus named. -/
def State.InScope (s : State) (o : Occurrence) : Scope → Prop
  | .all => True
  | .segment k => ∃ a, s.anchorOf k = some a ∧ s.anchorOf o.segment = some a
  | .group g => ∃ n, o.seat = some n ∧ (s.group g).installed = true ∧ groupTakes (s.group g) n = true
  | .bus i => o.bus = some i

/-- The exchange of a seat in the room `r` with anchor `a` awaits its answer; its unit is PRESENT, and no counter stands at its top. -/
structure State.AwaitsCounted (s : State) (bus : BusId) (i n a : Nat) (x : Exchange) (r : Room) : Prop
    extends s.Awaits bus i x where
  small : i < 4 ∧ x.address < 256
  number : n = i * 256 + x.address
  present : (s.unit i x.address).presence = .present
  seat : s.SeatAt n a r
  counters : s.CountersReady

/-- From `s` to `t` the counters have taken the occurrence `o`, once each (R185, R188): an enabled counter of its event that has it in
scope adds 1 in COUNT mode and raises its tally, up to 255, in THRESHOLD and EDGE mode; every other counter stays. -/
def State.Counted (s t : State) (o : Occurrence) : Prop :=
  ∀ (c : Nat) (x : Counter) (takes : Prop), x = s.counter c →
    (takes ↔ c ∈ counterNumbers ∧ x.enabled = true ∧ x.event = o.event ∧ t.InScope o x.scope) →
    (takes → t.counter c = if x.mode = .count then { x with value := x.value + 1 } else { x with tally := min 255 (x.tally + 1) }) ∧
    (¬ takes → t.counter c = x)

/-! ## The forms of the requests (R198, R206) -/

/-- A request of R198's table: its kind, its command, whether CONFIG and RUN allow it, whether it names a room by the segment in its
first byte (R12), the length that its body calls for, and the offsets of the coded bytes that it reads whatever the other bytes
say, each with the number of its codes (R203, R205, R206). -/
structure RequestForm where
  kind : Byte
  command : Byte → List Byte → Instr
  config : Bool
  run : Bool
  room : Bool
  size : List Byte → Nat
  coded : List (Nat × Nat)

/-- The requests, in the order of their kinds. The body of LANGUAGES_SET holds as many codes as its second byte says. -/
def requestForms : List RequestForm := [
  ⟨0x01, .segmentSet, true, false, false, fun _ => 28,
    [(1, 2), (4, 3), (7, 2), (8, 2), (9, 2), (10, 2), (11, 3), (15, 2), (18, 2)]⟩,
  ⟨0x02, .partitionSet, true, false, false, fun _ => 5, [(1, 2), (4, 2)]⟩,
  ⟨0x03, .seatSet, true, false, false, fun _ => 6, [(2, 2), (3, 2)]⟩,
  ⟨0x04, .boothSet, true, false, false, fun _ => 8, [(1, 2), (4, 2)]⟩,
  ⟨0x05, .start, true, false, false, fun _ => 0, []⟩,
  ⟨0x06, .stop, false, true, false, fun _ => 0, []⟩,
  ⟨0x07, .restart, false, true, false, fun _ => 0, []⟩,
  ⟨0x08, .partitionDeclare, true, true, false, fun _ => 2, [(1, 2)]⟩,
  ⟨0x09, .roomSet, false, true, true, fun _ => 27, []⟩,
  ⟨0x0A, .levelSet, false, true, true, fun _ => 2, []⟩,
  ⟨0x0B, .languagesSet, false, true, true, fun b => 2 + byteAt b 1, []⟩,
  ⟨0x0C, .sessionOpen, false, true, true, fun _ => 1, []⟩,
  ⟨0x0D, .sessionArm, false, true, true, fun _ => 6, []⟩,
  ⟨0x0E, .sessionDisarm, false, true, true, fun _ => 1, []⟩,
  ⟨0x0F, .sessionEnd, false, true, true, fun _ => 1, []⟩,
  ⟨0x10, .roomQuery, false, true, true, fun _ => 1, []⟩,
  ⟨0x11, .micOpen, false, true, false, fun _ => 4, []⟩,
  ⟨0x12, .micClose, false, true, false, fun _ => 2, []⟩,
  ⟨0x13, .requestAdd, false, true, false, fun _ => 2, []⟩,
  ⟨0x14, .requestCancel, false, true, false, fun _ => 2, []⟩,
  ⟨0x15, .nextCandidate, false, true, true, fun _ => 2, [(1, 2)]⟩,
  ⟨0x16, .queueClear, false, true, true, fun _ => 1, []⟩,
  ⟨0x17, .seatTrim, false, true, false, fun _ => 3, []⟩,
  ⟨0x18, .seatQuery, true, true, false, fun _ => 2, []⟩,
  ⟨0x19, .queueQuery, false, true, true, fun _ => 2, []⟩,
  ⟨0x1A, .boothSource, false, true, false, fun _ => 3, [(1, 2)]⟩,
  ⟨0x1B, .boothTrim, false, true, false, fun _ => 2, []⟩,
  ⟨0x1C, .boothOff, false, true, false, fun _ => 1, []⟩,
  ⟨0x1D, .boothQuery, true, true, false, fun _ => 1, []⟩,
  ⟨0x1E, .slotQuery, true, true, false, fun _ => 2, [(0, 2)]⟩,
  ⟨0x1F, .groupSet, true, true, false, fun _ => 8, [(1, 2), (7, 2)]⟩,
  ⟨0x20, .counterSet, true, true, false, fun _ => 15, [(1, 2), (2, 14), (3, 4), (5, 3), (8, 2), (9, 2)]⟩,
  ⟨0x21, .counterRead, true, true, false, fun _ => 1, []⟩,
  ⟨0x22, .identify, true, true, false, fun _ => 0, []⟩]

/-- The coded bytes that ROOM_SET reads where its selection word marks their field: the field in the order of R20, the byte's offset
in the body, and the number of its codes (R205). -/
def roomSetCoded : List (Nat × Nat × Nat) :=
  [(0, 3, 3), (3, 6, 2), (4, 7, 2), (5, 8, 2), (6, 9, 2), (7, 10, 3), (10, 14, 2), (13, 17, 2)]

/-- A request is allowed in the phase of `s` (R198). -/
def RequestForm.allowed (f : RequestForm) (s : State) : Bool := if s.link.phase = .config then f.config else f.run

end Sys2Proof.Machine
end

