-- ==== Sys2Proof/Certificates/Slice0/Obligations.lean ====
section
/-! DEFINITION. The statements for the provers. Each says what a command or the part does, by the rule its docstring names. A
frame is written as an equation: `t = s with …` lists every part of the state that differs. -/

open Sys2Proof Sys2Proof.Machine

/-! ## The queue and the outcome of a command -/

/-- A step is `exec` on the command in front of the queue, with the queue's rest. On an empty queue the part idles, which is the
model's own choice (log 2). -/
def Obligations.StepRunsTheCommandInFront : Prop :=
  (∀ (c : Instr) (cs : List Instr) (s : State), s.pending = c :: cs → step s = exec c (s.setPending cs)) ∧
    ∀ s : State, s.pending = [] → step s = .next s

/-- No command faults or is refused, and none touches the queue of waiting commands. That the spec calls no command undefined is
read from it (log 35). -/
def Obligations.EveryCommandAnswersANextState : Prop :=
  ∀ (c : Instr) (s : State), ∃ t, exec c s = .next t ∧ t.pending = s.pending

/-! ## Pins (R202) -/

/-- POWER_ON with the RESET pin high, and RESET_RELEASE of a pin held low, put every block at its power-on values and begin to send
READY. POWER_ON under a pin held low does so too, but READY waits unsent. RESET_ASSERT cuts off the frame being sent, and while
the pin is low nothing but power-on and the release changes the part. That the other values are taken at the release, and what
waits while the pin is low, is the model's choice (log 11). -/
def Obligations.PinsStartAndHoldThePart : Prop :=
  (∀ (r1 r0 : Bool) (s : State), s.resetLow = false →
    ∃ t, exec (.powerOn r1 r0) s = .next t ∧ t.AtStart .power r1 r0) ∧
  (∀ (r1 r0 : Bool) (s : State), s.resetLow = true →
    ∃ t, exec (.powerOn r1 r0) s = .next t ∧ t.resetLow = true ∧ t.link.sending = none ∧
      ({ t with resetLow := false, link := t.link.kick } : State).AtStart .power r1 r0) ∧
  (∀ (r1 r0 : Bool) (s : State), s.resetLow = true →
    ∃ t, exec (.resetRelease r1 r0) s = .next t ∧ t.AtStart .pin r1 r0) ∧
  (∀ s : State, exec .resetAssert s = .next { s with resetLow := true, link := { s.link with sending := none } }) ∧
  ∀ (c : Instr) (s : State), s.resetLow = true → c ≠ .resetAssert → (∀ r1 r0, c ≠ .powerOn r1 r0) →
    (∀ r1 r0, c ≠ .resetRelease r1 r0) → exec c s = .next s

/-! ## Segments and walls (chapter 1) -/

/-- SEGMENT_SET in CONFIG writes the record whole (R2): the flag, M and u clamped, and the profile that the 24 bytes make, whatever
stood there, with the CLAMPED flag where a number was clamped; in RUN it is answered WRONG_PHASE. A segment number outside 1 to 12
and a profile with a structural error, a language set with an error among them, are refused with BAD_VALUE. The profile fields of a
request (R21, R205): an unselected field keeps its value, a coded byte gives the value of its code, a number is clamped to its
range, and a coded byte outside its coding or a language set with an error refuses the whole. -/
def Obligations.SegmentSetWritesTheRecordWhole : Prop :=
  (∀ (s : State) (tag : Byte) (body : List Byte), s.CanTake ⟨0x01, tag, body⟩ →
    (s.link.phase = .run →
      exec (.segmentSet tag body) s = .next (s.served ⟨0x01, tag, .refuse .wrongPhase⟩)) ∧
    (∀ (k : Nat) (old p : Profile) (x : Segment) (clamped : Bool), s.link.phase = .config → body.length = 28 →
      byteAt body 1 ≤ 1 → profileFrom (fun _ => true) old (body.drop 4) = some p → k = byteAt body 0 →
      x = { installed := decide (byteAt body 1 = 1), maximum := max (-120) (min 0 (stepsAt body 2)),
            trim := max (-24) (min 0 (stepsAt body 3)), profile := p } →
      (clamped = true ↔ x.maximum ≠ stepsAt body 2 ∨ x.trim ≠ stepsAt body 3 ∨ p.openLimit ≠ byteAt body 5 ∨
        p.chairLimit ≠ byteAt body 6 ∨ p.speakingLimit ≠ word16At body 12 ∨ p.warningLead ≠ byteAt body 14 ∨
        p.level ≠ stepsAt body 16 ∨ p.fill ≠ none ∧ p.fill ≠ some (stepsAt body 17)) →
      (¬ (1 ≤ k ∧ k ≤ 12) → exec (.segmentSet tag body) s = .next (s.served ⟨0x01, tag, .refuse .badValue⟩)) ∧
      (1 ≤ k ∧ k ≤ 12 → ∃ t, exec (.segmentSet tag body) s = .next t ∧ t.segment k = x ∧
        (∀ j, j ≠ k → t.segment j = s.segment j) ∧
        t = { s with hall := { s.hall with segments := t.hall.segments }
                     link := s.link.served ⟨0x01, tag, .okClamped clamped .nothing⟩ })) ∧
    ∀ old : Profile, s.link.phase = .config → profileFrom (fun _ => true) old (body.drop 4) = none →
      exec (.segmentSet tag body) s = .next (s.served ⟨0x01, tag, .refuse .badValue⟩)) ∧
  ∀ (sel : Nat → Bool) (old : Profile) (b : List Byte),
    (∀ p, profileFrom sel old b = some p →
      p.floorMode = (if sel 0 then (if byteAt b 0 = 0 then .openFloor else if byteAt b 0 = 1 then .request else .chair)
        else old.floorMode) ∧
      p.openLimit = (if sel 1 then max 1 (min 8 (byteAt b 1)) else old.openLimit) ∧
      p.chairLimit = (if sel 2 then max 1 (min 4 (byteAt b 2)) else old.chairLimit) ∧
      p.overflow = (if sel 3 then (if byteAt b 3 = 0 then .queue else .refuse) else old.overflow) ∧
      p.mayClose = (if sel 4 then decide (byteAt b 4 = 1) else old.mayClose) ∧
      p.mayCancel = (if sel 5 then decide (byteAt b 5 = 1) else old.mayCancel) ∧
      p.service = (if sel 6 then (if byteAt b 6 = 0 then .arrival else .rotating) else old.service) ∧
      p.action = (if sel 7 then (if byteAt b 7 = 0 then .muteAll else if byteAt b 7 = 1 then .closeAll else .closeAndClear)
        else old.action) ∧
      p.speakingLimit = (if sel 8 then (if word16At b 8 = 0 then 0 else max 10 (min 3600 (word16At b 8)))
        else old.speakingLimit) ∧
      p.warningLead = (if sel 9 then min 60 (byteAt b 10) else old.warningLead) ∧
      p.limitAction = (if sel 10 then (if byteAt b 11 = 0 then .close else .notify) else old.limitAction) ∧
      p.level = (if sel 11 then max (-120) (min 0 (stepsAt b 12)) else old.level) ∧
      p.fill = (if sel 12 then (if stepsAt b 13 = -128 then none else some (max (-40) (min 0 (stepsAt b 13))))
        else old.fill) ∧
      p.contention = (if sel 13 then (if byteAt b 14 = 0 then .interlock else .takeover) else old.contention) ∧
      (if sel 14 then p.languages = ((b.drop 16).take (byteAt b 15)).map BitVec.toNat ∧ p.languages.length ≤ 8 ∧
        (∀ c ∈ p.languages, 1 ≤ c ∧ c ≤ 63) ∧ p.languages.Nodup else p.languages = old.languages)) ∧
    (profileFrom sel old b = none ↔
      (sel 0 = true ∧ 2 < byteAt b 0) ∨ (sel 3 = true ∧ 1 < byteAt b 3) ∨ (sel 4 = true ∧ 1 < byteAt b 4) ∨
      (sel 5 = true ∧ 1 < byteAt b 5) ∨ (sel 6 = true ∧ 1 < byteAt b 6) ∨ (sel 7 = true ∧ 2 < byteAt b 7) ∨
      (sel 10 = true ∧ 1 < byteAt b 11) ∨ (sel 13 = true ∧ 1 < byteAt b 14) ∨
      (sel 14 = true ∧ (8 < byteAt b 15 ∨
        (∃ c ∈ ((b.drop 16).take (byteAt b 15)).map BitVec.toNat, c = 0 ∨ 63 < c) ∨
        ¬ (((b.drop 16).take (byteAt b 15)).map BitVec.toNat).Nodup)))

/-- PARTITION_SET (R4, R8, R9): WRONG_PHASE in RUN; in CONFIG the four checks that refuse with BAD_VALUE, and else the four fields
are stored, the effective state and the mismatch flag are derived again, and a changed flag raises its notice. -/
def Obligations.PartitionSetDerivesTheWall : Prop :=
  ∀ (s : State) (tag : Byte) (body : List Byte), s.CanTake ⟨0x02, tag, body⟩ →
    (s.link.phase = .run → exec (.partitionSet tag body) s = .next (s.served ⟨0x02, tag, .refuse .wrongPhase⟩)) ∧
    ∀ x : PartitionFields, s.link.phase = .config → readPartitionSet body = some x →
      (¬ (1 ≤ x.partition ∧ x.partition ≤ 16 ∧ 1 ≤ x.a ∧ x.a ≤ 12 ∧ 1 ≤ x.b ∧ x.b ≤ 12) ∨
        (x.installed = true ∧ x.a = x.b) ∨
        (x.installed = true ∧ ∃ q, q ≠ x.partition ∧ (s.partition q).installed = true ∧
          ((s.partition q).a = x.a ∧ (s.partition q).b = x.b ∨ (s.partition q).a = x.b ∧ (s.partition q).b = x.a)) →
        exec (.partitionSet tag body) s = .next (s.served ⟨0x02, tag, .refuse .badValue⟩)) ∧
      (s.partitionFits x = true →
        ∃ t y, exec (.partitionSet tag body) s = .next t ∧ t.partition x.partition = y ∧
          y.installed = x.installed ∧ y.a = x.a ∧ y.b = x.b ∧ y.fitted = x.fitted ∧
          y.declared = (s.partition x.partition).declared ∧ y.sensed = (s.partition x.partition).sensed ∧
          (y.effective = .opened ↔ y.installed = true ∧ y.declared = .opened ∧ (y.fitted = false ∨ y.sensed = .retracted)) ∧
          (y.mismatch = true ↔ y.installed = true ∧ y.fitted = true ∧
            ((y.declared = .opened ∧ y.sensed = .deployed) ∨ (y.declared = .closed ∧ y.sensed = .retracted))) ∧
          (∀ q, q ≠ x.partition → t.partition q = s.partition q) ∧
          t = { s with hall := { s.hall with partitions := t.hall.partitions }, link := t.link } ∧
          t.link = LinkUnit.answer
            (if y.mismatch = (s.partition x.partition).mismatch then { s.link with input := s.link.input.drop 1 }
             else LinkUnit.raise { s.link with input := s.link.input.drop 1 }
              (if y.mismatch then .partitionMismatch x.partition y.declared y.sensed y.effective
               else .partitionAgreed x.partition y.declared y.sensed y.effective)) ⟨0x02, tag, .ok .nothing⟩)

/-- PARTITION_DECLARE of an installed partition (R5, R8, R9): a state that it had already changes nothing. A new one is stored, and
the effective state and the mismatch flag are derived again, a changed flag with its notice. In CONFIG, or where the effective
state stays, nothing else happens, and the reply carries the three states. That it carries the partition's number beside them is
the model's choice (log 48). -/
def Obligations.PartitionDeclareStoresTheState : Prop :=
  ∀ (s : State) (tag pb wb : Byte) (w : Wall) (x y : Partition), s.CanTake ⟨0x08, tag, [pb, wb]⟩ → 1 ≤ pb.toNat →
    pb.toNat ≤ 16 → x = s.partition pb.toNat → x.installed = true → (wb = 0 ∧ w = .opened ∨ wb = 1 ∧ w = .closed) →
    (x.declared = w → exec (.partitionDeclare tag [pb, wb]) s =
      .next (s.served ⟨0x08, tag, .ok (.partition pb.toNat w x.sensed x.effective)⟩)) ∧
    (x.declared ≠ w →
      y = { x with declared := w, effective := effectiveOf { x with declared := w }
                   mismatch := decide (x.fitted = true ∧
                    ((w = .opened ∧ x.sensed = .deployed) ∨ (w = .closed ∧ x.sensed = .retracted))) } →
      s.link.phase = .config ∨ y.effective = x.effective →
      ∃ t, exec (.partitionDeclare tag [pb, wb]) s = .next t ∧ t.partition pb.toNat = y ∧
        (∀ q, q ≠ pb.toNat → t.partition q = s.partition q) ∧
        t = { s with hall := { s.hall with partitions := t.hall.partitions }, link := t.link } ∧
        t.link = LinkUnit.answer
          (if y.mismatch = x.mismatch then { s.link with input := s.link.input.drop 1 }
           else LinkUnit.raise { s.link with input := s.link.input.drop 1 }
            (if y.mismatch then .partitionMismatch pb.toNat w x.sensed y.effective
             else .partitionAgreed pb.toNat w x.sensed y.effective))
          ⟨0x08, tag, .ok (.partition pb.toNat w x.sensed y.effective)⟩)

/-- SETTLING_EVENT of an input whose candidate has held for 100 boundaries (R6 (4), R7 to R9): the stable level and the sensed state
follow it, and on an installed partition with a fitted sensor the effective state and the mismatch flag are derived again, a
changed flag with its notice. In CONFIG, or where the effective state stays, nothing else happens. That the event is a command of
its own after the boundary is the model's choice (log 6). -/
def Obligations.SettlingEventSetsTheSensedState : Prop :=
  ∀ (s : State) (p : Nat) (l : Contact) (x y : Partition), s.resetLow = false → s.BoundaryDone → 1 ≤ p → p ≤ 16 →
    (s.settling p).hold = 100 → (s.settling p).candidate = some l → (s.settling p).stable ≠ some l →
    x = { s.partition p with sensed := (match l with
      | .closed => .deployed
      | .opened => .retracted) } →
    y = { x with effective := effectiveOf x
                 mismatch := decide ((x.declared = .opened ∧ x.sensed = .deployed) ∨
                  (x.declared = .closed ∧ x.sensed = .retracted)) } →
    (x.installed = false ∨ x.fitted = false → ∃ t, exec (.settlingEvent p) s = .next t ∧
      t.settling p = { s.settling p with stable := some l } ∧ t.partition p = x ∧
      (∀ q, q ≠ p → t.settling q = s.settling q ∧ t.partition q = s.partition q) ∧
      t = { s with hall := { s.hall with settling := t.hall.settling, partitions := t.hall.partitions } }) ∧
    (x.installed = true → x.fitted = true → s.link.phase = .config ∨ y.effective = x.effective →
      ∃ t, exec (.settlingEvent p) s = .next t ∧
        t.settling p = { s.settling p with stable := some l } ∧ t.partition p = y ∧
        (∀ q, q ≠ p → t.settling q = s.settling q ∧ t.partition q = s.partition q) ∧
        t = { s with
          hall := { s.hall with settling := t.hall.settling, partitions := t.hall.partitions }
          link := if y.mismatch = x.mismatch then s.link else s.link.raise
            (if y.mismatch then .partitionMismatch p y.declared y.sensed y.effective
             else .partitionAgreed p y.declared y.sensed y.effective) })

/-- A changed effective state in RUN (R15 to R17), by PARTITION_DECLARE and by SETTLING_EVENT: from the state `v`, which holds the
partition's new state and the notice of a changed mismatch flag, the rooms merge, split or stay as R15 and R16 say, with
TOPOLOGY_CHANGED before all that the merge or split raises. That the reply to PARTITION_DECLARE carries the partition's number
beside the three states is the model's choice (log 48). -/
def Obligations.ChangedWallsMergeOrSplit : Prop :=
  (∀ (s : State) (tag pb wb : Byte) (w : Wall) (x y : Partition), s.CanTake ⟨0x08, tag, [pb, wb]⟩ →
    s.link.phase = .run → 1 ≤ pb.toNat → pb.toNat ≤ 16 → x = s.partition pb.toNat → x.installed = true →
    (wb = 0 ∧ w = .opened ∨ wb = 1 ∧ w = .closed) → x.declared ≠ w →
    y = { x with declared := w, effective := effectiveOf { x with declared := w }
                 mismatch := mismatchOf { x with declared := w } } → y.effective ≠ x.effective →
    (∃ i, s.anchorOf x.a = some i ∧ (s.room i).isSome = true) → (∃ j, s.anchorOf x.b = some j) →
    ∃ v t : State, v.partition pb.toNat = y ∧ (∀ q, q ≠ pb.toNat → v.partition q = s.partition q) ∧
      v = { s with
        hall := { s.hall with partitions := v.hall.partitions }
        link := if y.mismatch = x.mismatch then { s.link with input := s.link.input.drop 1 }
          else LinkUnit.raise { s.link with input := s.link.input.drop 1 }
            (if y.mismatch then .partitionMismatch pb.toNat w x.sensed y.effective
             else .partitionAgreed pb.toNat w x.sensed y.effective) } ∧
      v.WallTurned t pb.toNat ∧
      exec (.partitionDeclare tag [pb, wb]) s = .next (t.reply ⟨0x08, tag, .ok (t.wallContents pb.toNat)⟩)) ∧
  ∀ (s : State) (p : Nat) (l : Contact) (x y : Partition), s.resetLow = false → s.BoundaryDone → s.link.phase = .run →
    1 ≤ p → p ≤ 16 → (s.settling p).hold = 100 → (s.settling p).candidate = some l → (s.settling p).stable ≠ some l →
    x = { s.partition p with sensed := (match l with
      | .closed => .deployed
      | .opened => .retracted) } →
    x.installed = true → x.fitted = true → y = { x with effective := effectiveOf x, mismatch := mismatchOf x } →
    y.effective ≠ x.effective →
    (∃ i, s.anchorOf x.a = some i ∧ (s.room i).isSome = true) → (∃ j, s.anchorOf x.b = some j) →
    ∃ v t : State, v.partition p = y ∧ v.settling p = { s.settling p with stable := some l } ∧
      (∀ q, q ≠ p → v.partition q = s.partition q ∧ v.settling q = s.settling q) ∧
      v = { s with
        hall := { s.hall with settling := v.hall.settling, partitions := v.hall.partitions }
        link := if y.mismatch = x.mismatch then s.link else s.link.raise
          (if y.mismatch then .partitionMismatch p y.declared y.sensed y.effective
           else .partitionAgreed p y.declared y.sensed y.effective) } ∧
      v.WallTurned t p ∧ exec (.settlingEvent p) s = .next t

/-- The groups of section 1.5: a segment is in the group of another when a chain of open partitions through segments of `among`
leads from one to the other (R11). -/
def Obligations.RoomsAreTheConnectedGroups : Prop :=
  ∀ (s : State) (j k : Nat), j ∈ s.installedSegments →
    (k ∈ s.groupOf s.installedSegments j ↔
      Relation.ReflTransGen (fun x y => y ∈ s.installedSegments ∧ s.joined x y = true) j k)

/-! ## Room contexts (chapter 2) -/

/-- ROOM_SET stores the selected fields together (R22). Where the floor mode, the overflow and the open limit stay, nothing else
happens. Where one of the three changes, the profile is stored and promotion then runs at once, before the reply (R23, R105).
LEVEL_SET stores the clamped request, forms the target, and starts a ramp where the target changed and is not met (R24,
R170 (1)). That the reply to ROOM_SET carries the room's anchor is read from R12 (log 39). -/
def Obligations.RoomAndLevelSetStoreTheirFields : Prop :=
  (∀ (s : State) (tag : Byte) (body bytes : List Byte) (k word a : Nat) (r : Room) (p : Profile),
    s.CanTake ⟨0x09, tag, body⟩ → s.link.phase = .run → readRoomSet body = some (k, word, bytes) → s.RoomAt k a r →
    (selectionRefused word = true →
      exec (.roomSet tag body) s = .next (s.served ⟨0x09, tag, .refuse .badValue⟩)) ∧
    (selectionRefused word = false → profileFrom (selection word) r.profile bytes = some p →
      p.floorMode = r.profile.floorMode → p.overflow = r.profile.overflow → p.openLimit = r.profile.openLimit →
      ∃ t, exec (.roomSet tag body) s = .next t ∧ t.room a = some { r with profile := p } ∧
        (∀ b, b ≠ a → t.room b = s.room b) ∧
        t = { s with hall := { s.hall with rooms := t.hall.rooms }
                     link := s.link.served ⟨0x09, tag, .okClamped (profileClamps (selection word) bytes) (.room a)⟩ }) ∧
    (selectionRefused word = false → profileFrom (selection word) r.profile bytes = some p →
      p.floorMode ≠ r.profile.floorMode ∨ p.overflow ≠ r.profile.overflow ∨ p.openLimit ≠ r.profile.openLimit →
      ∃ u : State, u.room a = some { r with profile := p } ∧ (∀ b, b ≠ a → u.room b = s.room b) ∧
        u = { s with hall := { s.hall with rooms := u.hall.rooms }, link := { s.link with input := s.link.input.drop 1 } } ∧
        exec (.roomSet tag body) s = .next ((u.promote a).reply
          ⟨0x09, tag, .okClamped (profileClamps (selection word) bytes) (.room a)⟩))) ∧
  ∀ (s : State) (tag kb xb : Byte) (a : Nat) (r : Room) (l : Int), s.CanTake ⟨0x0A, tag, [kb, xb]⟩ →
    s.link.phase = .run → s.RoomAt kb.toNat a r → l = max (-120) (min 0 xb.toInt) →
    ∃ t x, exec (.levelSet tag [kb, xb]) s = .next t ∧ t.room a = some x ∧
      x = { r with
        profile := { r.profile with level := l }
        ramp := if min l r.ceiling ≠ min r.profile.level r.ceiling ∧ r.level ≠ min l r.ceiling then .ramping else r.ramp } ∧
      (t.roomReport x).profile.level = l ∧ (∀ b, b ≠ a → t.room b = s.room b) ∧
      t = { s with hall := { s.hall with rooms := t.hall.rooms }
                   link := s.link.served ⟨0x0A, tag,
                    .okClamped (decide (l ≠ xb.toInt)) (.levels a l r.ceiling (min l r.ceiling) r.level)⟩ }

/-- LANGUAGES_SET (R25): a list of more than eight codes, with a code 0 or above 63, or with a code twice is refused with BAD_VALUE
in every session state (R21). A right list is refused with WRONG_STATE in ENDING, stored alone in DORMANT and ARMED, and in
IN_SESSION stored with a channel made for every added code. There, where the tables of channels and consoles are in order, a removed
code loses its channel and the channel's owner goes to RELEASING, and a code kept keeps its slot. That the reply carries the room's
anchor is read from R12 (log 39). -/
def Obligations.LanguagesSetReplacesTheSet : Prop :=
  ∀ (s : State) (tag kb nb : Byte) (bs : List Byte) (codes : List Nat) (a : Nat) (r : Room),
    s.CanTake ⟨0x0B, tag, kb :: nb :: bs⟩ → s.link.phase = .run → s.RoomAt kb.toNat a r → bs.length = nb.toNat →
    codes = bs.map BitVec.toNat →
    (8 < codes.length ∨ (∃ c ∈ codes, c = 0 ∨ 63 < c) ∨ ¬ codes.Nodup →
      exec (.languagesSet tag (kb :: nb :: bs)) s = .next (s.served ⟨0x0B, tag, .refuse .badValue⟩)) ∧
    (codes.length ≤ 8 → (∀ c ∈ codes, 1 ≤ c ∧ c ≤ 63) → codes.Nodup →
      (r.session = .ending →
        exec (.languagesSet tag (kb :: nb :: bs)) s = .next (s.served ⟨0x0B, tag, .refuse .wrongState⟩)) ∧
      (r.session = .dormant ∨ r.session = .armed → ∃ t, exec (.languagesSet tag (kb :: nb :: bs)) s = .next t ∧
        t.room a = some { r with profile := { r.profile with languages := codes } } ∧
        (∀ b, b ≠ a → t.room b = s.room b) ∧
        t = { s with hall := { s.hall with rooms := t.hall.rooms }, link := s.link.served ⟨0x0B, tag, .ok (.room a)⟩ }) ∧
      (r.session = .inSession → ∃ t x, exec (.languagesSet tag (kb :: nb :: bs)) s = .next t ∧ t.room a = some x ∧
        x.profile = { r.profile with languages := codes } ∧ x.session = .inSession ∧
        (∀ c ∈ codes, c ∉ r.profile.languages → t.hasChannel ⟨a, c⟩ = true) ∧
        (s.ChannelsOk →
          (∀ c ∈ r.profile.languages, c ∉ codes → t.hasChannel ⟨a, c⟩ = false) ∧
          ∀ c ∈ codes, c ∈ r.profile.languages → ∀ k, s.service ⟨a, c⟩ = .served k → t.service ⟨a, c⟩ = .served k) ∧
        (s.OwnersOk → ∀ c ∈ r.profile.languages, c ∉ codes → ∀ o, s.ownerOf ⟨a, c⟩ = some o →
          (t.console o).state = .releasing ∧ (t.console o).owned = none)))

/-- SESSION_OPEN (R28, R32): the room enters IN_SESSION without conditions and timer, and has a channel for every code of its set.
Where nobody waits and no chair holds PRIORITY, nothing else of the room unit changes. -/
def Obligations.SessionOpenEntersTheSession : Prop :=
  ∀ (s : State) (tag kb : Byte) (a : Nat) (r : Room), s.CanTake ⟨0x0C, tag, [kb]⟩ → s.link.phase = .run →
    s.RoomAt kb.toNat a r →
    (r.session = .inSession ∨ r.session = .ending →
      exec (.sessionOpen tag [kb]) s = .next (s.served ⟨0x0C, tag, .refuse .wrongState⟩)) ∧
    (r.session = .dormant ∨ r.session = .armed → ∃ t x, exec (.sessionOpen tag [kb]) s = .next t ∧ t.room a = some x ∧
      x.session = .inSession ∧ x.wake = Wake.empty ∧ x.timer = none ∧ x.profile = r.profile ∧ x.segments = r.segments ∧
      (∀ c ∈ r.profile.languages, t.hasChannel ⟨a, c⟩ = true) ∧
      (r.queue = [] → s.chairsHolding r.segments = [] → s.CountersOff →
        t.hall = (s.setRoom a (some { r with session := .inSession, wake := Wake.empty, timer := none })).hall ∧
        ∀ n, (t.seat n).mic = (s.seat n).mic))

/-- SESSION_ARM (R27): a conditions byte with a bit above the four, and TIMER without a room timer, are refused with BAD_VALUE in
every session state. A DORMANT room becomes ARMED with the given conditions and the clamped timer, whose block count is 0.
SESSION_DISARM (R29): an ARMED room goes to DORMANT without conditions and timer. Each raises SESSION_STATE (R36), and any other
state is refused with WRONG_STATE. That the replies carry the room's anchor is read from R12 (log 39). -/
def Obligations.SessionArmAndDisarm : Prop :=
  (∀ (s : State) (tag kb cb t3 t2 t1 t0 : Byte) (a : Nat) (r : Room) (timer : Option Nat),
    s.CanTake ⟨0x0D, tag, [kb, cb, t3, t2, t1, t0]⟩ → s.link.phase = .run → s.RoomAt kb.toNat a r →
    timer = (if word32 t3 t2 t1 t0 = 4294967295 then none else some (word32 t3 t2 t1 t0)) →
    ((∃ i, 4 ≤ i ∧ i < 8 ∧ cb.getLsbD i = true) ∨ cb.getLsbD 3 = true ∧ timer = none →
      exec (.sessionArm tag [kb, cb, t3, t2, t1, t0]) s = .next (s.served ⟨0x0D, tag, .refuse .badValue⟩)) ∧
    ((∀ i, 4 ≤ i → i < 8 → cb.getLsbD i = false) → (cb.getLsbD 3 = true → timer ≠ none) →
      (r.session ≠ .dormant → exec (.sessionArm tag [kb, cb, t3, t2, t1, t0]) s =
        .next (s.served ⟨0x0D, tag, .refuse .wrongState⟩)) ∧
      (r.session = .dormant → ∃ t, exec (.sessionArm tag [kb, cb, t3, t2, t1, t0]) s = .next t ∧
        t.room a = some { r with
          session := .armed
          wake := { chairPress := cb.getLsbD 0, delegatePress := cb.getLsbD 1, consolePress := cb.getLsbD 2,
                    timer := cb.getLsbD 3 }
          timer := timer.map (fun n => { seconds := max 1 (min 86400 n), blocks := 0 }) } ∧
        (∀ b, b ≠ a → t.room b = s.room b) ∧
        t = { s with
          hall := { s.hall with rooms := t.hall.rooms }
          link := ((LinkUnit.raise { s.link with input := s.link.input.drop 1 }
            (.sessionState a .dormant .armed .sessionArm none none)).answer ⟨0x0D, tag,
              .okClamped (decide (timer ≠ timer.map (fun n => max 1 (min 86400 n)))) (.room a)⟩) }))) ∧
  ∀ (s : State) (tag kb : Byte) (a : Nat) (r : Room), s.CanTake ⟨0x0E, tag, [kb]⟩ → s.link.phase = .run →
    s.RoomAt kb.toNat a r →
    (r.session = .armed → ∃ t, exec (.sessionDisarm tag [kb]) s = .next t ∧
      t.room a = some { r with session := .dormant, wake := Wake.empty, timer := none } ∧
      (∀ b, b ≠ a → t.room b = s.room b) ∧
      t = { s with
        hall := { s.hall with rooms := t.hall.rooms }
        link := ((LinkUnit.raise { s.link with input := s.link.input.drop 1 }
          (.sessionState a .armed .dormant .sessionDisarm none none)).answer ⟨0x0E, tag, .ok (.room a)⟩) }) ∧
    (r.session ≠ .armed → exec (.sessionDisarm tag [kb]) s = .next (s.served ⟨0x0E, tag, .refuse .wrongState⟩))

/-- SESSION_END (R34): refused with WRONG_STATE but in IN_SESSION; there the room ends in DORMANT if its live list is empty and in
ENDING if not, its queue is empty and its priority over. -/
def Obligations.SessionEndLeavesTheSession : Prop :=
  ∀ (s : State) (tag kb : Byte) (a : Nat) (r : Room), s.CanTake ⟨0x0F, tag, [kb]⟩ → s.link.phase = .run →
    s.RoomAt kb.toNat a r →
    (r.session ≠ .inSession → exec (.sessionEnd tag [kb]) s = .next (s.served ⟨0x0F, tag, .refuse .wrongState⟩)) ∧
    (r.session = .inSession → (∀ e ∈ r.queue, s.seatAnchor e.seat = some a) →
      ∃ t x, exec (.sessionEnd tag [kb]) s = .next t ∧ t.room a = some x ∧
        x.session = (if r.live = [] then .dormant else .ending) ∧ x.queue = [] ∧ x.priority = false ∧ x.live = r.live ∧
        x.profile = r.profile ∧ x.segments = r.segments ∧ x.level = r.level ∧
        (∀ n ∈ r.live, (t.seat n).mic ≠ .opening ∧ (t.seat n).mic ≠ .live) ∧ (∀ n, (t.seat n).slot = (s.seat n).slot) ∧
        t.hall = { s.hall with rooms := t.hall.rooms } ∧ (s.CountersOff → ∀ b, b ≠ a → t.room b = s.room b))

/-- The six queries (ROOM_QUERY, SEAT_QUERY, QUEUE_QUERY, BOOTH_QUERY, SLOT_QUERY, which has two selectors, and IDENTIFY) answer OK
with what they read, and change no state (R26, R86, R121, R148, R163, R198). That BOOTH_QUERY reads a booth that is not
installed by its stored room and channel is the model's reading (log 30). That the reply to BOOTH_QUERY carries the booth number,
the console addresses and the list position of an UNSERVED channel, and the reply to SLOT_QUERY the number of each slot, is the
model's choice (log 48). -/
def Obligations.QueriesAnswerAndChangeNothing : Prop :=
  ∀ (s : State) (tag b0 b1 : Byte) (a : Nat) (r : Room),
    (s.CanTake ⟨0x10, tag, [b0]⟩ → s.link.phase = .run → s.RoomAt b0.toNat a r →
      exec (.roomQuery tag [b0]) s = .next (s.served ⟨0x10, tag, .ok (.roomReport (s.roomReport r))⟩)) ∧
    (s.CanTake ⟨0x18, tag, [b0, b1]⟩ → seatNumberOk (word16 b0 b1) = true →
      exec (.seatQuery tag [b0, b1]) s = .next (s.served ⟨0x18, tag, .ok (.seatReport (s.seatReport (word16 b0 b1)))⟩)) ∧
    (s.CanTake ⟨0x19, tag, [b0, b1]⟩ → s.link.phase = .run → s.RoomAt b0.toNat a r → 1 ≤ b1.toNat → b1.toNat ≤ 32 →
      exec (.queueQuery tag [b0, b1]) s = .next (s.served ⟨0x19, tag, .ok (.queueReport a r.profile.service r.rotation
        r.queue.length ((s.candidate r).map Entry.seat) (((r.queue.drop (b1.toNat - 1)).take 16).map s.queueRow))⟩)) ∧
    (s.CanTake ⟨0x1D, tag, [b0]⟩ → 1 ≤ b0.toNat → b0.toNat ≤ 24 →
      exec (.boothQuery tag [b0]) s = .next (s.served ⟨0x1D, tag, .ok (.boothReport (s.boothReport b0.toNat))⟩)) ∧
    (s.CanTake ⟨0x1E, tag, [0, b1]⟩ → b1.toNat ≤ 63 →
      exec (.slotQuery tag [0, b1]) s = .next (s.served ⟨0x1E, tag, .ok (.slotReport (s.slotReport false b1.toNat))⟩)) ∧
    (s.CanTake ⟨0x1E, tag, [1, b1]⟩ → 1 ≤ b1.toNat → b1.toNat ≤ 96 →
      exec (.slotQuery tag [1, b1]) s = .next (s.served ⟨0x1E, tag, .ok (.slotReport (s.slotReport true b1.toNat))⟩)) ∧
    (s.CanTake ⟨0x22, tag, []⟩ →
      exec (.identify tag []) s = .next (s.served ⟨0x22, tag, .ok (.identity "ACTUNA" 1240 1 s.link.phase
        (baud s.link.rate1 s.link.rate0) (s.link.restarts ≠ []))⟩))

/-! ## Merge and split (chapter 3) -/

/-- A merge leaves one room over both lists of segments, with P's anchor, profile and rank of session, the languages of R46, the
lowest maximum as ceiling, and P's level brought down to it (R39 to R41, R46). A level that then differs from its target ramps, and
else P's ramp state is kept, here where the level does not drop or the request is not below the ceiling it drops to (log 56). Merged
ARMED it has the conditions of both and the timer with fewer blocks remaining, and in any other state none of either (R41). Its live
list begins with the two lists joined in ascending opening number (R43). Where promotion is ruled out by the mode, the session or
the limit, and no chair brings priority into session: its queue is the 32 earliest entries of both by stamp, the seats of the others
go to IDLE (R44), it is priority-active as either room was, and every other seat keeps all but its indication and the mutes of R45
(1). -/
def Obligations.MergeLeavesOneRoom : Prop :=
  ∀ (s : State) (a b : Nat) (p q : Room), s.room a = some p → s.room b = some q → p.anchor = a → q.anchor = b → a ≠ b →
    (∃ m, (s.merge a b).room a = some m ∧ (s.merge a b).room b = none ∧
      m.segments = segmentNumbers.filter (fun k => p.segments.contains k || q.segments.contains k) ∧
      (m.session = p.session ∨ m.session = q.session) ∧ p.session.rank ≤ m.session.rank ∧
      q.session.rank ≤ m.session.rank ∧
      m.profile = { p.profile with
        languages := (p.profile.languages ++ q.profile.languages.filter (fun c => !(p.profile.languages.contains c))).take 8 } ∧
      m.ceiling = s.ceilingOf m.segments ∧ m.level = min p.level m.ceiling ∧
      (p.level ≤ m.ceiling ∨ m.ceiling ≤ p.profile.level →
        m.ramp = if m.level = min p.profile.level m.ceiling then p.ramp else .ramping) ∧
      (m.session = .armed →
        m.wake = { chairPress := p.wake.chairPress || q.wake.chairPress
                   delegatePress := p.wake.delegatePress || q.wake.delegatePress
                   consolePress := p.wake.consolePress || q.wake.consolePress, timer := p.wake.timer || q.wake.timer } ∧
        (p.timer = none → m.timer = q.timer) ∧ (q.timer = none → m.timer = p.timer) ∧
        ∀ (x y : RoomTimer) (left : RoomTimer → Int), (∀ z, left z = (z.seconds : Int) * 1000 - z.blocks) →
          p.timer = some x → q.timer = some y →
          (left x < left y → m.timer = some x) ∧ (left y < left x → m.timer = some y) ∧
          (m.timer = some x ∨ m.timer = some y)) ∧
      (m.session ≠ .armed → m.wake = Wake.empty ∧ m.timer = none) ∧
      (∀ k ∈ q.segments, (s.merge a b).anchorOf k = some a) ∧
      (∀ k, k ∉ q.segments → (s.merge a b).anchorOf k = s.anchorOf k) ∧
      (∀ live : List Nat, JoinedBy s.openingOf p.live q.live live → p.live.Pairwise (fun x y => s.openingOf x < s.openingOf y) →
        q.live.Pairwise (fun x y => s.openingOf x < s.openingOf y) → ∃ more, m.live = live ++ more)) ∧
    (s.CountersOff → s.RoomsOk → s.QueuesOk → s.EntriesRight → (p.queue ++ q.queue).Pairwise (fun x y => x.seat ≠ y.seat) →
      (p.profile.floorMode = .chair ∨ (p.session ≠ .inSession ∧ q.session ≠ .inSession) ∨
        p.profile.openLimit ≤ s.delegateCount p + s.delegateCount q) →
      (p.priority = true ∨ q.priority = true ∨ s.chairsHolding (p.segments ++ q.segments) = []) →
      ∃ m all, (s.merge a b).room a = some m ∧ JoinedBy Entry.stamp p.queue q.queue all ∧
        m.queue = all.take 32 ∧ m.live.Perm (p.live ++ q.live) ∧ m.rotation = p.rotation ∧
        m.priority = (p.priority || q.priority) ∧
        (∀ c, c ≠ a → c ≠ b → (s.merge a b).room c = s.room c) ∧
        (∀ e ∈ all.drop 32, (s.merge a b).seat e.seat = { s.seat e.seat with
          mic := .idle, stamp := none, indication := ((s.merge a b).seat e.seat).indication }) ∧
        ∀ n, (∀ e ∈ all.drop 32, e.seat ≠ n) → (s.merge a b).seat n = { s.seat n with
          indication := ((s.merge a b).seat n).indication
          muted := (s.seat n).muted || decide (m.priority = true ∧ p.profile.action = .muteAll ∧ n ∈ p.live ++ q.live ∧
            (s.seat n).cls = .delegate ∧ (s.seat n).mic = .live) })

/-- A split leaves two rooms, each over its own segments, with copies of the profile, its own ceiling, and the level no higher than
that ceiling (R50, R51). Both halves keep the wake conditions, the room timer with its counts, and the rotation pointer where
promotion is ruled out; only a half that passes from ENDING to DORMANT loses them (R35, R54). A level that differs from the half's
target ramps, and else the ramp state is kept, here where the level does not drop or the request is not below the ceiling (log 56).
Each live list begins with the seats of its half in R's order (R52), and a half that is ENDING without one goes to DORMANT (R54).
Priority stays in a half where a chair holds it (R53). Where promotion is ruled out by the mode, the session or the limit, each
queue holds the entries of its half in R's order, and every seat keeps all but its indication and the mutes of a half whose priority
has ended. -/
def Obligations.SplitLeavesTwoRooms : Prop :=
  ∀ (s : State) (a c : Nat) (keep go : List Nat) (r : Room), s.room a = some r → r.anchor = a → a ≠ c →
    ∃ x y, (s.split a c keep go).room a = some x ∧ (s.split a c keep go).room c = some y ∧
      x.segments = keep ∧ y.segments = go ∧ x.profile = r.profile ∧ y.profile = r.profile ∧
      x.ceiling = s.ceilingOf keep ∧ y.ceiling = s.ceilingOf go ∧
      x.level = min r.level x.ceiling ∧ y.level = min r.level y.ceiling ∧
      (∀ k ∈ go, (s.split a c keep go).anchorOf k = some c) ∧
      (∀ k, k ∉ go → (s.split a c keep go).anchorOf k = s.anchorOf k) ∧
      (∀ z half, (z = x ∧ half = keep ∨ z = y ∧ half = go) →
        (∃ more, z.live = s.seatsIn half r.live ++ more) ∧
        z.session = (if r.session = .ending ∧ s.seatsIn half r.live = [] then .dormant else r.session) ∧
        (r.level ≤ z.ceiling ∨ z.ceiling ≤ r.profile.level →
          z.ramp = if z.level = min r.profile.level z.ceiling then r.ramp else .ramping) ∧
        z.wake = (if r.session = .ending ∧ s.seatsIn half r.live = [] then Wake.empty else r.wake) ∧
        z.timer = (if r.session = .ending ∧ s.seatsIn half r.live = [] then none else r.timer) ∧
        (twf Seat.initial s.floor.seats = true →
          z.priority = (r.priority && decide (s.chairsHolding half ≠ [])))) ∧
      (s.CountersOff → twf Seat.initial s.floor.seats = true →
        (r.profile.floorMode = .chair ∨ r.session ≠ .inSession ∨
          ∀ half, half = keep ∨ half = go → r.profile.openLimit ≤ s.delegateCount { r with live := s.seatsIn half r.live }) →
        x.live = s.seatsIn keep r.live ∧ y.live = s.seatsIn go r.live ∧
        x.rotation = (if r.session = .ending ∧ s.seatsIn keep r.live = [] then none else r.rotation) ∧
        y.rotation = (if r.session = .ending ∧ s.seatsIn go r.live = [] then none else r.rotation) ∧
        x.queue = r.queue.filter (fun e => keep.contains (s.seat e.seat).segment) ∧
        y.queue = r.queue.filter (fun e => go.contains (s.seat e.seat).segment) ∧
        (∀ d, d ≠ a → d ≠ c → (s.split a c keep go).room d = s.room d) ∧
        ∀ n, (s.split a c keep go).seat n = { s.seat n with
          indication := ((s.split a c keep go).seat n).indication
          muted := (s.seat n).muted && decide (r.priority = true → n ∈ r.live →
            ((s.seat n).segment ∈ keep → x.priority = true) ∧ ((s.seat n).segment ∈ go → y.priority = true)) })

/-- At a merge, a room that has channels has one for each code of the merged set and Q has none any more (R47). Q's channels of
other codes keep their slots under P's anchor, the unserved list keeps its order, and made channels join its tail. Q's owners move
with their channels; those of a code that P has, or of a cut code, go to RELEASING (R48). At a split each half has a channel for
each code where it is in session or ending, A's and every other room's keep their slots, K's join the tail of the unserved list
(R54, R55), and the owners of the booths that go own K's channels (R56). -/
def Obligations.ChannelsAndOwnersFollowTheirRooms : Prop :=
  (∀ (s t : State) (a b : Nat) (p q : Room) (codes : List Nat), t = s.merge a b → s.room a = some p → s.room b = some q →
    p.anchor = a → q.anchor = b → a ≠ b → s.ChannelsOk → s.OwnersOk → s.ChannelsOf p → s.ChannelsOf q →
    s.OwnersHaveChannels → p.profile.languages.Nodup → q.profile.languages.Nodup → p.profile.languages.length ≤ 8 →
    codes = (p.profile.languages ++ q.profile.languages.filter (fun c => !(p.profile.languages.contains c))).take 8 →
    (∀ c, t.hasChannel ⟨b, c⟩ = false ∧ (t.hasChannel ⟨a, c⟩ = true ↔
      (p.session.hasChannels = true ∨ q.session.hasChannels = true) ∧ c ∈ codes)) ∧
    (∀ c k, (s.service ⟨a, c⟩ = .served k → t.service ⟨a, c⟩ = .served k) ∧
      (c ∈ codes → s.hasChannel ⟨a, c⟩ = false → s.service ⟨b, c⟩ = .served k → t.service ⟨a, c⟩ = .served k)) ∧
    (∀ key k, key.anchor ≠ a → key.anchor ≠ b →
      t.hasChannel key = s.hasChannel key ∧ (s.service key = .served k → t.service key = .served k)) ∧
    (∃ n new, t.dist.unserved = ((s.dist.unserved.filter (fun key => decide (key.anchor ≠ b ∨
        key.code ∈ codes ∧ s.hasChannel ⟨a, key.code⟩ = false))).map
          (fun key => if key.anchor = b then ⟨a, key.code⟩ else key)).drop n ++ new ∧ ∀ key ∈ new, key.anchor = a) ∧
    (∀ o, (∀ c, (s.console o).owned ≠ some ⟨b, c⟩) →
      t.console o = { s.console o with indication := (t.console o).indication }) ∧
    ∀ o c, (s.console o).owned = some ⟨b, c⟩ → t.console o =
      if c ∈ codes ∧ s.hasChannel ⟨a, c⟩ = false then
        { s.console o with owned := some ⟨a, c⟩, indication := (t.console o).indication }
      else { s.console o with state := .releasing, owned := none, indication := (t.console o).indication }) ∧
  ∀ (s t : State) (a c : Nat) (keep go : List Nat) (r : Room), t = s.split a c keep go → s.room a = some r → r.anchor = a →
    a ≠ c → s.ChannelsOk → s.OwnersOk → s.ChannelsOf r → (∀ l, s.hasChannel ⟨c, l⟩ = false) → s.OwnersHaveChannels →
    ∃ x y, t.room a = some x ∧ t.room c = some y ∧ x.anchor = a ∧ y.anchor = c ∧ t.ChannelsOf x ∧ t.ChannelsOf y ∧
      (∀ key k, (key.anchor = a → x.session.hasChannels = true) → key.anchor ≠ c →
        t.hasChannel key = s.hasChannel key ∧ (s.service key = .served k → t.service key = .served k)) ∧
      (x.session = r.session →
        ∃ new, t.dist.unserved = s.dist.unserved ++ new ∧ ∀ key ∈ new, key.anchor = c) ∧
      (∀ o l, (s.console o).owned = some ⟨a, l⟩ → s.consoleInUse o = true → (s.boothAt (consoleBooth o)).home ∈ go →
        t.console o = { s.console o with owned := some ⟨c, l⟩, indication := (t.console o).indication }) ∧
      ∀ o, ((∀ l, (s.console o).owned ≠ some ⟨a, l⟩) ∨ s.consoleInUse o = false ∨ (s.boothAt (consoleBooth o)).home ∉ go) →
        t.console o = { s.console o with indication := (t.console o).indication }

/-! ## Seats and the floor (chapters 5 and 6) -/

/-- SEAT_SET (R84): the phase, the checks that refuse with BAD_VALUE, and the four fields stored with the trim clamped. SEAT_TRIM and
BOOTH_TRIM (R85, R147): WRONG_PHASE in CONFIG; in RUN a number out of range is refused with BAD_VALUE and a record that is not
installed with NOT_INSTALLED, and else the clamped trim is stored and nothing else changes. -/
def Obligations.SeatSetAndTrimsStoreTheirFields : Prop :=
  (∀ (s : State) (tag b0 b1 ib cb kb xb : Byte) (n : Nat) (x : Int), s.CanTake ⟨0x03, tag, [b0, b1, ib, cb, kb, xb]⟩ →
    n = word16 b0 b1 → x = max (-12) (min 12 xb.toInt) →
    (s.link.phase = .run → exec (.seatSet tag [b0, b1, ib, cb, kb, xb]) s =
      .next (s.served ⟨0x03, tag, .refuse .wrongPhase⟩)) ∧
    (s.link.phase = .config → (1023 < n ∨ n % 256 = 0 ∨ 240 < n % 256 ∨ kb.toNat < 1 ∨ 12 < kb.toNat ∨ 1 < ib.toNat ∨ 1 < cb.toNat) →
      exec (.seatSet tag [b0, b1, ib, cb, kb, xb]) s = .next (s.served ⟨0x03, tag, .refuse .badValue⟩)) ∧
    (s.link.phase = .config → n ≤ 1023 → 1 ≤ n % 256 → n % 256 ≤ 240 → 1 ≤ kb.toNat → kb.toNat ≤ 12 → ib.toNat ≤ 1 → cb.toNat ≤ 1 →
      ∃ t, exec (.seatSet tag [b0, b1, ib, cb, kb, xb]) s = .next t ∧
        t.seat n = { s.seat n with installed := decide (ib = 1), cls := if cb = 0 then .delegate else .chair,
                                   segment := kb.toNat, trim := x } ∧
        (∀ m, m ≠ n → t.seat m = s.seat m) ∧
        t = { s with floor := { s.floor with seats := t.floor.seats }
                     link := s.link.served ⟨0x03, tag, .okClamped (decide (x ≠ xb.toInt)) .nothing⟩ })) ∧
  (∀ (s : State) (tag b0 b1 xb : Byte) (n : Nat) (x : Int), s.CanTake ⟨0x17, tag, [b0, b1, xb]⟩ → n = word16 b0 b1 →
    x = max (-12) (min 12 xb.toInt) →
    (s.link.phase = .config → exec (.seatTrim tag [b0, b1, xb]) s = .next (s.served ⟨0x17, tag, .refuse .wrongPhase⟩)) ∧
    (s.link.phase = .run → (1023 < n ∨ n % 256 = 0 ∨ 240 < n % 256) →
      exec (.seatTrim tag [b0, b1, xb]) s = .next (s.served ⟨0x17, tag, .refuse .badValue⟩)) ∧
    (s.link.phase = .run → n ≤ 1023 → 1 ≤ n % 256 → n % 256 ≤ 240 → (s.seat n).installed = false →
      exec (.seatTrim tag [b0, b1, xb]) s = .next (s.served ⟨0x17, tag, .refuse .notInstalled⟩)) ∧
    (s.link.phase = .run → n ≤ 1023 → 1 ≤ n % 256 → n % 256 ≤ 240 → (s.seat n).installed = true →
      ∃ t, exec (.seatTrim tag [b0, b1, xb]) s = .next t ∧ t.seat n = { s.seat n with trim := x } ∧
        (∀ m, m ≠ n → t.seat m = s.seat m) ∧
        t = { s with floor := { s.floor with seats := t.floor.seats }
                     link := s.link.served ⟨0x17, tag, .okClamped (decide (x ≠ xb.toInt)) .nothing⟩ })) ∧
  ∀ (s : State) (tag bb xb : Byte) (b : Nat) (x : Int), s.CanTake ⟨0x1B, tag, [bb, xb]⟩ → b = bb.toNat →
    x = max (-12) (min 12 xb.toInt) →
    (s.link.phase = .config → exec (.boothTrim tag [bb, xb]) s = .next (s.served ⟨0x1B, tag, .refuse .wrongPhase⟩)) ∧
    (s.link.phase = .run → (b < 1 ∨ 24 < b) →
      exec (.boothTrim tag [bb, xb]) s = .next (s.served ⟨0x1B, tag, .refuse .badValue⟩)) ∧
    (s.link.phase = .run → 1 ≤ b → b ≤ 24 → (s.boothAt b).installed = false →
      exec (.boothTrim tag [bb, xb]) s = .next (s.served ⟨0x1B, tag, .refuse .notInstalled⟩)) ∧
    (s.link.phase = .run → 1 ≤ b → b ≤ 24 → (s.boothAt b).installed = true →
      ∃ t, exec (.boothTrim tag [bb, xb]) s = .next t ∧ t.boothAt b = { s.boothAt b with trim := x } ∧
        (∀ c, c ≠ b → t.boothAt c = s.boothAt c) ∧
        t = { s with booth := { s.booth with booths := t.booth.booths }
                     link := s.link.served ⟨0x1B, tag, .okClamped (decide (x ≠ xb.toInt)) .nothing⟩ })

/-- MIC_OPEN (R97): the refusals of its four checks in their order, the open test of R88 among them. An IDLE or QUEUED seat that
passes goes to OPENING with the lowest free slot of its bus (R79 (1)), the next opening number and the clamped grant limit, at the
tail of its room's live list; a QUEUED one leaves the queue and loses its stamp. MIC_CLOSE (R98): a seat in OPENING or LIVE goes to
CLOSING and keeps its slot, its opening number and its place on the live list, and promotion runs after that in its room (R105),
which does nothing where the queue is empty; a QUEUED seat leaves the queue for IDLE; any other state is refused with WRONG_STATE. -/
def Obligations.MicOpenAndClose : Prop :=
  (∀ (s : State) (tag b0 b1 d1 d0 : Byte) (n : Nat), s.CanTake ⟨0x11, tag, [b0, b1, d1, d0]⟩ → n = word16 b0 b1 →
     (s.link.phase = .config →
       exec (.micOpen tag [b0, b1, d1, d0]) s = .next (s.served ⟨0x11, tag, .refuse .wrongPhase⟩)) ∧
     (s.link.phase = .run → (1023 < n ∨ n % 256 = 0 ∨ 240 < n % 256) →
       exec (.micOpen tag [b0, b1, d1, d0]) s = .next (s.served ⟨0x11, tag, .refuse .badValue⟩)) ∧
     (s.link.phase = .run → n ≤ 1023 → 1 ≤ n % 256 → n % 256 ≤ 240 → (s.seat n).installed = false →
       exec (.micOpen tag [b0, b1, d1, d0]) s = .next (s.served ⟨0x11, tag, .refuse .notInstalled⟩)) ∧
     ∀ (a : Nat) (r : Room), s.link.phase = .run → s.SeatAt n a r →
       (r.session ≠ .inSession ∨ (s.seat n).mic ≠ .idle ∧ (s.seat n).mic ≠ .queued →
         exec (.micOpen tag [b0, b1, d1, d0]) s = .next (s.served ⟨0x11, tag, .refuse .wrongState⟩)) ∧
       (r.session = .inSession → (s.seat n).mic = .idle ∨ (s.seat n).mic = .queued →
         ((s.seat n).cls = .delegate ∧ (r.closing = true ∨ r.profile.openLimit ≤ s.delegateCount r) ∨
           (s.seat n).cls = .chair ∧ r.profile.chairLimit ≤ s.chairCount r →
           exec (.micOpen tag [b0, b1, d1, d0]) s = .next (s.served ⟨0x11, tag, .refuse .atLimit⟩)) ∧
         (((s.seat n).cls = .delegate → r.closing = false ∧ s.delegateCount r < r.profile.openLimit) →
           ((s.seat n).cls = .chair → s.chairCount r < r.profile.chairLimit) → s.freeSlot (seatBus n) = none →
           exec (.micOpen tag [b0, b1, d1, d0]) s = .next (s.served ⟨0x11, tag, .refuse .busFull⟩)) ∧
         (((s.seat n).cls = .delegate → r.closing = false ∧ s.delegateCount r < r.profile.openLimit) →
           ((s.seat n).cls = .chair → s.chairCount r < r.profile.chairLimit) → s.freeSlot (seatBus n) ≠ none →
           s.floor.openingCount = 4294967295 →
           exec (.micOpen tag [b0, b1, d1, d0]) s = .next (s.served ⟨0x11, tag, .refuse .atLimit⟩))) ∧
       ∀ (k : Nat) (d : Option Nat), r.session = .inSession → (s.seat n).mic = .idle ∨ (s.seat n).mic = .queued →
         ((s.seat n).cls = .delegate → r.closing = false ∧ s.delegateCount r < r.profile.openLimit) →
         ((s.seat n).cls = .chair → s.chairCount r < r.profile.chairLimit) →
         s.freeSlot (seatBus n) = some k → s.floor.openingCount ≠ 4294967295 →
         d = (if word16 d1 d0 = 65535 then none else some (word16 d1 d0)) →
         ∃ t, exec (.micOpen tag [b0, b1, d1, d0]) s = .next t ∧
           t.seat n = { s.seat n with mic := .opening, slot := some k, openingNumber := some s.floor.openingCount,
                                      grant := d.map (fun x => max 10 (min 3600 x)), indication := some .speaking
                                      stamp := if (s.seat n).mic = .queued then none else (s.seat n).stamp } ∧
           (∀ m, m ≠ n → t.seat m = s.seat m) ∧
           t.room a = some { r with
             live := r.live ++ [n]
             queue := if (s.seat n).mic = .queued then r.queue.filter (fun e => decide (e.seat ≠ n)) else r.queue } ∧
           (∀ b, b ≠ a → t.room b = s.room b) ∧ (∀ i, i ≠ seatBus n → t.bus i = s.bus i) ∧ s.QueuesOnly t ∧
           t = { s with
             hall := { s.hall with rooms := t.hall.rooms }
             floor := { s.floor with seats := t.floor.seats, openingCount := s.floor.openingCount + 1 }
             buses := t.buses
             link := (LinkUnit.raise { s.link with input := s.link.input.drop 1 }
               (.micState n (some a) (s.seat n).mic .opening .host (s.seat n).muted (some k))).answer ⟨0x11, tag,
                 .okClamped (decide (d ≠ d.map (fun x => max 10 (min 3600 x)))) (.slotTaken (some k))⟩ }) ∧
  ∀ (s : State) (tag b0 b1 : Byte) (n a : Nat) (r : Room), s.CanTake ⟨0x12, tag, [b0, b1]⟩ → s.link.phase = .run →
    n = word16 b0 b1 → s.SeatAt n a r →
    ((s.seat n).mic = .opening ∨ (s.seat n).mic = .live →
      ∃ u : State,
        u.seat n = { s.seat n with mic := .closing, clock := none, liveNumber := none, grant := none, warned := false,
                                   limitReported := false, muted := false, secondDue := false,
                                   indication := (u.seat n).indication } ∧
        (r.session = .inSession → (u.seat n).indication = some .idle) ∧
        (∀ m, m ≠ n → u.seat m = s.seat m) ∧ s.QueuesOnly u ∧
        u = { s with
          floor := { s.floor with seats := u.floor.seats }
          buses := u.buses
          link := LinkUnit.raise { s.link with input := s.link.input.drop 1 }
            (.micState n (some a) (s.seat n).mic .closing .host false (s.seat n).slot) } ∧
        exec (.micClose tag [b0, b1]) s = .next ((u.promote a).reply ⟨0x12, tag, .ok .nothing⟩)) ∧
    ((s.seat n).mic = .opening ∨ (s.seat n).mic = .live → r.queue = [] →
      ∃ t, exec (.micClose tag [b0, b1]) s = .next t ∧
        t.seat n = { s.seat n with mic := .closing, clock := none, liveNumber := none, grant := none, warned := false,
                                   limitReported := false, muted := false, secondDue := false,
                                   indication := (t.seat n).indication } ∧
        (∀ m, m ≠ n → t.seat m = s.seat m) ∧ s.QueuesOnly t ∧
        t = { s with
          floor := { s.floor with seats := t.floor.seats }
          buses := t.buses
          link := (LinkUnit.raise { s.link with input := s.link.input.drop 1 }
            (.micState n (some a) (s.seat n).mic .closing .host false (s.seat n).slot)).answer ⟨0x12, tag, .ok .nothing⟩ }) ∧
    ((s.seat n).mic = .queued → ∃ t, exec (.micClose tag [b0, b1]) s = .next t ∧
      t.seat n = { s.seat n with mic := .idle, stamp := none, indication := (t.seat n).indication } ∧
      (∀ m, m ≠ n → t.seat m = s.seat m) ∧ s.QueuesOnly t ∧
      t.room a = some { r with queue := r.queue.filter (fun e => decide (e.seat ≠ n)) } ∧
      (∀ b, b ≠ a → t.room b = s.room b) ∧
      t = { s with
        hall := { s.hall with rooms := t.hall.rooms }
        floor := { s.floor with seats := t.floor.seats }
        buses := t.buses
        link := (LinkUnit.raise { s.link with input := s.link.input.drop 1 }
          (.micState n (some a) .queued .idle .host (s.seat n).muted (s.seat n).slot)).answer ⟨0x12, tag, .ok .nothing⟩ }) ∧
    ((s.seat n).mic = .absent ∨ (s.seat n).mic = .idle ∨ (s.seat n).mic = .closing ∨ (s.seat n).mic = .holdOff →
      exec (.micClose tag [b0, b1]) s = .next (s.served ⟨0x12, tag, .refuse .wrongState⟩))
/-- REQUEST_ADD in a room of mode CHAIR, which does not promote (R99 (1), R114): QUEUED with the next stamp, at the tail of the
queue. REQUEST_CANCEL of a QUEUED delegate (R99 (2)): back to IDLE. The refusals in their order, after the checks of the seat: a
chair with BAD_VALUE by either request; REQUEST_ADD out of session or in a state but IDLE with WRONG_STATE, of a blocked seat with
BLOCKED, and at 32 entries or without a stamp to give (R112) with QUEUE_FULL; REQUEST_CANCEL in a state but QUEUED with WRONG_STATE. -/
def Obligations.RequestsJoinAndLeaveTheQueue : Prop :=
  (∀ (s : State) (tag b0 b1 : Byte) (n a : Nat) (r : Room), s.CanTake ⟨0x13, tag, [b0, b1]⟩ → s.link.phase = .run →
    n = word16 b0 b1 → s.SeatAt n a r → (s.seat n).cls = .delegate → r.session = .inSession → (s.seat n).mic = .idle →
    s.blocked n = false → r.queue.length < 32 → s.floor.stampCount ≠ 4294967295 → r.profile.floorMode = .chair →
    s.CountersOff →
    ∃ t, exec (.requestAdd tag [b0, b1]) s = .next t ∧
      t.seat n = { s.seat n with mic := .queued, stamp := some s.floor.stampCount, indication := some .waiting } ∧
      (∀ m, m ≠ n → t.seat m = s.seat m) ∧ s.QueuesOnly t ∧
      t.room a = some { r with queue := r.queue ++ [⟨n, s.floor.stampCount, (s.seat n).segment⟩] } ∧
      (∀ b, b ≠ a → t.room b = s.room b) ∧
      t = { s with hall := { s.hall with rooms := t.hall.rooms }
                   floor := { s.floor with seats := t.floor.seats, stampCount := s.floor.stampCount + 1 }
                   buses := t.buses
                   link := (LinkUnit.raise { s.link with input := s.link.input.drop 1 }
                    (.micState n (some a) .idle .queued .host (s.seat n).muted (s.seat n).slot)).answer
                      ⟨0x13, tag, .ok (.mic .queued)⟩ }) ∧
  (∀ (s : State) (tag b0 b1 : Byte) (n a : Nat) (r : Room), s.link.phase = .run → n = word16 b0 b1 → s.SeatAt n a r →
    (∀ refused : Status → Prop, s.CanTake ⟨0x13, tag, [b0, b1]⟩ →
      (∀ x, refused x ↔ exec (.requestAdd tag [b0, b1]) s = .next (s.served ⟨0x13, tag, .refuse x⟩)) →
      ((s.seat n).cls = .chair → refused .badValue) ∧
      ((s.seat n).cls = .delegate →
        (r.session ≠ .inSession ∨ (s.seat n).mic ≠ .idle → refused .wrongState) ∧
        (r.session = .inSession → (s.seat n).mic = .idle →
          (s.blocked n = true → refused .blocked) ∧
          (s.blocked n = false → 32 ≤ r.queue.length ∨ s.floor.stampCount = 4294967295 → refused .queueFull)))) ∧
    ∀ refused : Status → Prop, s.CanTake ⟨0x14, tag, [b0, b1]⟩ →
      (∀ x, refused x ↔ exec (.requestCancel tag [b0, b1]) s = .next (s.served ⟨0x14, tag, .refuse x⟩)) →
      ((s.seat n).cls = .chair → refused .badValue) ∧
      ((s.seat n).cls = .delegate → (s.seat n).mic ≠ .queued → refused .wrongState)) ∧
  ∀ (s : State) (tag b0 b1 : Byte) (n a : Nat) (r : Room), s.CanTake ⟨0x14, tag, [b0, b1]⟩ → s.link.phase = .run →
    n = word16 b0 b1 → s.SeatAt n a r → (s.seat n).cls = .delegate → (s.seat n).mic = .queued →
    ∃ t, exec (.requestCancel tag [b0, b1]) s = .next t ∧
      t.seat n = { s.seat n with mic := .idle, stamp := none, indication := (t.seat n).indication } ∧
      (∀ m, m ≠ n → t.seat m = s.seat m) ∧ s.QueuesOnly t ∧
      t.room a = some { r with queue := r.queue.filter (fun e => decide (e.seat ≠ n)) } ∧
      (∀ b, b ≠ a → t.room b = s.room b) ∧
      t = { s with hall := { s.hall with rooms := t.hall.rooms }, floor := { s.floor with seats := t.floor.seats }
                   buses := t.buses, link := t.link }

/-- NEXT in a room below its open limit (R106, R120): the next candidate goes to OPENING, its entry leaves the queue, and the
rotation pointer becomes its segment. NEXT REPLACE in a room exactly at its limit first closes one delegate with cause REPLACED, the
LIVE one with the lowest live number or else the OPENING one with the lowest opening number; the candidate chosen before that close
then opens, and promotion runs only after it. The refusals in their order: out of session WRONG_STATE, under an active CLOSE action
AT_LIMIT, with an empty queue QUEUE_EMPTY, with no free slot on any bus of the queue BUS_FULL, at the end of the opening count
AT_LIMIT; then PLAIN at or above the limit and REPLACE above it AT_LIMIT. QUEUE_CLEAR (R116) empties the room's queue, sends every
seat of it to IDLE, and keeps the rotation pointer and the live list. -/
def Obligations.NextAndQueueClear : Prop :=
  (∀ (s : State) (tag kb mb : Byte) (a : Nat) (r : Room) (e : Entry), s.CanTake ⟨0x15, tag, [kb, mb]⟩ →
    s.link.phase = .run → mb.toNat ≤ 1 → s.RoomAt kb.toNat a r → r.session = .inSession → r.closing = false →
    r.queue ≠ [] → s.candidate r = some e → s.delegateCount r < r.profile.openLimit →
    s.floor.openingCount ≠ 4294967295 → s.seatAnchor e.seat = some a → (s.seat e.seat).mic = .queued →
    ∃ t, exec (.nextCandidate tag [kb, mb]) s = .next t ∧
      t.seat e.seat = { s.seat e.seat with
        mic := .opening, stamp := none, slot := s.freeSlot (seatBus e.seat),
        openingNumber := some s.floor.openingCount, grant := none, indication := some .speaking } ∧
      (∀ m, m ≠ e.seat → t.seat m = s.seat m) ∧ s.QueuesOnly t ∧
      t.room a = some { r with queue := r.queue.filter (fun x => decide (x.seat ≠ e.seat)), live := r.live ++ [e.seat],
                               rotation := some e.segment } ∧
      (∀ b, b ≠ a → t.room b = s.room b) ∧
      t = { s with
        hall := { s.hall with rooms := t.hall.rooms }
        floor := { s.floor with seats := t.floor.seats, openingCount := s.floor.openingCount + 1 }
        buses := t.buses
        link := (LinkUnit.raise { s.link with input := s.link.input.drop 1 }
          (.micState e.seat (some a) .queued .opening .next (s.seat e.seat).muted (s.freeSlot (seatBus e.seat)))).answer
            ⟨0x15, tag, .ok (.promoted a e.seat none)⟩ }) ∧
  (∀ (s : State) (tag kb : Byte) (a v : Nat) (r : Room) (e : Entry), s.CanTake ⟨0x15, tag, [kb, 1]⟩ →
    s.link.phase = .run → s.RoomAt kb.toNat a r → r.session = .inSession → r.closing = false →
    r.queue ≠ [] → s.candidate r = some e → s.delegateCount r = r.profile.openLimit →
    s.floor.openingCount ≠ 4294967295 → s.seatAnchor e.seat = some a → (s.seat e.seat).mic = .queued →
    s.seatAnchor v = some a → s.Replaced r v →
    ∃ u : State,
      u.seat v = { s.seat v with
        mic := .closing, clock := none, liveNumber := none, grant := none, warned := false, limitReported := false,
        muted := false, secondDue := false, indication := some .idle } ∧
      u.seat e.seat = { s.seat e.seat with
        mic := .opening, stamp := none, slot := s.freeSlot (seatBus e.seat),
        openingNumber := some s.floor.openingCount, grant := none, indication := some .speaking } ∧
      (∀ m, m ≠ v → m ≠ e.seat → u.seat m = s.seat m) ∧ s.QueuesOnly u ∧
      u.room a = some { r with queue := r.queue.filter (fun x => decide (x.seat ≠ e.seat)), live := r.live ++ [e.seat],
                               rotation := some e.segment } ∧
      (∀ b, b ≠ a → u.room b = s.room b) ∧
      u = { s with
        hall := { s.hall with rooms := u.hall.rooms }
        floor := { s.floor with seats := u.floor.seats, openingCount := s.floor.openingCount + 1 }
        buses := u.buses
        link := LinkUnit.raise (LinkUnit.raise { s.link with input := s.link.input.drop 1 }
          (.micState v (some a) (s.seat v).mic .closing .replaced false (s.seat v).slot))
          (.micState e.seat (some a) .queued .opening .next (s.seat e.seat).muted (s.freeSlot (seatBus e.seat))) } ∧
      exec (.nextCandidate tag [kb, 1]) s = .next ((u.promote a).reply ⟨0x15, tag, .ok (.promoted a e.seat (some v))⟩)) ∧
  (∀ (s : State) (tag kb mb : Byte) (a : Nat) (r : Room) (e : Entry), s.CanTake ⟨0x15, tag, [kb, mb]⟩ →
    s.link.phase = .run → s.RoomAt kb.toNat a r → r.session = .inSession → r.queue ≠ [] → s.candidate r = some e →
    (mb = 0 ∧ r.profile.openLimit ≤ s.delegateCount r ∨ mb = 1 ∧ r.profile.openLimit < s.delegateCount r) →
    exec (.nextCandidate tag [kb, mb]) s = .next (s.served ⟨0x15, tag, .refuse .atLimit⟩)) ∧
  (∀ (s : State) (tag kb mb : Byte) (a : Nat) (r : Room) (refused : Status → Prop), s.CanTake ⟨0x15, tag, [kb, mb]⟩ →
    s.link.phase = .run → mb.toNat ≤ 1 → s.RoomAt kb.toNat a r →
    (∀ x, refused x ↔ exec (.nextCandidate tag [kb, mb]) s = .next (s.served ⟨0x15, tag, .refuse x⟩)) →
    (r.session ≠ .inSession → refused .wrongState) ∧
    (r.session = .inSession → r.closing = true → refused .atLimit) ∧
    (r.session = .inSession → r.closing = false → r.queue = [] → refused .queueEmpty) ∧
    (r.session = .inSession → r.closing = false → r.queue ≠ [] → (∀ e ∈ r.queue, s.freeSlot (seatBus e.seat) = none) →
      refused .busFull) ∧
    (r.session = .inSession → r.closing = false → (∃ e ∈ r.queue, s.freeSlot (seatBus e.seat) ≠ none) →
      (∀ e ∈ r.queue, e.segment ∈ r.segments) → s.floor.openingCount = 4294967295 → refused .atLimit)) ∧
  ∀ (s : State) (tag kb : Byte) (a : Nat) (r : Room), s.CanTake ⟨0x16, tag, [kb]⟩ → s.link.phase = .run →
    s.RoomAt kb.toNat a r → (∀ e ∈ r.queue, s.seatAnchor e.seat = some a) →
    ∃ t x, exec (.queueClear tag [kb]) s = .next t ∧ t.room a = some x ∧ x = { r with queue := [] } ∧
      (∀ e ∈ r.queue, (t.seat e.seat).mic = .idle ∧ (t.seat e.seat).stamp = none) ∧
      t.hall = { s.hall with rooms := t.hall.rooms } ∧
      (s.CountersOff → (∀ b, b ≠ a → t.room b = s.room b) ∧
        (∀ n, (∀ e ∈ r.queue, e.seat ≠ n) → t.seat n = s.seat n) ∧ s.QueuesOnly t ∧
        t = { s with hall := { s.hall with rooms := t.hall.rooms }, floor := { s.floor with seats := t.floor.seats }
                     buses := t.buses, link := t.link })

/-- The choice of the next candidate, in a queue in stamp order. Under ARRIVAL it is the eligible entry of the top rank with the
earliest stamp (R118). Under ROTATING it is the earliest such entry of the first segment, in the cycle that starts above the
rotation pointer, that has one (R119). There is none if no entry is eligible. -/
def Obligations.TheCandidateFollowsTheServiceOrder : Prop :=
  ∀ (s : State) (r : Room) (top : Entry → Prop), r.queue.Pairwise (fun x y => x.stamp < y.stamp) →
    (∀ e, top e ↔ e ∈ r.queue ∧ s.eligible e = true ∧
      ∀ x ∈ r.queue, s.eligible x = true → s.rank x.seat ≤ s.rank e.seat) →
    (r.profile.service = .arrival →
      (s.candidate r = none ↔ ∀ e ∈ r.queue, s.eligible e = false) ∧
      ∀ e, s.candidate r = some e ↔ top e ∧ ∀ x, top x → e.stamp ≤ x.stamp) ∧
    (r.profile.service = .rotating → (∀ e ∈ r.queue, e.segment ∈ r.segments) →
      (r.rotation = none → r.walk = r.segments) ∧
      (∀ p, r.rotation = some p →
        r.walk = r.segments.filter (fun k => decide (p < k)) ++ r.segments.filter (fun k => decide (k ≤ p))) ∧
      (s.candidate r = none ↔ ∀ e ∈ r.queue, s.eligible e = false) ∧
      ∀ e, s.candidate r = some e → top e ∧ (∀ x, top x → x.segment = e.segment → e.stamp ≤ x.stamp) ∧
        ∃ before after, r.walk = before ++ e.segment :: after ∧ ∀ k ∈ before, ∀ x, top x → x.segment ≠ k)

/-- Promotion (R105). It does nothing unless the room is IN_SESSION, in mode REQUEST or OPEN with overflow QUEUE, not closed by
priority and below its open limit, and nothing where no candidate passes the open test; else the candidate goes to OPENING and
the run asks again. So a REQUEST_ADD in mode REQUEST with an empty queue and a free place gives two changes of state in one
request (R90, R99 (1)). A slot that comes back to a bus without a free one (R94, R105) is offered to the seat's own room first and
then to every other room in ascending anchor order: here, where every entry waits for that bus, the first room that may promote
takes it for one entry, and every other entry stays QUEUED. -/
def Obligations.PromotionTakesCandidateAfterCandidate : Prop :=
  (∀ (s : State) (a : Nat) (r : Room), s.room a = some r → r.anchor = a → s.EntriesRight →
    (r.session ≠ .inSession ∨ r.profile.floorMode = .chair ∨
        (r.profile.floorMode = .openFloor ∧ r.profile.overflow = .refuse) ∨ r.closing = true ∨
        r.profile.openLimit ≤ s.delegateCount r ∨ s.candidate r = none ∨
        (∃ e, s.candidate r = some e ∧ s.openTest e.seat ≠ none) → s.promote a = s) ∧
    ∀ e, r.session = .inSession →
      (r.profile.floorMode = .request ∨ r.profile.floorMode = .openFloor ∧ r.profile.overflow = .queue) →
      r.closing = false → s.delegateCount r < r.profile.openLimit → s.candidate r = some e → s.openTest e.seat = none →
      s.promote a = ((s.enterOpening e.seat .promoted none).modRoom a
        (fun x => { x with rotation := some e.segment })).promote a) ∧
  (∀ (s : State) (tag b0 b1 : Byte) (n a k : Nat) (r : Room), s.CanTake ⟨0x13, tag, [b0, b1]⟩ → s.link.phase = .run →
    n = word16 b0 b1 → s.SeatAt n a r → (s.seat n).cls = .delegate → r.session = .inSession → (s.seat n).mic = .idle →
    s.blocked n = false → r.queue = [] → (s.seat n).segment ∈ r.segments → s.floor.stampCount ≠ 4294967295 →
    r.profile.floorMode = .request →
    r.closing = false → s.delegateCount r < r.profile.openLimit → s.freeSlot (seatBus n) = some k →
    s.floor.openingCount ≠ 4294967295 → s.CountersOff →
    ∃ t, exec (.requestAdd tag [b0, b1]) s = .next t ∧
      t.seat n = { s.seat n with mic := .opening, stamp := none, slot := some k, grant := none,
                                 openingNumber := some s.floor.openingCount, indication := some .speaking } ∧
      (∀ m, m ≠ n → t.seat m = s.seat m) ∧
      t.room a = some { r with live := r.live ++ [n], rotation := some (s.seat n).segment } ∧
      (∀ b, b ≠ a → t.room b = s.room b) ∧ s.QueuesOnly t ∧
      t = { s with
        hall := { s.hall with rooms := t.hall.rooms }
        floor := { s.floor with seats := t.floor.seats, stampCount := s.floor.stampCount + 1
                                openingCount := s.floor.openingCount + 1 }
        buses := t.buses
        link := LinkUnit.answer (LinkUnit.raise (LinkUnit.raise { s.link with input := s.link.input.drop 1 }
          (.micState n (some a) .idle .queued .host (s.seat n).muted (s.seat n).slot))
          (.micState n (some a) .queued .opening .promoted (s.seat n).muted (some k))) ⟨0x13, tag, .ok (.mic .opening)⟩ }) ∧
  ∀ (s : State) (bus : BusId) (i n a k : Nat) (x : Exchange) (c : UnitClass) (r : Room) (mayPromote : Nat → Prop),
    s.AwaitsSeat bus i n a x r → x.command = .close → (s.seat n).mic = .closing → (s.seat n).slot = some k →
    s.freeSlot (seatBus n) = none → s.slotsOk → s.EntriesRight → twf none s.hall.rooms = true →
    s.floor.openingCount ≠ 4294967295 →
    (∀ b q, s.room b = some q → ∀ e ∈ q.queue, seatBus e.seat = seatBus n ∧ (s.seat e.seat).cls = .delegate ∧
      e.segment ∈ q.segments) →
    (∀ b, mayPromote b ↔ ∃ q, s.room b = some q ∧ q.queue ≠ [] ∧ q.session = .inSession ∧
      (q.profile.floorMode = .request ∨ q.profile.floorMode = .openFloor ∧ q.profile.overflow = .queue) ∧
      q.closing = false ∧ s.delegateCount q < q.profile.openLimit) →
    ∃ t, exec (.unitReplyAck bus .ofClose 0 (s.unit i x.address).held c) s = .next t ∧
      (t.seat n).mic = .holdOff ∧ (t.seat n).slot = none ∧
      ((∀ b, ¬ mayPromote b) → ∀ b q, s.room b = some q → ∀ e ∈ q.queue, (t.seat e.seat).mic = .queued) ∧
      ∀ w, mayPromote w → (w ≠ a → ¬ mayPromote a ∧ ∀ b, mayPromote b → w ≤ b) →
        ∃ q e, s.room w = some q ∧ e ∈ q.queue ∧ (t.seat e.seat).mic = .opening ∧ (t.seat e.seat).slot = some k ∧
          ∀ b p, s.room b = some p → ∀ f ∈ p.queue, f.seat ≠ e.seat → (t.seat f.seat).mic = .queued

/-- A press of MIC on a delegate in an IN_SESSION room, reported in answer to a poll (R90 to R92). In IDLE: a blocked seat is
refused; in mode OPEN it opens if the open test passes, and if it fails it is refused with the reason under overflow REFUSE and
joins the queue under QUEUE; in the modes REQUEST and CHAIR it joins the queue (R114), and a full queue refuses it. Where
promotion cannot run or finds no free slot, it stays QUEUED; in mode REQUEST with an empty queue and a free place it is promoted
at once (R105). In QUEUED, OPENING or LIVE: it withdraws or closes where the profile allows it and is ignored where not. In
CLOSING and HOLD_OFF it toggles the pending press. -/
def Obligations.PressesOnADelegate : Prop :=
  ∀ (s : State) (bus : BusId) (i n a k : Nat) (x : Exchange) (c : UnitClass) (r : Room), s.AwaitsSeat bus i n a x r →
    x.command = .poll → r.session = .inSession → (s.seat n).cls = .delegate →
    ∃ t, exec (.unitReplyStatus bus 1 (s.unit i x.address).held c) s = .next t ∧
      s.Heard t i x { s.unit i x.address with misses := 0, reported := some c } ∧
      ((s.seat n).mic = .idle → s.blocked n = true →
        t = { s with buses := t.buses, link := s.link.raise (.requestRefused n (some a) .blocked) }) ∧
      ((s.seat n).mic = .idle → s.blocked n = false → r.profile.floorMode = .openFloor → r.closing = false →
        s.delegateCount r < r.profile.openLimit → s.freeSlot (seatBus n) = some k →
        s.floor.openingCount ≠ 4294967295 →
        s.OthersSame t n a ∧
        t.seat n = { s.seat n with mic := .opening, slot := some k, openingNumber := some s.floor.openingCount,
                                   grant := none, indication := some .speaking } ∧
        t.room a = some { r with live := r.live ++ [n] } ∧
        t = { s with
          hall := { s.hall with rooms := t.hall.rooms }
          floor := { s.floor with seats := t.floor.seats, openingCount := s.floor.openingCount + 1 }
          buses := t.buses
          link := s.link.raise (.micState n (some a) .idle .opening .press (s.seat n).muted (some k)) }) ∧
      ((s.seat n).mic = .idle → s.blocked n = false → r.profile.floorMode = .openFloor →
        r.profile.overflow = .refuse →
        (r.closing = true ∨ r.profile.openLimit ≤ s.delegateCount r →
          t = { s with buses := t.buses, link := s.link.raise (.requestRefused n (some a) .atLimit) }) ∧
        (r.closing = false → s.delegateCount r < r.profile.openLimit → s.freeSlot (seatBus n) = none →
          t = { s with buses := t.buses, link := s.link.raise (.requestRefused n (some a) .busFull) })) ∧
      ((s.seat n).mic = .idle → s.blocked n = false → 32 ≤ r.queue.length →
        (r.profile.floorMode ≠ .openFloor ∨ r.profile.overflow = .queue ∧
          (r.closing = true ∨ r.profile.openLimit ≤ s.delegateCount r ∨ s.freeSlot (seatBus n) = none)) →
        t = { s with buses := t.buses, link := s.link.raise (.requestRefused n (some a) .queueFull) }) ∧
      ((s.seat n).mic = .idle → s.blocked n = false → r.queue.length < 32 → s.floor.stampCount ≠ 4294967295 →
        (r.profile.floorMode = .chair ∨
          (r.profile.floorMode = .request ∨ r.profile.floorMode = .openFloor ∧ r.profile.overflow = .queue) ∧
            (r.closing = true ∨ r.profile.openLimit ≤ s.delegateCount r ∨
              s.freeSlot (seatBus n) = none ∧ ∀ e ∈ r.queue, s.freeSlot (seatBus e.seat) = none)) →
        s.OthersSame t n a ∧
        t.seat n = { s.seat n with mic := .queued, stamp := some s.floor.stampCount, indication := some .waiting } ∧
        t.room a = some { r with queue := r.queue ++ [⟨n, s.floor.stampCount, (s.seat n).segment⟩] } ∧
        t = { s with
          hall := { s.hall with rooms := t.hall.rooms }
          floor := { s.floor with seats := t.floor.seats, stampCount := s.floor.stampCount + 1 }
          buses := t.buses
          link := s.link.raise (.micState n (some a) .idle .queued .press (s.seat n).muted (s.seat n).slot) }) ∧
      ((s.seat n).mic = .idle → s.blocked n = false → r.profile.floorMode = .request → r.queue = [] →
        (s.seat n).segment ∈ r.segments → s.floor.stampCount ≠ 4294967295 → r.closing = false →
        s.delegateCount r < r.profile.openLimit → s.freeSlot (seatBus n) = some k → s.floor.openingCount ≠ 4294967295 →
        s.OthersSame t n a ∧
        t.seat n = { s.seat n with mic := .opening, stamp := none, slot := some k, grant := none,
                                   openingNumber := some s.floor.openingCount, indication := some .speaking } ∧
        t.room a = some { r with live := r.live ++ [n], rotation := some (s.seat n).segment } ∧
        t = { s with
          hall := { s.hall with rooms := t.hall.rooms }
          floor := { s.floor with seats := t.floor.seats, stampCount := s.floor.stampCount + 1
                                  openingCount := s.floor.openingCount + 1 }
          buses := t.buses
          link := (s.link.raise (.micState n (some a) .idle .queued .press (s.seat n).muted (s.seat n).slot)).raise
            (.micState n (some a) .queued .opening .promoted (s.seat n).muted (some k)) }) ∧
      ((s.seat n).mic = .queued → r.profile.mayCancel = true →
        s.OthersSame t n a ∧
        t.seat n = { s.seat n with mic := .idle, stamp := none, indication := (t.seat n).indication } ∧
        t.room a = some { r with queue := r.queue.filter (fun e => decide (e.seat ≠ n)) } ∧
        t = { s with
          hall := { s.hall with rooms := t.hall.rooms }
          floor := { s.floor with seats := t.floor.seats }
          buses := t.buses
          link := s.link.raise (.micState n (some a) .queued .idle .press (s.seat n).muted (s.seat n).slot) }) ∧
      ((s.seat n).mic = .queued ∧ r.profile.mayCancel = false ∨
        ((s.seat n).mic = .opening ∨ (s.seat n).mic = .live) ∧ r.profile.mayClose = false →
        t = { s with buses := t.buses }) ∧
      ((s.seat n).mic = .opening ∨ (s.seat n).mic = .live → r.profile.mayClose = true → r.queue = [] →
        s.OthersSame t n a ∧
        t.seat n = { s.seat n with mic := .closing, clock := none, liveNumber := none, grant := none, warned := false,
                                   limitReported := false, muted := false, secondDue := false,
                                   indication := (t.seat n).indication } ∧
        t = { s with
          floor := { s.floor with seats := t.floor.seats }
          buses := t.buses
          link := s.link.raise (.micState n (some a) (s.seat n).mic .closing .press false (s.seat n).slot) }) ∧
      ((s.seat n).mic = .closing ∨ (s.seat n).mic = .holdOff →
        s.OthersSame t n a ∧
        t.seat n = { s.seat n with pendingPress := !(s.seat n).pendingPress } ∧
        t = { s with floor := { s.floor with seats := t.floor.seats }, buses := t.buses })

/-- Chairs in an IN_SESSION room, by their answers to a poll. A press (R100): an IDLE chair opens if the open test passes and is
refused at the chair limit, one in OPENING or LIVE closes. PRIORITY held (R101): it becomes active, with MUTE_ALL muting the LIVE
delegates (R102) and the two CLOSE actions closing the delegates on the floor, CLOSE_AND_CLEAR the queue too (R103); held under an
active priority, the action is not done again. In all these cases an IDLE chair then opens, or stays IDLE at the chair limit
(R101 (3)). PRIORITY released (R104): the end with the last chair that holds it, and nothing before. That the held state acts
whatever class the chair's unit reports is the model's choice (log 55). -/
def Obligations.ChairsPressAndHoldPriority : Prop :=
  ∀ (s : State) (bus : BusId) (i n a k : Nat) (x : Exchange) (c : UnitClass) (r : Room), s.AwaitsSeat bus i n a x r →
    x.command = .poll → r.session = .inSession → (s.seat n).cls = .chair →
    (∃ t, exec (.unitReplyStatus bus 1 (s.unit i x.address).held c) s = .next t ∧
      s.Heard t i x { s.unit i x.address with misses := 0, reported := some c } ∧
      ((s.seat n).mic = .idle → s.chairCount r < r.profile.chairLimit → s.freeSlot (seatBus n) = some k →
        s.floor.openingCount ≠ 4294967295 →
        t.seat n = { s.seat n with mic := .opening, slot := some k, openingNumber := some s.floor.openingCount,
                                   grant := none, indication := some .speaking } ∧
        s.OthersSame t n a ∧ t.room a = some { r with live := r.live ++ [n] } ∧
        t = { s with
          hall := { s.hall with rooms := t.hall.rooms }
          floor := { s.floor with seats := t.floor.seats, openingCount := s.floor.openingCount + 1 }
          buses := t.buses
          link := s.link.raise (.micState n (some a) .idle .opening .press (s.seat n).muted (some k)) }) ∧
      ((s.seat n).mic = .idle → r.profile.chairLimit ≤ s.chairCount r →
        t = { s with buses := t.buses, link := s.link.raise (.requestRefused n (some a) .atLimit) }) ∧
      ((s.seat n).mic = .opening ∨ (s.seat n).mic = .live → r.queue = [] →
        t.seat n = { s.seat n with mic := .closing, clock := none, liveNumber := none, grant := none, warned := false,
                                   limitReported := false, muted := false, secondDue := false,
                                   indication := (t.seat n).indication } ∧
        (∀ m, m ≠ n → t.seat m = s.seat m) ∧
        t = { s with
          floor := { s.floor with seats := t.floor.seats }
          buses := t.buses
          link := s.link.raise (.micState n (some a) (s.seat n).mic .closing .press false (s.seat n).slot) })) ∧
    ((s.unit i x.address).held = false → ∃ t, exec (.unitReplyStatus bus 0 true c) s = .next t ∧
      s.Heard t i x { s.unit i x.address with misses := 0, reported := some c, held := true } ∧
      (r.priority = false → r.profile.action = .muteAll → (∀ b, b ≠ a → t.room b = s.room b) ∧
        (∀ m, m ≠ n → t.seat m = { s.seat m with
          muted := (s.seat m).muted || decide (m ∈ r.live ∧ (s.seat m).cls = .delegate ∧ (s.seat m).mic = .live) }) ∧
        ((s.seat n).mic ≠ .idle ∨ r.profile.chairLimit ≤ s.chairCount r →
          t.seat n = s.seat n ∧ t.room a = some { r with priority := true }) ∧
        ((s.seat n).mic = .idle → s.chairCount r < r.profile.chairLimit → s.freeSlot (seatBus n) = some k →
          s.floor.openingCount ≠ 4294967295 →
          t.seat n = { s.seat n with mic := .opening, slot := some k, openingNumber := some s.floor.openingCount,
                                     grant := none, indication := some .speaking } ∧
          t.room a = some { r with priority := true, live := r.live ++ [n] })) ∧
      (r.priority = false → r.profile.action ≠ .muteAll →
        (r.profile.action = .closeAndClear →
          ∀ e ∈ r.queue, s.seatAnchor e.seat = some a ∧ e.seat ∉ r.live ∧ e.seat ≠ n) →
        (∀ b, b ≠ a → t.room b = s.room b) ∧
        ((s.seat n).mic ≠ .idle ∨ r.profile.chairLimit ≤ s.chairCount r →
          t.seat n = s.seat n ∧
          t.room a = some { r with priority := true, queue := if r.profile.action = .closeAll then r.queue else [] }) ∧
        ((s.seat n).mic = .idle → s.chairCount r < r.profile.chairLimit → s.freeSlot (seatBus n) = some k →
          s.floor.openingCount ≠ 4294967295 →
          t.seat n = { s.seat n with mic := .opening, slot := some k, openingNumber := some s.floor.openingCount,
                                     grant := none, indication := some .speaking } ∧
          t.room a = some { r with priority := true, queue := if r.profile.action = .closeAll then r.queue else []
                                   live := r.live ++ [n] }) ∧
        (∀ m ∈ r.live, (s.seat m).cls = .delegate → (s.seat m).mic = .opening ∨ (s.seat m).mic = .live →
          (t.seat m).mic = .closing ∧ (t.seat m).slot = (s.seat m).slot) ∧
        (r.profile.action = .closeAndClear → ∀ e ∈ r.queue, (t.seat e.seat).mic = .idle ∧ (t.seat e.seat).stamp = none) ∧
        ∀ m, m ≠ n → m ∉ r.live → (∀ e ∈ r.queue, e.seat ≠ m) → t.seat m = s.seat m) ∧
      (r.priority = true →
        ((s.seat n).mic ≠ .idle → t = { s with buses := t.buses }) ∧
        ((s.seat n).mic = .idle → r.profile.chairLimit ≤ s.chairCount r →
          t = { s with buses := t.buses, link := s.link.raise (.requestRefused n (some a) .atLimit) }) ∧
        ((s.seat n).mic = .idle → s.chairCount r < r.profile.chairLimit → s.freeSlot (seatBus n) = some k →
          s.floor.openingCount ≠ 4294967295 →
          s.OthersSame t n a ∧
          t.seat n = { s.seat n with mic := .opening, slot := some k, openingNumber := some s.floor.openingCount,
                                     grant := none, indication := some .speaking } ∧
          t.room a = some { r with live := r.live ++ [n] } ∧
          t = { s with
            hall := { s.hall with rooms := t.hall.rooms }
            floor := { s.floor with seats := t.floor.seats, openingCount := s.floor.openingCount + 1 }
            buses := t.buses
            link := s.link.raise (.micState n (some a) .idle .opening .priority (s.seat n).muted (some k)) }))) ∧
    ((s.unit i x.address).held = true → ∃ t, exec (.unitReplyStatus bus 0 false c) s = .next t ∧
      s.Heard t i x { s.unit i x.address with misses := 0, reported := some c, held := false } ∧
      ((∃ m ∈ s.chairsHolding r.segments, m ≠ n) → t = { s with buses := t.buses }) ∧
      (r.priority = true → (∀ m ∈ s.chairsHolding r.segments, m = n) → r.queue = [] →
        t.room a = some { r with priority := false } ∧ (∀ b, b ≠ a → t.room b = s.room b) ∧
        (∀ m, t.seat m = { s.seat m with muted := (s.seat m).muted && decide (m ∉ r.live) }) ∧
        t = { s with hall := { s.hall with rooms := t.hall.rooms }, floor := { s.floor with seats := t.floor.seats }
                     buses := t.buses, link := t.link }))

/-- Presses and held states in a room that is not IN_SESSION, reported in answer to a poll. A MIC press or a chair's PRIORITY held
wakes an ARMED room whose conditions name it, and so does an ON-AIR press (R30, R32); the press is then handled in session: a seat
that passes the open test goes to OPENING (here where nobody waits and no chair holds PRIORITY), PRIORITY becomes active, and a
console takes a free channel. Any other MIC press is ignored, but for the toggling of a pending press in CLOSING and HOLD_OFF, and so
is PRIORITY held (R33, R92). The held state of a delegate's unit is recorded and acts on nothing (R68 (4)). That a chair's acts
whatever class its unit reports is the model's choice (log 55). -/
def Obligations.PressesOutOfSession : Prop :=
  (∀ (s : State) (bus : BusId) (i n a k : Nat) (x : Exchange) (c : UnitClass) (r : Room) (cause : SessionCause),
    s.AwaitsSeat bus i n a x r → x.command = .poll → r.session = .armed →
    ((s.seat n).cls = .delegate ∧ r.wake.delegatePress = true ∧ cause = .delegatePress ∨
      (s.seat n).cls = .chair ∧ r.wake.chairPress = true ∧ cause = .chairPress) →
    ∃ t, exec (.unitReplyStatus bus 1 (s.unit i x.address).held c) s = .next t ∧
      s.Heard t i x { s.unit i x.address with misses := 0, reported := some c } ∧ s.Woken t a r cause (.seat n) ∧
      ((s.seat n).mic = .idle → r.queue = [] → s.chairsHolding r.segments = [] →
        ((s.seat n).cls = .delegate ∧ s.blocked n = false ∧ r.profile.floorMode = .openFloor ∧ r.closing = false ∧
            s.delegateCount r < r.profile.openLimit ∨ (s.seat n).cls = .chair ∧ s.chairCount r < r.profile.chairLimit) →
        s.freeSlot (seatBus n) = some k → s.floor.openingCount ≠ 4294967295 →
        t.seat n = { s.seat n with mic := .opening, slot := some k, openingNumber := some s.floor.openingCount, grant := none,
                                   indication := some .speaking } ∧
        ∃ y, t.room a = some y ∧ y.live = r.live ++ [n])) ∧
  (∀ (s : State) (bus : BusId) (i n a : Nat) (x : Exchange) (c : UnitClass) (r : Room), s.AwaitsSeat bus i n a x r →
    x.command = .poll → r.session = .armed → (s.seat n).cls = .chair → r.wake.chairPress = true →
    (s.unit i x.address).held = false → twf Seat.initial s.floor.seats = true → (s.seat n).segment ∈ r.segments →
    ∃ t, exec (.unitReplyStatus bus 0 true c) s = .next t ∧
      s.Heard t i x { s.unit i x.address with misses := 0, reported := some c, held := true } ∧
      s.Woken t a r .chairPress (.seat n) ∧ ∃ y, t.room a = some y ∧ y.priority = true) ∧
  (∀ (s : State) (x : Exchange) (cls : UnitClass) (a c : Nat) (r : Room) (key : Key), s.AwaitsConsole x a r →
    x.command = .poll → r.session = .armed → r.wake.consolePress = true → c = x.address →
    key = ⟨a, (s.boothAt (consoleBooth c)).language⟩ →
    ∃ t, exec (.unitReplyStatus .b 1 (s.unit 4 c).held cls) s = .next t ∧
      s.Heard t 4 x { s.unit 4 c with misses := 0, reported := some cls } ∧ s.Woken t a r .consolePress (.console c) ∧
      ((s.console c).state = .ready → key.code ∈ r.profile.languages → s.ownerOf key = none →
        (t.console c).state = .cueing ∧ (t.console c).owned = some key ∧ s.OnlyConsole t c)) ∧
  (∀ (s : State) (bus : BusId) (i n a : Nat) (x : Exchange) (c : UnitClass) (r : Room), s.AwaitsSeat bus i n a x r →
    x.command = .poll → r.session ≠ .inSession →
    ((s.seat n).cls = .delegate → r.session = .armed → r.wake.delegatePress = false) →
    ((s.seat n).cls = .chair → r.session = .armed → r.wake.chairPress = false) →
    (∃ t, exec (.unitReplyStatus bus 1 (s.unit i x.address).held c) s = .next t ∧
      s.Heard t i x { s.unit i x.address with misses := 0, reported := some c } ∧
      ((s.seat n).mic ≠ .closing → (s.seat n).mic ≠ .holdOff → t = { s with buses := t.buses }) ∧
      ((s.seat n).mic = .closing ∨ (s.seat n).mic = .holdOff →
        t.seat n = { s.seat n with pendingPress := !(s.seat n).pendingPress } ∧ (∀ m, m ≠ n → t.seat m = s.seat m) ∧
        t = { s with floor := { s.floor with seats := t.floor.seats }, buses := t.buses })) ∧
    ((s.seat n).cls = .chair → (s.unit i x.address).held = false →
      ∃ t, exec (.unitReplyStatus bus 0 true c) s = .next t ∧
        s.Heard t i x { s.unit i x.address with misses := 0, reported := some c, held := true } ∧
        t = { s with buses := t.buses })) ∧
  ∀ (s : State) (bus : BusId) (i n a : Nat) (x : Exchange) (c : UnitClass) (r : Room) (held : Bool),
    s.AwaitsSeat bus i n a x r → x.command = .poll → (s.seat n).cls = .delegate →
    ∃ t, exec (.unitReplyStatus bus 0 held c) s = .next t ∧
      s.Heard t i x { s.unit i x.address with misses := 0, reported := some c, held := held } ∧
      t = { s with buses := t.buses }

/-- GROUP_SET (R124): the checks that refuse with BAD_VALUE and leave the record; in CONFIG the five fields are stored, with
GROUP_BLOCKED where the blocking in force changes, and nothing else happens; in RUN, with no counter enabled, the fields are stored
too. Membership is agreement in every digit that the mask marks (R123). That the reply carries the group's number is the model's
choice (log 48), and so is the record whose members GROUP_BLOCKED counts (log 41). -/
def Obligations.GroupSetStoresTheRecord : Prop :=
  (∀ (s : State) (tag : Byte) (body : List Byte), s.CanTake ⟨0x1F, tag, body⟩ →
    (1 < byteAt body 1 ∨ 1 < byteAt body 7 ∨ ∃ g x, readGroupSet body = some (g, x) ∧
      (g < 1 ∨ 16 < g ∨ 1023 < x.base ∨ 1023 < x.mask ∨ 3 < x.rank)) →
    exec (.groupSet tag body) s = .next (s.served ⟨0x1F, tag, .refuse .badValue⟩)) ∧
  (∀ (s : State) (tag : Byte) (body : List Byte) (g : Nat) (x : Group), s.CanTake ⟨0x1F, tag, body⟩ →
    readGroupSet body = some (g, x) → 1 ≤ g → g ≤ 16 → x.base ≤ 1023 → x.mask ≤ 1023 → x.rank ≤ 3 →
    (s.link.phase = .config → ∃ t, exec (.groupSet tag body) s = .next t ∧ t.group g = x ∧
      (∀ h, h ≠ g → t.group h = s.group h) ∧
      t = { s with floor := { s.floor with groups := t.floor.groups }, link := t.link } ∧
      ((s.group g).inForce = x.inForce → t.link =
        s.link.served ⟨0x1F, tag, .ok (.group g x ((s.setGroup g x).memberCount g))⟩) ∧
      ((s.group g).inForce ≠ x.inForce → t.link =
        LinkUnit.answer (LinkUnit.raise { s.link with input := s.link.input.drop 1 }
          (.groupBlocked g x.inForce .host ((s.setGroup g x).memberCount g)))
          ⟨0x1F, tag, .ok (.group g x ((s.setGroup g x).memberCount g))⟩)) ∧
    (s.link.phase = .run → s.CountersOff → ∃ t, exec (.groupSet tag body) s = .next t ∧ t.group g = x ∧
      (∀ h, h ≠ g → t.group h = s.group h) ∧ t.floor.stampCount = s.floor.stampCount)) ∧
  ∀ (x : Group) (n : Nat), n < 1024 → x.mask < 1024 →
    (groupTakes x n = true ↔ ∀ i, i < 10 → x.mask.testBit i = true → n.testBit i = x.base.testBit i)

/-- GROUP_SET in RUN that brings the blocking of a group into force (R125): every newly blocked entry is dropped, its seat to IDLE, a
seat in IDLE shows BLOCKED, and nothing happens to a seat in any other state; where no newly blocked seat waits, GROUP_BLOCKED is
the one notice. And one that ends it, where nobody waits for promotion (R126): a seat in IDLE that is no longer blocked shows
IDLE, a seat in any other state is unchanged. The number of members in GROUP_BLOCKED is that of the new record counted as if its
group were installed, also where the request uninstalls the group or changes base or mask: the model's choice (log 41), R125 and
R126 do not say which record is counted. That the reply carries the group's number is the model's choice (log 48). -/
def Obligations.BlockingDropsTheNewlyBlocked : Prop :=
  ∀ (s : State) (tag : Byte) (body : List Byte) (g : Nat) (x : Group), s.CanTake ⟨0x1F, tag, body⟩ →
    s.link.phase = .run → s.CountersOff → twf Seat.initial s.floor.seats = true → s.EntriesRight →
    readGroupSet body = some (g, x) → 1 ≤ g → g ≤ 16 → x.base ≤ 1023 → x.mask ≤ 1023 → x.rank ≤ 3 →
    (∀ new : Nat → Prop, (s.group g).inForce = false → x.inForce = true →
      (∀ n, new n ↔ (s.seat n).installed = true ∧ s.blocked n = false ∧ groupTakes x n = true) →
      ∃ t, exec (.groupSet tag body) s = .next t ∧ t.group g = x ∧
        (∀ a r, s.room a = some r → ∃ q, t.room a = some { r with queue := q } ∧
          ∀ e, e ∈ q ↔ e ∈ r.queue ∧ ¬ new e.seat) ∧
        (∀ n, new n → (s.seat n).mic = .queued → (∃ a r e, s.room a = some r ∧ e ∈ r.queue ∧ e.seat = n) →
          (t.seat n).mic = .idle ∧ (t.seat n).stamp = none) ∧
        (∀ n, new n → (s.seat n).mic = .idle → s.seatInSession n = true →
          t.seat n = { s.seat n with indication := some .blocked }) ∧
        (∀ n, new n → (s.seat n).mic ≠ .idle → (s.seat n).mic ≠ .queued →
          (s.seat n).mic = .absent ∨ (s.seat n).indication = s.indicationOf n → t.seat n = s.seat n) ∧
        (∀ n, ¬ new n → t.seat n = s.seat n) ∧
        ((∀ a r, s.room a = some r → ∀ e ∈ r.queue, ¬ new e.seat) → t.link =
          LinkUnit.answer (LinkUnit.raise { s.link with input := s.link.input.drop 1 }
            (.groupBlocked g true .host ((s.setGroup g x).memberCount g)))
            ⟨0x1F, tag, .ok (.group g x ((s.setGroup g x).memberCount g))⟩)) ∧
    ((s.group g).inForce = true → x.inForce = false → (∀ a r, s.room a = some r → r.queue = []) →
      ∃ t, exec (.groupSet tag body) s = .next t ∧ t.group g = x ∧ t.hall = s.hall ∧
        (∀ n, (s.seat n).installed = true → s.blocked n = true → t.blocked n = false → (s.seat n).mic = .idle →
          s.seatInSession n = true → t.seat n = { s.seat n with indication := some .idle }) ∧
        (∀ n, (s.seat n).mic ≠ .idle → (s.seat n).mic = .absent ∨ (s.seat n).indication = s.indicationOf n →
          t.seat n = s.seat n) ∧
        t.link = LinkUnit.answer (LinkUnit.raise { s.link with input := s.link.input.drop 1 }
          (.groupBlocked g false .host ((s.setGroup g x).memberCount g)))
          ⟨0x1F, tag, .ok (.group g x ((s.setGroup g x).memberCount g))⟩)

/-! ## Booths (chapter 7) -/

/-- BOOTH_SET (R130): the phase, the checks that refuse with BAD_VALUE, and the record stored with the trim clamped and the listen
state that the source gives. BOOTH_SOURCE of an installed booth (R146, R145): the source is stored, every booth of the room listens
as R144 derives it, and nothing else of any booth changes. BOOTH_OFF of a booth with an owning console (R140): that console goes to
RELEASING without a channel, and no other console's state or channel changes. -/
def Obligations.BoothRequestsStoreAndRelease : Prop :=
  (∀ (s : State) (tag bb ib hb lb sb rb cb xb : Byte) (x : Int), s.CanTake ⟨0x04, tag, [bb, ib, hb, lb, sb, rb, cb, xb]⟩ →
    x = max (-12) (min 12 xb.toInt) →
    (s.link.phase = .run → exec (.boothSet tag [bb, ib, hb, lb, sb, rb, cb, xb]) s =
      .next (s.served ⟨0x04, tag, .refuse .wrongPhase⟩)) ∧
    (s.link.phase = .config →
      (bb.toNat < 1 ∨ 24 < bb.toNat ∨ hb.toNat < 1 ∨ 12 < hb.toNat ∨ lb.toNat < 1 ∨ 63 < lb.toNat ∨ 1 < sb.toNat ∨
        (sb = 1 ∧ (rb.toNat < 1 ∨ 63 < rb.toNat ∨ rb = lb)) ∨ (cb.toNat ≠ 1 ∧ cb.toNat ≠ 2) ∨ 1 < ib.toNat) →
      exec (.boothSet tag [bb, ib, hb, lb, sb, rb, cb, xb]) s = .next (s.served ⟨0x04, tag, .refuse .badValue⟩)) ∧
    (s.link.phase = .config → 1 ≤ bb.toNat → bb.toNat ≤ 24 → 1 ≤ hb.toNat → hb.toNat ≤ 12 → 1 ≤ lb.toNat →
      lb.toNat ≤ 63 → (sb = 0 ∨ sb = 1 ∧ 1 ≤ rb.toNat ∧ rb.toNat ≤ 63 ∧ rb ≠ lb) → (cb.toNat = 1 ∨ cb.toNat = 2) →
      ib.toNat ≤ 1 →
      ∃ t, exec (.boothSet tag [bb, ib, hb, lb, sb, rb, cb, xb]) s = .next t ∧
        t.boothAt bb.toNat = { installed := decide (ib = 1), home := hb.toNat, language := lb.toNat,
                               source := if sb = 0 then .floor else .relay rb.toNat, count := cb.toNat, trim := x,
                               listen := if sb = 0 then .direct else .fallback } ∧
        (∀ b, b ≠ bb.toNat → t.boothAt b = s.boothAt b) ∧
        t.consoleInUse (2 * bb.toNat - 1) = decide (ib = 1) ∧
        t.consoleInUse (2 * bb.toNat) = decide (ib = 1 ∧ cb.toNat = 2) ∧
        t = { s with booth := { s.booth with booths := t.booth.booths }
                     link := s.link.served ⟨0x04, tag, .okClamped (decide (x ≠ xb.toInt)) .nothing⟩ })) ∧
  (∀ (s : State) (tag bb sb rb : Byte) (a : Nat) (r : Room) (x : Source), s.CanTake ⟨0x1A, tag, [bb, sb, rb]⟩ →
    s.link.phase = .run → 1 ≤ bb.toNat → bb.toNat ≤ 24 → (s.boothAt bb.toNat).installed = true →
    s.RoomAt (s.boothAt bb.toNat).home a r → (s.boothAt bb.toNat).home ∈ r.segments →
    (sb = 0 ∧ x = .floor ∨ sb = 1 ∧ 1 ≤ rb.toNat ∧ rb.toNat ≤ 63 ∧ rb.toNat ≠ (s.boothAt bb.toNat).language ∧
      x = .relay rb.toNat) →
    ∃ t, exec (.boothSource tag [bb, sb, rb]) s = .next t ∧ (t.boothAt bb.toNat).source = x ∧
      (∀ b, (t.boothAt b).installed = true → (t.boothAt b).home ∈ r.segments → (t.boothAt b).listen = t.listenOf b) ∧
      (∀ b, t.boothAt b = { s.boothAt b with source := (t.boothAt b).source, listen := (t.boothAt b).listen }) ∧
      (∀ b, b ≠ bb.toNat → (t.boothAt b).source = (s.boothAt b).source) ∧ t.booth.consoles = s.booth.consoles ∧
      (s.CountersOff → t = { s with booth := t.booth, link := t.link })) ∧
  ∀ (s : State) (tag bb : Byte) (c : Nat), s.CanTake ⟨0x1C, tag, [bb]⟩ → s.link.phase = .run → 1 ≤ bb.toNat →
    bb.toNat ≤ 24 → (s.boothAt bb.toNat).installed = true → s.boothOwner bb.toNat = some c →
    ∃ t, exec (.boothOff tag [bb]) s = .next t ∧ (t.console c).state = .releasing ∧ (t.console c).owned = none ∧
      (t.console c).cough = (s.console c).cough ∧ s.OnlyConsole t c ∧
      (s.CountersOff → s.QueuesOnly t ∧ t = { s with booth := t.booth, buses := t.buses, link := t.link })

/-- A press of ON-AIR on a console, reported in answer to a poll, in a room that it does not wake (R134 to R136, R33). READY: it is
refused out of session and for a language that the room has not; it takes a free channel; and a channel that has an owner is
refused under INTERLOCK and taken over under TAKEOVER. CUEING and ON_AIR: it gives its channel up. RELEASING: nothing. A held state
of its COUGH that differs from the recorded one (R142): in every console and session state the cough follows it and nothing else
changes, with one BOOTH_STATE notice of cause COUGH where the console owns a channel. -/
def Obligations.PressesOnAConsole : Prop :=
  (∀ (s : State) (x : Exchange) (cls : UnitClass) (a c : Nat) (r : Room) (key : Key), s.AwaitsConsole x a r →
    x.command = .poll → c = x.address → (r.session = .armed → r.wake.consolePress = false) →
    key = ⟨a, (s.boothAt (consoleBooth c)).language⟩ →
    ∃ t, exec (.unitReplyStatus .b 1 (s.unit 4 c).held cls) s = .next t ∧
      s.Heard t 4 x { s.unit 4 c with misses := 0, reported := some cls } ∧
      t = { s with booth := t.booth, buses := t.buses, link := t.link } ∧
      ((s.console c).state = .ready →
        (r.session ≠ .inSession ∨ key.code ∉ r.profile.languages →
          (t.console c).state = .ready ∧ (t.console c).owned = (s.console c).owned ∧ s.OnlyConsole t c ∧
          (s.ListensRight → t.link = s.link.raise
            (.boothState (consoleBooth c) c (some a) .ready .ready .languageNotSet (s.console c).owned none))) ∧
        (r.session = .inSession → key.code ∈ r.profile.languages →
          (s.ownerOf key = none → (t.console c).state = .cueing ∧ (t.console c).owned = some key ∧ s.OnlyConsole t c) ∧
          ∀ o, s.ownerOf key = some o → o ≠ c →
            (r.profile.contention = .interlock →
              (t.console c).state = .ready ∧ (t.console c).owned = (s.console c).owned ∧ s.OnlyConsole t c ∧
              (s.ListensRight → t.link = s.link.raise
                (.boothState (consoleBooth c) c (some a) .ready .ready .channelBusy (s.console c).owned none))) ∧
            (r.profile.contention = .takeover →
              (t.console o).state = .releasing ∧ (t.console o).owned = none ∧
              (t.console c).state = .cueing ∧ (t.console c).owned = some key ∧
              (∀ d, d ≠ c → d ≠ o → t.console d = { s.console d with indication := (t.console d).indication }) ∧
              ∀ b, t.boothAt b = { s.boothAt b with listen := (t.boothAt b).listen }))) ∧
      ((s.console c).state = .cueing ∨ (s.console c).state = .onAir →
        (t.console c).state = .releasing ∧ (t.console c).owned = none ∧ s.OnlyConsole t c) ∧
      ((s.console c).state = .releasing → t = { s with buses := t.buses })) ∧
  ∀ (s : State) (x : Exchange) (cls : UnitClass) (a c : Nat) (r : Room), s.AwaitsConsole x a r → x.command = .poll →
    c = x.address →
    ∃ t, exec (.unitReplyStatus .b 0 (!(s.unit 4 c).held) cls) s = .next t ∧
      s.Heard t 4 x { s.unit 4 c with misses := 0, reported := some cls, held := !(s.unit 4 c).held } ∧
      t.console c = { s.console c with cough := !(s.unit 4 c).held } ∧ (∀ d, d ≠ c → t.console d = s.console d) ∧
      t = { s with
        booth := { s.booth with consoles := t.booth.consoles }
        buses := t.buses
        link := if (s.console c).owned = none then s.link else s.link.raise
          (.boothState (consoleBooth c) c (some a) (s.console c).state (s.console c).state .cough (s.console c).owned none) }

/-! ## Channels and slots (chapter 8) -/

/-- A channel takes the lowest free language slot, or joins the tail of the unserved list; several are made one after another
(R151). TABLE_SWITCH where the conditions of R160 held at the boundary: the on-air table becomes a copy of the allocation table,
and the slots of the block carry what it names, by the tables of SlotsCarryTheirRoomsAndChannels. No other command comes between
the boundary and the switch: each finds it made, and each finds the ramps settled that ended there (R169 (2), R171). That order is
how the model makes them part of the boundary (log 25). -/
def Obligations.ChannelsTakeSlotsAndTheTableSwitches : Prop :=
  (∀ (s : State) (key : Key), s.hasChannel key = false →
    (∀ k, 12 ≤ k → k ≤ 63 → tget none s.dist.allocation.slots k = none →
      (∀ j, 12 ≤ j → j < k → tget none s.dist.allocation.slots j ≠ none) →
      tget none (s.makeChannel key).dist.allocation.slots k = some key ∧
      (∀ j, j ≠ k → tget none (s.makeChannel key).dist.allocation.slots j = tget none s.dist.allocation.slots j) ∧
      (s.makeChannel key).dist.unserved = s.dist.unserved ∧ (s.makeChannel key).service key = .served k) ∧
    ((∀ k, 12 ≤ k → k ≤ 63 → tget none s.dist.allocation.slots k ≠ none) →
      (s.makeChannel key).dist.unserved = s.dist.unserved ++ [key] ∧
      (s.makeChannel key).dist.allocation = s.dist.allocation ∧
      (s.makeChannel key).service key = .unserved (s.dist.unserved.length + 1))) ∧
  (∀ (s : State) (key : Key) (keys : List Key), s.makeChannels (key :: keys) = (s.makeChannel key).makeChannels keys) ∧
  (∀ s : State, s.resetLow = false → s.dist.switchDue = true →
    ∃ t, exec .tableSwitch s = .next t ∧ t.dist = { s.dist with current := s.dist.allocation, switchDue := false } ∧
      t.mix.plan.slots = t.formPlan.slots ∧
      t = { s with dist := t.dist, mix := { s.mix with plan := { s.mix.plan with slots := t.mix.plan.slots } } }) ∧
  ∀ (c d : Instr) (s t : State), s.resetLow = false → twf none s.hall.rooms = true → d = .tableSwitch ∨ d = .rampSettle →
    exec d s = .next t → c ≠ .tableSwitch → c ≠ .rampSettle → c ≠ .resetAssert → (∀ r1 r0, c ≠ .powerOn r1 r0) →
    (∀ r1 r0, c ≠ .resetRelease r1 r0) → exec c s = exec c t

/-! ## The buses (chapter 4) -/

/-- BUS_EXCHANGE in RUN on a bus that awaits no answer (R70 to R72): the first three exchanges of a window serve the first item that
was not missed in it, the fourth polls, and so does any with no such item. A poll goes to the lowest address in use above the
pointer, or else to the lowest, and carries nothing where no address is in use. The item of a unit carries the first of R70's lines
that applies: ASSIGN with segment and indication, OPEN with the slot, CLOSE, or INDICATE. The map of a segment (R78) carries its
room's floor slot and, in a room that has channels, each code of the set in set order with the slot that the allocation table gives
its channel, or none. -/
def Obligations.BusExchangeServesOrPolls : Prop :=
  ∀ (s : State) (bus : BusId) (i : Nat), i = bus.index → s.resetLow = false → s.NothingDue → s.link.phase = .run →
    s.awaited i = none →
    (4 ≤ (s.bus i).begun → exec (.busExchange bus) s = .next s) ∧
    ((s.addresses i).Pairwise (· < ·) → ∀ a, s.nextPoll i = some a ↔ a ∈ s.addresses i ∧
      ((∃ p, (s.bus i).pointer = some p ∧ p < a ∧ ∀ b ∈ s.addresses i, p < b → a ≤ b) ∨
        (∀ p, (s.bus i).pointer = some p → ∀ b ∈ s.addresses i, b ≤ p) ∧ ∀ b ∈ s.addresses i, a ≤ b)) ∧
    ((s.bus i).begun = 3 ∨ ((s.bus i).begun < 3 ∧ (s.bus i).nextItem = none) →
      ∃ t, exec (.busExchange bus) s = .next t ∧
        (∀ a, s.nextPoll i = some a →
          t.bus i = { s.bus i with exchange := some ⟨a, .poll, true⟩, begun := (s.bus i).begun + 1, pointer := some a }) ∧
        (s.nextPoll i = none → t.bus i = { s.bus i with exchange := none, begun := (s.bus i).begun + 1 }) ∧
        (∀ j, j ≠ i → t.bus j = s.bus j) ∧ t = { s with buses := t.buses }) ∧
    (∀ a, (s.bus i).begun < 3 → (s.bus i).nextItem = some (.unit a) →
      ∃ t cmd, exec (.busExchange bus) s = .next t ∧
        t.bus i = { s.bus i with
          queue := (s.bus i).queue.filter (fun it => decide (it ≠ .unit a))
          exchange := some ⟨a, cmd, true⟩, begun := (s.bus i).begun + 1 } ∧
        (∀ j, j ≠ i → t.bus j = s.bus j) ∧ t = { s with buses := t.buses } ∧
        (∀ n, i < 4 → n = i * 256 + a →
          (∀ ind, (s.unit i a).assigned = false → (s.seat n).indication = some ind →
            cmd = .assign (s.seat n).segment ind) ∧
          ((s.unit i a).assigned = true →
            (∀ k, (s.seat n).mic = .opening → (s.seat n).slot = some k → cmd = .open_ k) ∧
            ((s.seat n).mic = .closing → cmd = .close) ∧
            ∀ ind, (s.seat n).mic ≠ .opening → (s.seat n).mic ≠ .closing → (s.seat n).indication = some ind →
              cmd = .indicate ind)) ∧
        (i = 4 →
          (∀ ind, (s.unit i a).assigned = false → (s.console a).indication = some ind →
            cmd = .assign (s.boothAt ((a + 1) / 2)).home ind) ∧
          ((s.unit i a).assigned = true →
            ((s.console a).state = .cueing → cmd = .open_ (a - 1)) ∧
            ((s.console a).state = .releasing → cmd = .close) ∧
            ∀ ind, (s.console a).state ≠ .cueing → (s.console a).state ≠ .releasing → (s.console a).indication = some ind →
              cmd = .indicate ind))) ∧
    ∀ k, (s.bus i).begun < 3 → (s.bus i).nextItem = some (.map k) →
      ∃ t cmd, exec (.busExchange bus) s = .next t ∧
        t.bus i = { s.bus i with
          queue := (s.bus i).queue.filter (fun it => decide (it ≠ .map k)), units := (t.bus i).units
          exchange := some ⟨0, cmd, false⟩, begun := (s.bus i).begun + 1 } ∧
        (∀ a, t.unit i a = if a ∈ s.addresses i ∧ (s.unit i a).presence = .present ∧ (s.unit i a).assigned = false ∧
            s.unitSegment i a = k then { s.unit i a with mapOwed := true } else s.unit i a) ∧
        (∀ j, j ≠ i → t.bus j = s.bus j) ∧ t = { s with buses := t.buses } ∧
        ∀ b r, s.anchorOf k = some b → s.room b = some r → r.anchor = b → s.ChannelsOk →
          ∃ pairs, cmd = .channelMap k (b - 1) pairs ∧
            (r.session = .dormant ∨ r.session = .armed → pairs = []) ∧
            (r.session = .inSession ∨ r.session = .ending → pairs.map Prod.fst = r.profile.languages ∧
              ∀ p ∈ pairs, ∀ j, p.2 = some j ↔ tget none s.dist.allocation.slots j = some ⟨b, p.1⟩)

/-- A STATUS without presses from a PRESENT unit whose held state is the recorded one (R67, R68, R73): the miss count is 0, and the
answered ASSIGN or INDICATE is recorded. EXCHANGE_MISSED (R74): the miss count rises by one, up to 3; the item of a command goes
back to the queue, a poll leaves it as it was; and at the third miss the unit becomes ABSENT. A PRESENT unit that does is
RELEASED, and its seat goes to ABSENT with all its dynamic fields cleared, here where no entry waits (R77, R96). Its console goes to
ABSENT without a channel and shows nothing, and no other console changes its state, its channel or its cough (R77, R138 (1)); where
it owned no channel and held no COUGH, UNIT_PRESENCE and then BOOTH_STATE of cause UNIT_LOST are the notices. -/
def Obligations.AnsweredAndMissedExchanges : Prop :=
  (∀ (s : State) (bus : BusId) (i : Nat) (x : Exchange) (c : UnitClass), s.Awaits bus i x →
     (s.unit i x.address).presence = .present →
     ∃ t, exec (.unitReplyStatus bus 0 (s.unit i x.address).held c) s = .next t ∧
       s.Heard t i x (match x.command with
         | .assign _ ind => { s.unit i x.address with misses := 0, reported := some c, assigned := true, mapOwed := false,
                                                       told := some ind }
         | .indicate ind => { s.unit i x.address with misses := 0, reported := some c, told := some ind }
         | _ => { s.unit i x.address with misses := 0, reported := some c }) ∧
       t = { s with buses := t.buses }) ∧
  ∀ (s : State) (bus : BusId) (i : Nat) (x : Exchange), s.Awaits bus i x →
    ((s.unit i x.address).misses < 2 ∨ (s.unit i x.address).presence = .absent →
      ∃ t, exec (.exchangeMissed bus) s = .next t ∧
        t.unit i x.address = { s.unit i x.address with misses := min 3 ((s.unit i x.address).misses + 1) } ∧
        (∀ a, a ≠ x.address → t.unit i a = s.unit i a) ∧
        t.bus i = { s.bus i with
          queue := if x.command = .poll ∨ .unit x.address ∈ (s.bus i).queue then (s.bus i).queue
            else (s.bus i).queue ++ [.unit x.address]
          units := (t.bus i).units, exchange := some { x with awaiting := false }
          missed := if x.command = .poll then (s.bus i).missed else (s.bus i).missed ++ [.unit x.address] } ∧
        (∀ j, j ≠ i → t.bus j = s.bus j) ∧ t = { s with buses := t.buses }) ∧
    ((s.unit i x.address).misses = 2 → (s.unit i x.address).presence ≠ .absent →
      ∃ t, exec (.exchangeMissed bus) s = .next t ∧
        t.unit i x.address = { s.unit i x.address with
          presence := .absent, misses := 3, assigned := false, mapOwed := false, told := none
          held := (s.unit i x.address).held && decide ((s.unit i x.address).presence ≠ .present) } ∧
        (∀ a, a ≠ x.address → t.unit i a = s.unit i a) ∧ .unit x.address ∉ (t.bus i).queue ∧
        t.bus i = { s.bus i with
          queue := (t.bus i).queue, units := (t.bus i).units, exchange := some { x with awaiting := false }
          missed := if x.command = .poll then (s.bus i).missed else (s.bus i).missed ++ [.unit x.address] } ∧
        (∀ j, j ≠ i → t.bus j = { s.bus j with queue := (t.bus j).queue }) ∧
        ((s.unit i x.address).presence = .present → i < 4 → x.address < 256 →
          (∀ b q, s.room b = some q → q.queue = []) →
          t.seat (i * 256 + x.address) = { (s.seat (i * 256 + x.address)).cleared with indication := none }) ∧
        ∀ c, i = 4 → c = x.address → (s.unit i c).presence = .present →
          t.console c = { state := .absent, owned := none, cough := (s.console c).cough && !(s.unit i c).held
                          indication := none } ∧
          s.OnlyConsole t c ∧
          (s.CountersOff → s.OwnersOk → s.ListensRight → (s.console c).owned = none → (s.unit i c).held = false →
            t = { s with
              booth := { s.booth with consoles := t.booth.consoles }
              buses := t.buses
              link := (s.link.raise (.unitPresence 4 c .present .absent none)).raise (.boothState (consoleBooth c) c
                (s.boothAnchor (consoleBooth c)) (s.console c).state .absent .unitLost none none) }))

/-- The answer that makes a unit PRESENT (R75, R76): its presses are not handed on; its record stands unassigned, told nothing and
owed nothing; UNIT_PRESENCE comes first; its seat goes from ABSENT to IDLE, or its console to READY; and its own item falls due,
and on D0 to D3 after it the map of its segment. -/
def Obligations.AnAnswerMakesTheUnitPresent : Prop :=
  ∀ (s : State) (bus : BusId) (presses : BitVec 2) (i n : Nat) (x : Exchange) (c : UnitClass) (u : UnitRecord),
    s.Awaits bus i x → u = s.unit i x.address → u.presence ≠ .present → s.inUse i x.address = true →
    (i < 4 → x.address < 256 → n = i * 256 + x.address → (s.seat n).mic = .absent →
      ∃ t, exec (.unitReplyStatus bus presses u.held c) s = .next t ∧
        s.Heard t i x { presence := .present, misses := 0, assigned := false, mapOwed := false, told := none,
                        held := u.held, reported := some c } ∧
        t.seat n = { s.seat n with mic := .idle, indication := (t.seat n).indication } ∧
        (∀ m, m ≠ n → t.seat m = s.seat m) ∧
        (∀ q1 q2, q1 = (if .unit x.address ∈ (s.bus i).queue then (s.bus i).queue
            else (s.bus i).queue ++ [.unit x.address]) →
          q2 = (if .map (s.seat n).segment ∈ q1 then q1 else q1 ++ [.map (s.seat n).segment]) → (t.bus i).queue = q2) ∧
        t = { s with
          floor := { s.floor with seats := t.floor.seats }
          buses := t.buses
          link := (s.link.raise (.unitPresence i x.address u.presence .present (some c))).raise
            (.micState n (s.seatAnchor n) .absent .idle .unitFound (s.seat n).muted (s.seat n).slot) }) ∧
    (i = 4 → (s.console x.address).state = .absent → s.CountersOff →
      ∃ t, exec (.unitReplyStatus bus presses u.held c) s = .next t ∧
        s.Heard t i x { presence := .present, misses := 0, assigned := false, mapOwed := false, told := none,
                        held := u.held, reported := some c } ∧
        (t.console x.address).state = .ready ∧ (t.console x.address).owned = none ∧ s.OnlyConsole t x.address ∧
        .unit x.address ∈ (t.bus i).queue ∧ t = { s with booth := t.booth, buses := t.buses, link := t.link })

/-- An ACK of the OPEN that is being carried to a seat in OPENING (R93): LIVE with the next live number and a clock at 0, muted at
once if it is a delegate under an active MUTE_ALL. Of the CLOSE that is being carried to a seat in CLOSING (R94): HOLD_OFF with a
hold-off count of 0, without a slot and off its room's live list, here where no entry waits anywhere, so that no promotion
follows. An ACK of OPEN to a seat in any other state changes none. To a console (R137): CUEING goes to ON_AIR, RELEASING to
READY, and an ACK of OPEN in RELEASING changes nothing. -/
def Obligations.AcknowledgementsOpenAndClose : Prop :=
  (∀ (s : State) (bus : BusId) (i n a k : Nat) (x : Exchange) (c : UnitClass) (r : Room), s.AwaitsSeat bus i n a x r →
    (x.command = .open_ k → ∃ t, exec (.unitReplyAck bus .ofOpen 0 (s.unit i x.address).held c) s = .next t ∧
      s.Heard t i x { s.unit i x.address with misses := 0, reported := some c } ∧
      ((s.seat n).mic ≠ .opening → t = { s with buses := t.buses }) ∧
      ((s.seat n).mic = .opening → t.seat n = { s.seat n with
        mic := .live, liveNumber := some s.floor.liveCount, clock := some ⟨0, 0⟩, warned := false, limitReported := false,
        muted := decide ((s.seat n).cls = .delegate ∧ r.priority = true ∧ r.profile.action = .muteAll), secondDue := false,
        indication := (t.seat n).indication } ∧
        (∀ m, m ≠ n → t.seat m = s.seat m) ∧
        t = { s with
          floor := { s.floor with seats := t.floor.seats, liveCount := s.floor.liveCount + 1 }
          buses := t.buses
          link := s.link.raise (.micState n (some a) .opening .live .opened (t.seat n).muted (s.seat n).slot) })) ∧
    (x.command = .close → (s.seat n).mic = .closing → (∀ b q, s.room b = some q → q.queue = []) →
      ∃ t q, exec (.unitReplyAck bus .ofClose 0 (s.unit i x.address).held c) s = .next t ∧
        s.Heard t i x { s.unit i x.address with misses := 0, reported := some c } ∧
        (t.seat n).mic = .holdOff ∧ (t.seat n).slot = none ∧ (t.seat n).openingNumber = none ∧
        (t.seat n).holdOff = some 0 ∧ (t.seat n).pendingPress = (s.seat n).pendingPress ∧
        (∀ m, m ≠ n → (t.seat m).mic = (s.seat m).mic ∧ (t.seat m).slot = (s.seat m).slot) ∧
        t.room a = some q ∧ q.live = r.live.filter (fun m => decide (m ≠ n)) ∧
        q.session = (if r.session = .ending ∧ q.live = [] then .dormant else r.session) ∧
        (∀ b, b ≠ a → t.room b = s.room b))) ∧
  ∀ (s : State) (x : Exchange) (cls : UnitClass) (a c k : Nat) (r : Room), s.AwaitsConsole x a r → c = x.address →
    (x.command = .open_ k → ∃ t, exec (.unitReplyAck .b .ofOpen 0 (s.unit 4 c).held cls) s = .next t ∧
      s.Heard t 4 x { s.unit 4 c with misses := 0, reported := some cls } ∧
      t = { s with booth := t.booth, buses := t.buses, link := t.link } ∧
      ((s.console c).state = .cueing →
        (t.console c).state = .onAir ∧ (t.console c).owned = (s.console c).owned ∧ s.OnlyConsole t c) ∧
      ((s.console c).state = .releasing → t = { s with buses := t.buses })) ∧
    (x.command = .close → (s.console c).state = .releasing →
      ∃ t, exec (.unitReplyAck .b .ofClose 0 (s.unit 4 c).held cls) s = .next t ∧
        s.Heard t 4 x { s.unit 4 c with misses := 0, reported := some cls } ∧
        t = { s with booth := t.booth, buses := t.buses, link := t.link } ∧
        (t.console c).state = .ready ∧ (t.console c).owned = (s.console c).owned ∧ s.OnlyConsole t c)

/-! ## The block clock -/

/-- BLOCK_BOUNDARY with nothing left due. In either phase every contact is sampled (R6 (1) to (3)). In RUN, ramps move one step
toward their target (R169 (1)), room timers, hold-offs and speaking clocks count (R31, R95, R107), the counter unit counts (R187),
the windows open (R71), and the switch falls due where its conditions hold (R160). What is only marked as due here is done by the
commands of its own, the model's choice (logs 6 and 25). A ramp that meets its target is marked to end (R169 (2)), but none is at a
boundary at which RESTART takes effect (R171, R180). That the routes are formed before what falls due there is done is the model's
choice (log 50). -/
def Obligations.BoundarySamplesAndCounts : Prop :=
  (∀ (s : State) (sense : BitVec 16) (audio : List Upstream), s.Calm → s.CountersOff →
    ∃ t, exec (.blockBoundary sense audio) s = .next t ∧
      (∀ p, 1 ≤ p → p ≤ 16 → ∀ l, l = (if sense.getLsbD (p - 1) then Contact.opened else .closed) →
        t.settling p =
          if (s.settling p).candidate = some l then
            if (s.settling p).hold < 100 then { s.settling p with hold := (s.settling p).hold + 1 } else s.settling p
          else { s.settling p with candidate := some l, hold := 1 }) ∧
      t.hall = { s.hall with settling := t.hall.settling, rooms := t.hall.rooms } ∧
      t.link.phase = s.link.phase ∧ t.booth = s.booth ∧ t.floor.groups = s.floor.groups) ∧
  ∀ (s : State) (sense : BitVec 16) (audio : List Upstream), s.Calm → s.CountersOff → s.link.phase = .run →
    twf Seat.initial s.floor.seats = true →
    ∃ t, exec (.blockBoundary sense audio) s = .next t ∧
      (∀ a r, s.room a = some r → ∃ x, t.room a = some x ∧
        x.level = (if r.ramp = .settled then r.level
          else if r.level < min r.profile.level r.ceiling then r.level + 1
          else if min r.profile.level r.ceiling < r.level then r.level - 1 else r.level) ∧
        (∀ m, r.session = .armed → r.timer = some m → 0 < m.seconds →
          x.timer = some (if m.blocks + 1 = 1000 then ⟨m.seconds - 1, 0⟩ else ⟨m.seconds, m.blocks + 1⟩)) ∧
        x = { r with level := x.level, timer := x.timer
                     settleDue := decide (r.ramp = .ramping ∧ x.level = min r.profile.level r.ceiling ∧ s.link.restarts = []) }) ∧
      (∀ n c, (s.seat n).mic = .live → (s.seat n).clock = some c →
        (t.seat n).clock = some (if c.blocks + 1 = 1000 then ⟨c.seconds + 1, 0⟩ else ⟨c.seconds, c.blocks + 1⟩) ∧
        (t.seat n).secondDue = decide (c.blocks + 1 = 1000)) ∧
      (∀ n k, (s.seat n).mic = .holdOff → (s.seat n).holdOff = some k →
        if 249 ≤ k then (t.seat n).holdOffDue = true else (t.seat n).holdOff = some (k + 1)) ∧
      (∀ n, t.seat n = { s.seat n with clock := (t.seat n).clock, secondDue := (t.seat n).secondDue,
                                       holdOff := (t.seat n).holdOff, holdOffDue := (t.seat n).holdOffDue }) ∧
      (∀ b, s.counts.blocks = some b → t.counts.blocks = some (if b + 1 = 1000 then 0 else b + 1) ∧
        t.counts.secondDue = decide (b + 1 = 1000)) ∧
      (∀ i, i < 5 → t.bus i = { s.bus i with begun := 0, missed := [], exchange := none }) ∧
      t.dist = { s.dist with switchDue := !s.mapWaiting && s.tablesDiffer } ∧
      t.link = { s.link with restartDue := s.link.restarts.length } ∧ t.mix.plan = t.formPlan ∧
      t.mix.heard = mixBlock s.mix.plan audio ∧ t.booth = s.booth ∧ t.counts.counters = s.counts.counters

/-- ROOM_TIMER_EXPIRY (R31): the timer of the lowest room that is due is removed; with TIMER among the conditions the room enters
IN_SESSION, and without it it stays ARMED with its conditions and reports the expiry. HOLD_OFF_END of the lowest seat that is due
(R95): IDLE, with no hold-off count; without a pending press, or in a room that is not IN_SESSION, nothing more, and a pending press
in session is then handled as a press: refused, opened, or joined to the queue. RAMP_SETTLE of the lowest room that is due (R169 (2),
R171): SETTLED, with LEVEL_SETTLED. That each is a command of its own after the boundary is the model's choice (log 6). -/
def Obligations.TimersHoldOffsAndRampsEnd : Prop :=
  (∀ (s : State) (a : Nat) (as : List Nat) (r : Room), s.resetLow = false → s.BoundaryDone →
    s.roomsWith Room.timerDue = a :: as → s.room a = some r → r.anchor = a →
    (r.wake.timer = true → ∃ t x, exec .roomTimerExpiry s = .next t ∧ t.room a = some x ∧ x.session = .inSession ∧
      x.timer = none ∧ x.wake = Wake.empty ∧ x.profile = r.profile) ∧
    (r.wake.timer = false → ∃ t, exec .roomTimerExpiry s = .next t ∧ t.room a = some { r with timer := none } ∧
      (∀ b, b ≠ a → t.room b = s.room b) ∧
      t = { s with hall := { s.hall with rooms := t.hall.rooms }
                   link := s.link.raise (.sessionState a .armed .armed .timer none none) })) ∧
  (∀ (s : State) (n : Nat) (ns : List Nat), s.resetLow = false → s.BoundaryDone →
    tkeys (fun _ x => x.mic = .holdOff && x.holdOffDue) s.floor.seats = n :: ns →
    (s.seat n).pendingPress = false ∨ (∀ r, s.seatRoom n = some r → r.session ≠ .inSession) →
    ∃ t, exec .holdOffEnd s = .next t ∧
      t.seat n = { s.seat n with mic := .idle, holdOff := none, holdOffDue := false, pendingPress := false,
                                 indication := (t.seat n).indication } ∧
      (∀ m, m ≠ n → t.seat m = s.seat m) ∧ s.QueuesOnly t ∧
      t = { s with
        floor := { s.floor with seats := t.floor.seats }
        buses := t.buses
        link := s.link.raise (.micState n (s.seatAnchor n) .holdOff .idle .holdOffEnd (s.seat n).muted (s.seat n).slot) }) ∧
  (∀ (s : State) (n a k : Nat) (ns : List Nat) (r : Room), s.resetLow = false → s.BoundaryDone →
    tkeys (fun _ x => x.mic = .holdOff && x.holdOffDue) s.floor.seats = n :: ns → (s.seat n).pendingPress = true →
    s.SeatAt n a r → r.session = .inSession → s.CountersOff →
    ∃ t l, exec .holdOffEnd s = .next t ∧
      l = s.link.raise (.micState n (some a) .holdOff .idle .holdOffEnd (s.seat n).muted (s.seat n).slot) ∧
      ((s.seat n).cls = .delegate → s.blocked n = true →
        t.seat n = { s.seat n with mic := .idle, holdOff := none, holdOffDue := false, pendingPress := false,
                                   indication := some .blocked } ∧
        s.OthersSame t n a ∧ s.QueuesOnly t ∧
        t = { s with floor := { s.floor with seats := t.floor.seats }, buses := t.buses
                     link := l.raise (.requestRefused n (some a) .blocked) }) ∧
      ((s.seat n).cls = .delegate ∧ s.blocked n = false ∧ r.profile.floorMode = .openFloor ∧ r.closing = false ∧
          s.delegateCount r < r.profile.openLimit ∨ (s.seat n).cls = .chair ∧ s.chairCount r < r.profile.chairLimit →
        s.freeSlot (seatBus n) = some k → s.floor.openingCount ≠ 4294967295 →
        t.seat n = { s.seat n with mic := .opening, slot := some k, openingNumber := some s.floor.openingCount, grant := none,
                                   holdOff := none, holdOffDue := false, pendingPress := false,
                                   indication := some .speaking } ∧
        t.room a = some { r with live := r.live ++ [n] } ∧ s.OthersSame t n a ∧ s.QueuesOnly t ∧
        t = { s with
          hall := { s.hall with rooms := t.hall.rooms }
          floor := { s.floor with seats := t.floor.seats, openingCount := s.floor.openingCount + 1 }
          buses := t.buses
          link := l.raise (.micState n (some a) .idle .opening .press (s.seat n).muted (some k)) }) ∧
      ((s.seat n).cls = .delegate → s.blocked n = false → r.profile.floorMode = .chair → r.queue.length < 32 →
        s.floor.stampCount ≠ 4294967295 →
        t.seat n = { s.seat n with mic := .queued, stamp := some s.floor.stampCount, holdOff := none, holdOffDue := false,
                                   pendingPress := false, indication := some .waiting } ∧
        t.room a = some { r with queue := r.queue ++ [⟨n, s.floor.stampCount, (s.seat n).segment⟩] } ∧
        s.OthersSame t n a ∧ s.QueuesOnly t ∧
        t = { s with
          hall := { s.hall with rooms := t.hall.rooms }
          floor := { s.floor with seats := t.floor.seats, stampCount := s.floor.stampCount + 1 }
          buses := t.buses
          link := l.raise (.micState n (some a) .idle .queued .press (s.seat n).muted (s.seat n).slot) })) ∧
  ∀ (s : State) (a : Nat) (as : List Nat) (r : Room), s.resetLow = false → s.roomsWith Room.settleDue = a :: as →
    s.room a = some r →
    ∃ t, exec .rampSettle s = .next t ∧ t.room a = some { r with ramp := .settled, settleDue := false } ∧
      (∀ b, b ≠ a → t.room b = s.room b) ∧
      t = { s with hall := { s.hall with rooms := t.hall.rooms }
                   link := s.link.raise (.levelSettled a r.level r.profile.level r.ceiling) }

/-- SPEAKING_CLOCK_SECOND of the lowest seat that is due, in its room (R108): below its limit and its warning point nothing but the
mark changes; at the warning point it is warned; at the limit the action NOTIFY reports it once with SPEAKING_LIMIT (what the notice
carries is read from SPEAKING_WARNING, log 23), and CLOSE sends it to CLOSING. -/
def Obligations.SpeakingClockWarnsAndLimits : Prop :=
  ∀ (s : State) (n a limit : Nat) (ns : List Nat) (r : Room) (c : Clock), s.resetLow = false → s.BoundaryDone →
    tkeys (fun _ x => x.mic = .live && x.secondDue) s.floor.seats = n :: ns → (s.seat n).clock = some c →
    s.SeatAt n a r → (s.seat n).mic = .live →
    ((s.seat n).grant = some limit ∨ (s.seat n).grant = none ∧ (s.seat n).cls = .delegate ∧
      r.profile.speakingLimit = limit ∧ 0 < limit) →
    (c.seconds + r.profile.warningLead < limit ∧ 0 < r.profile.warningLead ∧ r.profile.warningLead < limit →
      ∃ t, exec .speakingClockSecond s = .next t ∧ t.seat n = { s.seat n with secondDue := false } ∧
        (∀ m, m ≠ n → t.seat m = s.seat m) ∧ t = { s with floor := { s.floor with seats := t.floor.seats } }) ∧
    (0 < r.profile.warningLead → r.profile.warningLead < limit → limit ≤ c.seconds + r.profile.warningLead →
      c.seconds < limit → (s.seat n).warned = false →
      ∃ t, exec .speakingClockSecond s = .next t ∧
        t.seat n = { s.seat n with secondDue := false, warned := true, indication := (t.seat n).indication } ∧
        (∀ m, m ≠ n → t.seat m = s.seat m) ∧ s.QueuesOnly t ∧
        t = { s with floor := { s.floor with seats := t.floor.seats }, buses := t.buses
                     link := s.link.raise (.speakingWarning n c.seconds limit) }) ∧
    (limit ≤ c.seconds → r.profile.limitAction = .notify → (s.seat n).limitReported = false →
      ∃ t, exec .speakingClockSecond s = .next t ∧
        t.seat n = { s.seat n with
          secondDue := false, limitReported := true, indication := (t.seat n).indication
          warned := (s.seat n).warned || decide (0 < r.profile.warningLead ∧ r.profile.warningLead < limit) } ∧
        (∀ m, m ≠ n → t.seat m = s.seat m) ∧ s.QueuesOnly t ∧
        t = { s with
          floor := { s.floor with seats := t.floor.seats }
          buses := t.buses
          link := LinkUnit.raise
            (if 0 < r.profile.warningLead ∧ r.profile.warningLead < limit ∧ (s.seat n).warned = false
              then s.link.raise (.speakingWarning n c.seconds limit) else s.link) (.speakingLimit n c.seconds limit) }) ∧
    (limit ≤ c.seconds → r.profile.limitAction = .close → r.queue = [] → s.CountersOff →
      ∃ t, exec .speakingClockSecond s = .next t ∧ (t.seat n).mic = .closing ∧ (t.seat n).clock = none ∧
        (t.seat n).slot = (s.seat n).slot ∧ (∀ m, m ≠ n → t.seat m = s.seat m))

/-- SECOND_BOUNDARY that is due (R187, R188): every tally is 0, and where no addition passes the top every enabled counter has added
what its mode gives, its edge memory following in EDGE mode, and nothing else changes. -/
def Obligations.SecondBoundaryAddsToTheCounters : Prop :=
  ∀ s : State, s.resetLow = false → s.BoundaryDone → s.counts.secondDue = true → s.counts.raised = [] →
    s.counts.deferring = false →
    (∀ c ∈ counterNumbers, (s.counter c).value + (s.counter c).addition (s.reading (s.counter c)) ≤ 4294967295) →
    ∃ t, exec .secondBoundary s = .next t ∧
      (∀ c ∈ counterNumbers, t.counter c =
        if (s.counter c).enabled then
          { s.counter c with
            tally := 0
            value := (s.counter c).value + (match (s.counter c).mode with
              | .count => if (s.counter c).event.sampled then s.reading (s.counter c) else 0
              | .threshold => if (s.counter c).condition (s.reading (s.counter c)) then 1 else 0
              | .edge => if (s.counter c).condition (s.reading (s.counter c)) ∧ (s.counter c).edge = false then 1 else 0)
            edge := if (s.counter c).mode = .edge then (s.counter c).condition (s.reading (s.counter c))
              else (s.counter c).edge }
        else { s.counter c with tally := 0 }) ∧
      t = { s with counts := { s.counts with counters := t.counts.counters, secondDue := false } }

/-- A second boundary at which the one enabled counter passes the top (R189): its value wraps, it stays enabled, and
COUNTER_OVERFLOW is raised. With the action NOTICE that is all. With NOTICE + BLOCK the group of its scope is blocked after that
notice: one that is blocked already stays as it is, one that is not installed has only its field set, and one that is installed
raises GROUP_BLOCKED, here where no member waits in a queue. -/
def Obligations.OverflowWrapsAndBlocks : Prop :=
  ∀ (s : State) (c v : Nat) (x : Counter) (n : Notice), s.resetLow = false → s.BoundaryDone → s.link.phase = .run →
    s.counts.secondDue = true → s.counts.raised = [] → s.counts.deferring = false → c ∈ counterNumbers →
    x = s.counter c → x.enabled = true → (∀ d ∈ counterNumbers, d ≠ c → (s.counter d).enabled = false) →
    x.value ≤ 4294967295 → v = x.value + x.addition (s.reading x) → 4294967295 < v →
    n = .counterOverflow c x.event x.scope x.mode (v - 4294967296) x.action →
    ∃ t, exec .secondBoundary s = .next t ∧ (t.counter c).value = v - 4294967296 ∧ (t.counter c).enabled = true ∧
      t.hall = { s.hall with rooms := t.hall.rooms } ∧
      (x.action = .notice → t = { s with counts := t.counts, link := s.link.raise n }) ∧
      ∀ g, x.action = .noticeAndBlock → x.scope = .group g →
        (∀ h, h ≠ g → t.group h = s.group h) ∧ t.group g = { s.group g with blocked := true } ∧
        ((s.group g).blocked = true → t = { s with counts := t.counts, link := s.link.raise n }) ∧
        ((s.group g).blocked = false → (s.group g).installed = false →
          t = { s with counts := t.counts, link := s.link.raise n
                       floor := { s.floor with groups := t.floor.groups } }) ∧
        ((s.group g).blocked = false → (s.group g).installed = true →
          (∀ a r, s.room a = some r → ∀ e ∈ r.queue, groupTakes (s.group g) e.seat = false) →
          s.QueuesOnly t ∧ t = { s with
            counts := t.counts
            floor := { s.floor with groups := t.floor.groups, seats := t.floor.seats }
            buses := t.buses
            link := (s.link.raise n).raise (.groupBlocked g true .counter (s.memberCount g)) })

/-- What the counters do with the occurrences that are raised (R185, R188 to R190). One occurrence is counted once by every enabled
counter that has it in scope, and changes nothing else; several are counted in the order in which they were raised. A counter in
COUNT mode that passes its top goes to 0 with COUNTER_OVERFLOW. With NOTICE + BLOCK the group of its scope is then blocked whole, and
only after that is the drop that this brings counted. Within a merge or a split nothing is counted; the drop of the one entry that a
merge cuts is counted at its end, by the rooms that the merge leaves. -/
def Obligations.OccurrencesAreAddedInOrder : Prop :=
  (∀ (s t : State) (o : Occurrence), s.CountersReady → t = (s.raise o).settleCounts →
    s.Counted t o ∧ t = { s with counts := { s.counts with counters := t.counts.counters } }) ∧
  (∀ (s : State) (o : Occurrence) (os : List Occurrence), s.counts.raised = o :: os → s.counts.deferring = false →
    (∀ c ∈ counterNumbers, (s.counter c).value < 4294967295) →
    ∃ u : State, u = { s with counts := { s.counts with raised := os, counters := u.counts.counters } } ∧ s.Counted u o ∧
      s.settleCounts = u.settleCounts) ∧
  (∀ (s t : State) (c : Nat) (x : Counter) (o : Occurrence) (n : Notice), s.counts.raised = [] → s.counts.deferring = false →
    t = (s.raise o).settleCounts → c ∈ counterNumbers → x = s.counter c → x.enabled = true → x.event = o.event →
    x.mode = .count → s.InScope o x.scope → x.value = 4294967295 → n = .counterOverflow c x.event x.scope .count 0 x.action →
    (x.action = .notice → (∀ d ∈ counterNumbers, d ≠ c → (s.counter d).enabled = false) →
      t.counter c = { x with value := 0 } ∧ (∀ d, d ≠ c → t.counter d = s.counter d) ∧
      t = { s with counts := { s.counts with counters := t.counts.counters }, link := s.link.raise n }) ∧
    ∀ (g d a m : Nat) (y : Counter) (r : Room) (e : Entry), x.action = .noticeAndBlock → x.scope = .group g →
      s.link.phase = .run → (s.group g).blocked = false → o.event ≠ .requestDropped →
      (∀ b ∈ counterNumbers, b ≠ c → b ≠ d → (s.counter b).enabled = false) → d ∈ counterNumbers → d ≠ c →
      y = s.counter d → y.enabled = true → y.event = .requestDropped → y.scope = .all → y.mode = .count →
      y.value < 4294967295 → twf Seat.initial s.floor.seats = true → twf none s.hall.rooms = true → s.room a = some r →
      r.queue.filter (fun f => groupTakes (s.group g) f.seat) = [e] → e.seat = m →
      (∀ b q, b ≠ a → s.room b = some q → ∀ f ∈ q.queue, groupTakes (s.group g) f.seat = false) →
      s.SeatAt m a r → 1 ≤ g → g ≤ 16 → s.blocked m = false →
      t.counter c = { x with value := 0 } ∧ t.counter d = { y with value := y.value + 1 } ∧
      t.group g = { s.group g with blocked := true } ∧ (t.seat m).mic = .idle ∧ (t.seat m).stamp = none ∧
      t.room a = some { r with queue := r.queue.filter (fun f => decide (f.seat ≠ m)) } ∧
      t.link = ((s.link.raise n).raise (.groupBlocked g true .counter (s.memberCount g))).raise
        (.requestDropped m (some a) (s.seat m).stamp .blocked)) ∧
  (∀ s : State, s.counts.deferring = true → s.settleCounts = s) ∧
  ∀ (s t : State) (a b : Nat) (p q : Room) (all : List Entry) (e : Entry), s.room a = some p → s.room b = some q → a ≠ b →
    s.CountersReady → s.RoomsOk → s.QueuesOk → s.EntriesRight → (∀ k, (s.boothAt k).source = .floor) →
    (p.priority = true ∨ q.priority = true ∨ s.chairsHolding (p.segments ++ q.segments) = []) →
    JoinedBy Entry.stamp p.queue q.queue all → all.drop 32 = [e] → t = s.merge a b →
    s.Counted t ⟨.requestDropped, (s.seat e.seat).segment, some (seatBus e.seat), some e.seat⟩

/-- Each event of R184's table raises its occurrence, with the segment of its room, its bus and its seat, and the counters have taken
it, once, when its command is done (R93, R94, R114, R89, R115, R108, R77, R135, R145, R178). Where a change of listen state could raise
a second one, no booth relays. That a room raises one CLIP for a block is read from R178 (log 22); that it comes before what else
falls at its boundary, and that what the slots send in the block is an operand of BLOCK_BOUNDARY, is the model's choice (logs 54
and 21). -/
def Obligations.EventsRaiseTheirOccurrences : Prop :=
  (∀ (s : State) (bus : BusId) (i n a k : Nat) (x : Exchange) (c : UnitClass) (r : Room) (o : CountEvent → Occurrence),
    s.AwaitsCounted bus i n a x r → (∀ v, o v = ⟨v, (s.seat n).segment, some i, some n⟩) →
    (x.command = .open_ k → (s.seat n).mic = .opening →
      ∃ t, exec (.unitReplyAck bus .ofOpen 0 (s.unit i x.address).held c) s = .next t ∧ s.Counted t (o .micOpened)) ∧
    (x.command = .close → (s.seat n).mic = .closing → r.session ≠ .ending →
      ∃ t, exec (.unitReplyAck bus .ofClose 0 (s.unit i x.address).held c) s = .next t ∧ s.Counted t (o .micClosed)) ∧
    (x.command = .poll → (s.seat n).mic = .idle → (s.seat n).cls = .delegate → r.session = .inSession → s.blocked n = true →
      ∃ t, exec (.unitReplyStatus bus 1 (s.unit i x.address).held c) s = .next t ∧ s.Counted t (o .requestRefused)) ∧
    ((s.unit i x.address).misses = 2 → r.session ≠ .ending →
      ∃ t, exec (.exchangeMissed bus) s = .next t ∧ s.Counted t (o .unitLost))) ∧
  (∀ (s : State) (tag b0 b1 : Byte) (n a : Nat) (r : Room), s.CanTake ⟨0x13, tag, [b0, b1]⟩ → s.CountersReady →
    s.link.phase = .run → n = word16 b0 b1 → s.SeatAt n a r → (s.seat n).cls = .delegate → r.session = .inSession →
    (s.seat n).mic = .idle → s.blocked n = false → r.queue.length < 32 → s.floor.stampCount ≠ 4294967295 →
    ∃ t, exec (.requestAdd tag [b0, b1]) s = .next t ∧
      s.Counted t ⟨.requestJoined, (s.seat n).segment, some (seatBus n), some n⟩) ∧
  (∀ (s : State) (tag kb : Byte) (a : Nat) (r : Room) (e : Entry), s.CanTake ⟨0x16, tag, [kb]⟩ → s.CountersReady →
    s.link.phase = .run → s.RoomAt kb.toNat a r → r.queue = [e] → s.seatAnchor e.seat = some a →
    ∃ t, exec (.queueClear tag [kb]) s = .next t ∧
      s.Counted t ⟨.requestDropped, (s.seat e.seat).segment, some (seatBus e.seat), some e.seat⟩) ∧
  (∀ (s : State) (n a limit : Nat) (ns : List Nat) (r : Room) (c : Clock), s.resetLow = false → s.BoundaryDone →
    s.CountersReady → tkeys (fun _ x => x.mic = .live && x.secondDue) s.floor.seats = n :: ns → (s.seat n).clock = some c →
    s.SeatAt n a r → (s.seat n).mic = .live → (s.seat n).grant = some limit → limit ≤ c.seconds →
    r.profile.limitAction = .close →
    ∃ t, exec .speakingClockSecond s = .next t ∧
      s.Counted t ⟨.limitClose, (s.seat n).segment, some (seatBus n), some n⟩) ∧
  (∀ (s : State) (x : Exchange) (cls : UnitClass) (a c : Nat) (r : Room) (o : CountEvent → Occurrence), s.Awaits .b 4 x →
    s.CountersReady → c = x.address → (s.unit 4 c).presence = .present → s.boothAnchor (consoleBooth c) = some a →
    s.room a = some r → r.anchor = a → (∀ b, (s.boothAt b).source = .floor) →
    (∀ v, o v = ⟨v, (s.boothAt (consoleBooth c)).home, some 4, none⟩) →
    (∀ d, x.command = .poll → r.session = .inSession → r.profile.contention = .takeover → (s.console c).state = .ready →
      (s.boothAt (consoleBooth c)).language ∈ r.profile.languages →
      s.ownerOf ⟨a, (s.boothAt (consoleBooth c)).language⟩ = some d →
      ∃ t, exec (.unitReplyStatus .b 1 (s.unit 4 c).held cls) s = .next t ∧ s.Counted t (o .boothTakeover)) ∧
    ((s.unit 4 c).misses = 2 → ∃ t, exec (.exchangeMissed .b) s = .next t ∧ s.Counted t (o .unitLost))) ∧
  (∀ (s : State) (tag bb rb : Byte) (a : Nat) (r : Room), s.CanTake ⟨0x1A, tag, [bb, 1, rb]⟩ → s.CountersReady →
    s.link.phase = .run → 1 ≤ bb.toNat → bb.toNat ≤ 24 → (s.boothAt bb.toNat).installed = true →
    s.RoomAt (s.boothAt bb.toNat).home a r → (s.boothAt bb.toNat).home ∈ r.segments → 1 ≤ rb.toNat → rb.toNat ≤ 63 →
    rb.toNat ≠ (s.boothAt bb.toNat).language → (s.boothAt bb.toNat).listen = .direct →
    (∀ b, b ≠ bb.toNat → (s.boothAt b).source = .floor) → twf Booth.initial s.booth.booths = true →
    s.ownerOf ⟨a, rb.toNat⟩ = none →
    ∃ t, exec (.boothSource tag [bb, 1, rb]) s = .next t ∧
      s.Counted t ⟨.relayFallback, (s.boothAt bb.toNat).home, some 4, none⟩) ∧
  ∀ (s : State) (sense : BitVec 16) (audio : List Upstream) (a : Nat) (total : Nat → Nat → Int), s.Calm → s.CountersReady →
    s.link.phase = .run → 1 ≤ a → a ≤ 12 →
    (∀ b i, total b i = ((s.mix.plan.mics.filter (fun m => decide (m.anchor = b))).map
      (fun m => route m.gain (upstreamSample audio m.bus m.slot i))).sum) →
    (∀ b, 1 ≤ b → b ≤ 12 → ((∃ i, i < 48 ∧ (total b i < -8388608 ∨ 8388607 < total b i)) ↔ b = a)) →
    ∃ t, exec (.blockBoundary sense audio) s = .next t ∧ s.Counted t ⟨.clip, a, none, none⟩

/-! ## Gains and samples (chapter 9) -/

/-- The attenuation A(N) is 10 log10(N) dB rounded to the nearest step of 0.5 dB, in fortieth powers over whole numbers, with 0 for
N of 0 and 24 from 16 on (R166). A block has one microphone route for each LIVE unmuted seat with a slot and a room, with the seat's
trim less A(N) as its gain (R167), and one zone route for each installed segment that a room contains, with the floor of that room
and the sum of its level and the segment's trim as its gain (R172). In each of the 48 frames the floor of a room is the exact sum of
its routes' scaled samples, limited to 24 bits, which its slots carry unscaled and its zones through their gains (R177, R179); what
a slot sends in a frame is an operand of BLOCK_BOUNDARY, the model's choice (log 21). The factor of a gain of -144 to +24 steps is
65536 * 10^(g/40) rounded to the nearest whole number, halves rounded up (R175): 2 f - 1 is at most twice that number, which is
below 2 f + 1, both to the fortieth power. A route scales a sample to the whole number nearest to x * f / 65536, halves away from
zero, and a muted route and a source of silence give 0 (R176). -/
def Obligations.TheFloorIsTheScaledSum : Prop :=
  (∀ n, 0 ≤ attenuation n ∧ (n = 0 → attenuation n = 0) ∧ (16 ≤ n → attenuation n = 24) ∧
    (1 ≤ n → n < 16 → 10 ^ (2 * (attenuation n).toNat) ≤ 10 * n ^ 40 ∧ n ^ 40 < 10 * 10 ^ (2 * (attenuation n).toNat))) ∧
  (∀ (s : State) (m : MicRoute), twf Seat.initial s.floor.seats = true →
    (m ∈ s.formPlan.mics ↔ ∃ n r k, (s.seat n).mic = .live ∧ (s.seat n).muted = false ∧ s.seatRoom n = some r ∧
      (s.seat n).slot = some k ∧ m = ⟨n, seatBus n, k, r.anchor, (s.seat n).trim - attenuation (r.live.filter
        (fun i => decide ((s.seat i).mic = .live ∧ (s.seat i).muted = false))).length⟩) ∧
    (s.formPlan.mics.map MicRoute.seat).Nodup) ∧
  (∀ s : State, (s.formPlan.zones.map ZoneRoute.segment).Nodup ∧
    ∀ z, z ∈ s.formPlan.zones ↔ 1 ≤ z.segment ∧ z.segment ≤ 12 ∧ (s.segment z.segment).installed = true ∧
      ∃ a r, s.anchorOf z.segment = some a ∧ s.room a = some r ∧ z.anchor = r.anchor ∧
        z.gain = r.level + (s.segment z.segment).trim) ∧
  (∀ y : Int, limit24 y = if 8388607 < y then 8388607 else if y < -8388608 then -8388608 else y) ∧
  (∀ (p : Plan) (audio : List Upstream) (a : Nat) (floor : Nat → Int),
    (∀ i, floor i = limit24 ((p.mics.filter (fun m => decide (m.anchor = a))).map
      (fun m => route m.gain (upstreamSample audio m.bus m.slot i))).sum) →
    (∀ ls, (a, ls) ∈ (mixBlock p audio).floors → ls.length = 48 ∧ ∀ i, i < 48 → (ls.getD i 0).toInt = floor i) ∧
    (∀ m ∈ p.mics, m.anchor = a → 1 ≤ a → a ≤ 12 → ∃ ls, (a, ls) ∈ (mixBlock p audio).floors) ∧
    (∀ k, (k, .floor a) ∈ p.slots →
      ∃ ls, (k, ls) ∈ (mixBlock p audio).slots ∧ ls.length = 48 ∧ ∀ i, i < 48 → (ls.getD i 0).toInt = floor i) ∧
    ∀ z ∈ p.zones, z.anchor = a → ∃ ls, (z.segment, ls) ∈ (mixBlock p audio).zones ∧ ls.length = 48 ∧
      ∀ i, i < 48 → (ls.getD i 0).toInt = limit24 (route z.gain (floor i))) ∧
  (∀ g : Int, -144 ≤ g → g ≤ 24 →
    ((2 * (factor g : Int) - 1) ^ 40 * 10 ^ (-g).toNat ≤ 131072 ^ 40 * 10 ^ g.toNat ∧
      (131072 : Int) ^ 40 * 10 ^ g.toNat < (2 * (factor g : Int) + 1) ^ 40 * 10 ^ (-g).toNat)) ∧
  (∀ (x : Int) (f : Nat), 0 ≤ x → 65536 * scale x f * 2 ≤ 2 * x * f + 65536 ∧ 2 * x * f + 65536 < 65536 * scale x f * 2 + 131072) ∧
  (∀ (x : Int) (f : Nat), scale (-x) f = -scale x f) ∧
  (∀ g x : Int, g < -120 → route g x = 0) ∧ (∀ g : Int, route g 0 = 0) ∧
  ∀ g x : Int, -120 ≤ g → route g x = scale x (factor g)

/-- What the slots carry in the block that begins at a boundary. A channel of an IN_SESSION or ENDING room carries its ON_AIR owner's
microphone through the booth's trim, silence under COUGH, and fill without an owner in ON_AIR (R143, R173, R174); in each frame that
is the owner's sample, nothing, or the room's floor through the fill level, scaled and limited (R176, R179). Floor slot k - 1 carries
the floor of the room that now contains segment k while that is IN_SESSION or ENDING and k is in the on-air table's anchor set (R152).
A language slot carries the channel of its on-air entry's code in the room that now contains the entry's segment, if it has one
(R161). Listen slot b - 1 carries the floor of its booth's room, or the channel that the booth relays, where that has an ON_AIR owner
in a booth of source FLOOR (R144). What has no line of its own carries silence. What a slot sends is an operand of BLOCK_BOUNDARY
(log 21). -/
def Obligations.SlotsCarryTheirRoomsAndChannels : Prop :=
  (∀ (s : State) (a c : Nat) (r : Room), s.OwnersOk → s.RoomsOk → twf none s.hall.rooms = true → s.room a = some r →
    ((r.session ≠ .inSession ∧ r.session ≠ .ending ∨ c ∉ r.profile.languages) →
      ∀ o, (⟨a, c⟩, o) ∉ s.formPlan.channels) ∧
    (r.session = .inSession ∨ r.session = .ending → c ∈ r.profile.languages →
      ∃ o, (∀ x, (⟨a, c⟩, x) ∈ s.formPlan.channels ↔ x = o) ∧
        (∀ d, (s.console d).owned = some ⟨a, c⟩ → (s.console d).state = .onAir →
          o = if (s.console d).cough then .silence else .microphone d (s.boothAt (consoleBooth d)).trim) ∧
        (∀ d, (s.console d).owned = some ⟨a, c⟩ → (s.console d).state = .cueing → o = .fill a r.profile.fill) ∧
        ((∀ d, (s.console d).owned ≠ some ⟨a, c⟩) → o = .fill a r.profile.fill))) ∧
  (∀ (p : Plan) (audio : List Upstream) (key : Key) (o : Output) (floor : Nat → Nat → Int) (sample : Nat → Int),
    (∀ b i, floor b i = limit24 ((p.mics.filter (fun m => decide (m.anchor = b))).map
      (fun m => route m.gain (upstreamSample audio m.bus m.slot i))).sum) →
    (∀ x, (key, x) ∈ p.channels ↔ x = o) →
    (∀ i, sample i = match o with
      | .microphone c g => limit24 (route g (upstreamSample audio 4 (c - 1) i))
      | .fill b (some g) => limit24 (route g (floor b i))
      | _ => 0) →
    (∀ k, (k, .channel key) ∈ p.slots →
      ∃ ls, (k, ls) ∈ (mixBlock p audio).slots ∧ ls.length = 48 ∧ ∀ i, i < 48 → (ls.getD i 0).toInt = sample i) ∧
    (∀ k, (k, .channel key) ∈ p.listens →
      ∃ ls, (k, ls) ∈ (mixBlock p audio).listens ∧ ls.length = 48 ∧ ∀ i, i < 48 → (ls.getD i 0).toInt = sample i) ∧
    ∀ k b, (k, .floor b) ∈ p.listens →
      ∃ ls, (k, ls) ∈ (mixBlock p audio).listens ∧ ls.length = 48 ∧ ∀ i, i < 48 → (ls.getD i 0).toInt = floor b i) ∧
  (∀ (s : State) (k : Nat), 1 ≤ k → k ≤ 12 →
    (s.link.phase ≠ .run ∨ (s.segment k).installed = false ∨ k ∉ s.dist.current.anchors →
      tget .silence s.formPlan.slots (k - 1) = .silence) ∧
    ∀ b r, s.link.phase = .run → (s.segment k).installed = true → k ∈ s.dist.current.anchors → s.anchorOf k = some b →
      s.room b = some r → r.anchor = b → tget .silence s.formPlan.slots (k - 1) =
        if r.session = .inSession ∨ r.session = .ending then .floor b else .silence) ∧
  (∀ (s : State) (k : Nat), 12 ≤ k → k ≤ 63 →
    (tget none s.dist.current.slots k = none → tget .silence s.formPlan.slots k = .silence) ∧
    ∀ key b r, tget none s.dist.current.slots k = some key → s.anchorOf key.anchor = some b → s.room b = some r →
      r.anchor = b → tget .silence s.formPlan.slots k =
        if (r.session = .inSession ∨ r.session = .ending) ∧ key.code ∈ r.profile.languages then .channel ⟨b, key.code⟩
        else .silence) ∧
  ∀ (s : State) (b : Nat), 1 ≤ b → twf Booth.initial s.booth.booths = true → (s.boothAt 0).installed = false →
    ((s.boothAt b).installed = false → tget .silence s.formPlan.listens (b - 1) = .silence) ∧
    ∀ a r, (s.boothAt b).installed = true → s.ListensRight → s.OwnersOk → s.boothAnchor b = some a → s.room a = some r →
      r.anchor = a →
      ((s.boothAt b).source = .floor → tget .silence s.formPlan.listens (b - 1) = .floor a) ∧
      ∀ l valid, (s.boothAt b).source = .relay l →
        (valid ↔ (r.session = .inSession ∨ r.session = .ending) ∧ s.hasChannel ⟨a, l⟩ = true ∧
          ∃ d, (s.console d).owned = some ⟨a, l⟩ ∧ (s.console d).state = .onAir ∧
            (s.boothAt (consoleBooth d)).source = .floor) →
        (valid → tget .silence s.formPlan.listens (b - 1) = .channel ⟨a, l⟩) ∧
        (¬ valid → tget .silence s.formPlan.listens (b - 1) = .floor a)

/-! ## Counters (chapter 10) -/

/-- COUNTER_SET (R182): the record is stored whole, with the threshold clamped, the edge memory no and the tally 0; a counter number,
a scope or an action outside the checks is refused with BAD_VALUE. COUNTER_READ (R183) reads one counter or all eight with the
block count, and changes nothing; any other number is refused. That the replies carry the number of each counter is the model's
choice (log 48). -/
def Obligations.CounterSetAndRead : Prop :=
  (∀ (s : State) (tag : Byte) (body : List Byte) (c : Nat) (x : Counter) (clamped : Bool), s.CanTake ⟨0x20, tag, body⟩ →
    readCounterSet body = some (c, x, clamped) →
    (x.threshold = min 255 (word16At body 6) ∧ clamped = decide (255 < word16At body 6) ∧ x.edge = false ∧ x.tally = 0 ∧
      x.value = word32At body 11) ∧
    (c < 1 ∨ 8 < c ∨ x.scope.inRange = false ∨ (x.action = .noticeAndBlock ∧ ∀ g, x.scope ≠ .group g) →
      exec (.counterSet tag body) s = .next (s.served ⟨0x20, tag, .refuse .badValue⟩)) ∧
    (1 ≤ c → c ≤ 8 → x.scope.inRange = true → (x.action = .notice ∨ ∃ g, x.scope = .group g) →
      ∃ t, exec (.counterSet tag body) s = .next t ∧ t.counter c = x ∧ (∀ d, d ≠ c → t.counter d = s.counter d) ∧
        t = { s with counts := { s.counts with counters := t.counts.counters }
                     link := s.link.served ⟨0x20, tag, .okClamped clamped (.counter c x)⟩ })) ∧
  ∀ (s : State) (tag cb : Byte), s.CanTake ⟨0x21, tag, [cb]⟩ →
    exec (.counterRead tag [cb]) s = .next (s.served ⟨0x21, tag,
      if cb.toNat = 0 then .ok (.counters ([1, 2, 3, 4, 5, 6, 7, 8].map (fun c => (c, s.counter c))) s.counts.blocks)
      else if cb.toNat ≤ 8 then .ok (.counters [(cb.toNat, s.counter cb.toNat)] s.counts.blocks)
      else .refuse .badValue⟩)

/-! ## Phases (R199 to R201) -/

/-- START (R199, R13, R80, R110, R149, R164, R180, R191). The four checks come in their order, each with the lowest failing number: no
installed segment, a partition with an end that is not installed, a seat and a booth in a segment that is not installed; the item is
reported and nothing changes. Where none fails the phase becomes RUN, every group of installed segments is a DORMANT room under its
lowest number with its level at its target, every seat keeps its installation fields and is cleared of the rest, every booth listens
by its source alone, the counts are 0, and the buses are powered with the maps due. That the reply to a failure of check (1) carries
the kind segment is the model's choice (log 51). -/
def Obligations.StartBuildsTheRooms : Prop :=
  ∀ (s : State) (tag : Byte) (refused : StartItem → Prop) (walls seats booths : Nat → Prop), s.CanTake ⟨0x05, tag, []⟩ →
    s.link.phase = .config → twf Partition.initial s.hall.partitions = true → twf Seat.initial s.floor.seats = true →
    twf Booth.initial s.booth.booths = true →
    (∀ item, refused item ↔
      exec (.start tag []) s = .next (s.served ⟨0x05, tag, ⟨.inconsistent, false, .item item⟩⟩)) →
    (∀ p, walls p ↔ (s.partition p).installed = true ∧
      ((s.segment (s.partition p).a).installed = false ∨ (s.segment (s.partition p).b).installed = false)) →
    (∀ n, seats n ↔ (s.seat n).installed = true ∧ (s.segment (s.seat n).segment).installed = false) →
    (∀ b, booths b ↔ (s.boothAt b).installed = true ∧ (s.segment (s.boothAt b).home).installed = false) →
    ((∀ k, 1 ≤ k → k ≤ 12 → (s.segment k).installed = false) → refused .segment) ∧
    ((∃ k, 1 ≤ k ∧ k ≤ 12 ∧ (s.segment k).installed = true) →
      (∀ p, walls p → (∀ q, walls q → p ≤ q) → refused (.partition p)) ∧
      ((∀ p, ¬ walls p) →
        (∀ n, seats n → (∀ m, seats m → n ≤ m) → refused (.seat n)) ∧
        ((∀ n, ¬ seats n) → ∀ b, booths b → (∀ c, booths c → b ≤ c) → refused (.booth b)))) ∧
    ((∃ k, 1 ≤ k ∧ k ≤ 12 ∧ (s.segment k).installed = true) → (∀ p, ¬ walls p) → (∀ n, ¬ seats n) → (∀ b, ¬ booths b) →
      ∃ t, exec (.start tag []) s = .next t ∧ t.link.phase = .run ∧
      (∀ k, k ∈ s.installedSegments → t.anchorOf k = some (lowest (s.groupOf s.installedSegments k))) ∧
      (∀ k, k ∉ s.installedSegments → t.anchorOf k = none ∧ t.room k = none) ∧
      (∀ k ∈ s.installedSegments, lowest (s.groupOf s.installedSegments k) = k →
        t.room k = some { anchor := k, segments := s.groupOf s.installedSegments k, session := .dormant,
                          profile := (s.segment k).profile,
                          ceiling := s.ceilingOf (s.groupOf s.installedSegments k),
                          level := min (s.segment k).profile.level (s.ceilingOf (s.groupOf s.installedSegments k)),
                          ramp := .settled, wake := Wake.empty, timer := none, live := [], queue := [],
                          rotation := none, priority := false, settleDue := false }) ∧
      t.floor.stampCount = 0 ∧ t.floor.openingCount = 0 ∧ t.floor.liveCount = 0 ∧ t.counts.blocks = some 0 ∧
      (∀ i, i < 5 → t.bus i = { Bus.initial with
        queue := if i < 4 then s.installedSegments.map Item.map else [], power := true }) ∧
      (∀ n, t.seat n = { Seat.initial with
        installed := (s.seat n).installed, cls := (s.seat n).cls, segment := (s.seat n).segment, trim := (s.seat n).trim }) ∧
      (∀ b, t.boothAt b = { s.boothAt b with listen := (s.boothAt b).source.restListen }) ∧
      (∀ c, t.console c = Console.initial) ∧ t.dist.current = t.dist.allocation ∧ t.dist.unserved = [] ∧
      t.hall.segments = s.hall.segments ∧ t.hall.partitions = s.hall.partitions ∧ t.hall.settling = s.hall.settling ∧
      t.floor.groups = s.floor.groups)

/-- STOP (R200, R81 (1), R110, R128, R149): CONFIG with no rooms, tables, console states or counters, every seat cleared but for its
installation fields, every group unblocked, every booth listening by its source alone, the queues of the buses empty with their
OFF to come, and no reply yet. The OFF goes out in the first exchange of the next window, and the power of a bus goes at the end of
that window (R81 (2)). STOP_COMPLETE answers STOP once OFF has gone out on every bus, and does nothing before; that the reply does
not wait for the end of the window is read from R200 (log 24). -/
def Obligations.StopClearsAndCompletes : Prop :=
  (∀ (s : State) (tag : Byte), s.CanTake ⟨0x06, tag, []⟩ → s.link.phase = .run →
    ∃ t, exec (.stop tag []) s = .next t ∧ t.link.phase = .config ∧ t.link.stopping = some tag ∧ t.link.restarts = [] ∧
      (∀ a, t.room a = none) ∧ (∀ k, t.anchorOf k = none) ∧ (∀ c, t.console c = Console.initial) ∧
      (∀ c, t.counter c = Counter.initial) ∧ t.counts.blocks = none ∧ (∀ g, (t.group g).blocked = false) ∧
      t.dist.allocation = SlotTable.empty ∧ t.dist.current = SlotTable.empty ∧ t.dist.unserved = [] ∧
      (∀ i, i < 5 → t.bus i = { Bus.initial with power := (s.bus i).power, off := .waiting }) ∧
      (twf Seat.initial s.floor.seats = true → ∀ n, t.seat n = { Seat.initial with
        installed := (s.seat n).installed, cls := (s.seat n).cls, segment := (s.seat n).segment, trim := (s.seat n).trim }) ∧
      (twf Booth.initial s.booth.booths = true →
        ∀ b, t.boothAt b = { s.boothAt b with listen := (s.boothAt b).source.restListen }) ∧
      t.hall.segments = s.hall.segments ∧ t.hall.partitions = s.hall.partitions ∧ t.hall.settling = s.hall.settling ∧
      t.link.lost = s.link.lost ∧ t.floor.stampCount = s.floor.stampCount ∧
      (s.link.restarts = [] → t.link = { s.link with input := s.link.input.drop 1, phase := .config,
                                                     stopping := some tag, restartDue := 0 })) ∧
  (∀ (s : State) (tag : Byte), s.resetLow = false → s.BoundaryDone → s.link.stopping = some tag →
    ((∀ i, i < 5 → (s.bus i).off = .sent ∨ (s.bus i).off = .done) → exec .stopComplete s =
      .next { s with link := LinkUnit.answer { s.link with stopping := none } ⟨0x06, tag, .ok .nothing⟩ }) ∧
    ((∃ i, i < 5 ∧ (s.bus i).off ≠ .sent ∧ (s.bus i).off ≠ .done) → exec .stopComplete s = .next s)) ∧
  (∀ (s : State) (bus : BusId) (i : Nat), i = bus.index → s.resetLow = false → s.NothingDue → s.link.phase = .config →
    s.awaited i = none →
    ((s.bus i).off = .due → ∃ t, exec (.busExchange bus) s = .next t ∧
      t.bus i = { s.bus i with exchange := some ⟨0, .off, false⟩, begun := (s.bus i).begun + 1, off := .sent } ∧
      (∀ j, j ≠ i → t.bus j = s.bus j) ∧ t = { s with buses := t.buses }) ∧
    ((s.bus i).off ≠ .due → exec (.busExchange bus) s = .next s)) ∧
  ∀ (s : State) (sense : BitVec 16) (audio : List Upstream), s.resetLow = false → s.NothingDue → s.link.phase = .config →
    (∀ i ∈ busNumbers, s.awaited i = none) →
    ∃ t, exec (.blockBoundary sense audio) s = .next t ∧ ∀ i, i < 5 → t.bus i = (match (s.bus i).off with
      | .waiting => { s.bus i with off := .due, begun := 0 }
      | .sent => { s.bus i with off := .done, power := false, exchange := none }
      | _ => s.bus i)

/-- RESTART makes a restart due and is not answered yet (R201). RESTART_TAKES_EFFECT at the boundary at which one is due (R201, R82,
R110, R149, R180): the rooms are rebuilt with their levels at their targets, the floor's counts are 0, every seat and console is in
IDLE or READY where its unit is PRESENT and else in ABSENT, the queues of the buses hold the PRESENT units and then the maps, and
the counters, the groups and the phase are kept. -/
def Obligations.RestartWaitsAndTakesEffect : Prop :=
  (∀ (s : State) (tag : Byte), s.CanTake ⟨0x07, tag, []⟩ → s.link.phase = .run →
    exec (.restart tag []) s = .next { s with link := { s.link with
      input := s.link.input.drop 1, restarts := s.link.restarts ++ [tag] } }) ∧
  ∀ s : State, s.resetLow = false → s.BoundaryDone → s.link.restartDue ≠ 0 →
    ∃ t, exec .restartTakesEffect s = .next t ∧
      (∀ a r, t.room a = some r → r.anchor = a ∧ r.segments = s.groupOf s.installedSegments a ∧ r.session = .dormant ∧
        r.profile = (s.segment a).profile ∧ r.ceiling = s.ceilingOf r.segments ∧
        r.level = min r.profile.level r.ceiling ∧ r.ramp = .settled ∧ r.wake = Wake.empty ∧ r.timer = none ∧
        r.queue = [] ∧ r.live = [] ∧ r.rotation = none ∧ r.priority = false) ∧
      (∀ k ∈ s.installedSegments, t.anchorOf k = some (lowest (s.groupOf s.installedSegments k)) ∧
        (t.room (lowest (s.groupOf s.installedSegments k))).isSome = true) ∧
      t.floor.stampCount = 0 ∧ t.floor.openingCount = 0 ∧ t.floor.liveCount = 0 ∧ t.floor.groups = s.floor.groups ∧
      (twf Seat.initial s.floor.seats = true → ∀ n, (s.seat n).installed = true → t.seat n = { Seat.initial with
        installed := true, cls := (s.seat n).cls, segment := (s.seat n).segment, trim := (s.seat n).trim
        mic := if (s.unit (seatBus n) (seatAddress n)).presence = .present then .idle else .absent }) ∧
      (twf Booth.initial s.booth.booths = true →
        ∀ b, t.boothAt b = { s.boothAt b with listen := (s.boothAt b).source.restListen }) ∧
      (∀ c, s.consoleInUse c = true → t.console c = { owned := none, cough := (s.unit 4 c).held
                                                      state := if (s.unit 4 c).presence = .present then .ready else .absent
                                                      indication := if (s.unit 4 c).presence = .present then some .busy
                                                        else none }) ∧
      (twf Seat.initial s.floor.seats = true → twf Booth.initial s.booth.booths = true → ∀ i, i < 5 →
        t.bus i = { s.bus i with
          units := (t.bus i).units, exchange := none
          queue := ((s.addresses i).filter (fun a => decide ((s.unit i a).presence = .present))).map Item.unit ++
            if i < 4 then s.installedSegments.map Item.map else [] }) ∧
      (∀ i, i < 5 → twf UnitRecord.initial (s.bus i).units = true →
        ∀ a, t.unit i a = { s.unit i a with assigned := false, mapOwed := false, told := none }) ∧
      t.counts = s.counts ∧ t.dist.unserved = [] ∧ t.dist.current = t.dist.allocation ∧ t.link.phase = s.link.phase ∧
      t.link.restarts = s.link.restarts.drop s.link.restartDue ∧ t.link.input = s.link.input ∧
      t.hall.segments = s.hall.segments ∧ t.hall.partitions = s.hall.partitions ∧ t.hall.settling = s.hall.settling

/-- Only START, STOP, power-on and the release of the RESET pin change the phase (R198), and only SEGMENT_SET in CONFIG, power-on and
the release of the RESET pin change a segment record (R1, R2). -/
def Obligations.PhaseAndSegmentsChangeByTheirCommands : Prop :=
  (∀ (c : Instr) (s t : State), exec c s = .next t → t.link.phase ≠ s.link.phase →
    (∃ tag body, c = .start tag body ∧ t.link.phase = .run) ∨ (∃ tag body, c = .stop tag body ∧ t.link.phase = .config) ∨
      (∃ r1 r0, c = .powerOn r1 r0) ∨ ∃ r1 r0, c = .resetRelease r1 r0) ∧
  ∀ (c : Instr) (s t : State), exec c s = .next t → t.hall.segments ≠ s.hall.segments →
    ((∃ tag body, c = .segmentSet tag body) ∧ s.link.phase = .config) ∨ (∃ r1 r0, c = .powerOn r1 r0) ∨
      ∃ r1 r0, c = .resetRelease r1 r0

/-! ## The control link (chapter 11) -/

/-- In HUNTING a start byte opens a frame and any other character is discarded; and the characters of a frame, received one after
another without a boundary between them, do what the completion of the frame does (R193, R194, 11.6.1). -/
def Obligations.CharactersOfAFrameMakeTheFrame : Prop :=
  (∀ (s : State) (c : Byte) (high : Bool), s.resetLow = false → s.NothingDue → s.link.receiver = .hunting →
    exec (.linkCharacterReceived c high) s =
      .next (if c = 0xA5 ∧ high = true then { s with link := { s.link with receiver := .inFrame [] 0 } } else s)) ∧
  ∀ (f : Frame) (s : State) (cs : List Instr), f.body.length ≤ 240 → s.resetLow = false → s.NothingDue →
    s.link.receiver = .hunting →
    Host.Core.run Sys2Proof.core (frameBytes f).length
        (s.setPending ((frameBytes f).map (fun c => Instr.linkCharacterReceived c true) ++ cs)) =
      exec (.requestFrameQueued f.kind f.tag f.body) (s.setPending cs)

/-- A request frame that completes joins the tail of the input queue. With 8 frames queued it is answered INPUT_FULL at once with its
kind and tag and no contents, and with no free place on the reply list it is lost with LINK_ERROR of cause REPLY_OVERRUN (R194,
R196). LINK_FRAME_DISCARD, and LINK_FRAME_TIMEOUT at the 20th boundary (R193): the receiver hunts, and LINK_ERROR carries the cause
and the number of bytes received. UNKNOWN_KIND (R195 (1)): BAD_KIND, and nothing else happens. That a whole reception leaves any
receiver at HUNTING, and that a discard carries its operand as the count, is the model's choice (log 5). -/
def Obligations.FramesAreQueuedOrRefused : Prop :=
  (∀ (s : State) (kind tag : Byte) (body : List Byte), s.resetLow = false → s.NothingDue → body.length ≤ 240 →
    (s.link.input.length < 8 →
      exec (.requestFrameQueued kind tag body) s =
        .next { s with link := { s.link with receiver := .hunting, input := s.link.input ++ [⟨kind, tag, body⟩] } }) ∧
    (8 ≤ s.link.input.length →
      exec (.requestFrameQueued kind tag body) s = exec (.inputFull kind tag body) s ∧
      (s.link.placesTaken < 16 → exec (.inputFull kind tag body) s = .next { s with link :=
        (LinkUnit.answer { s.link with receiver := .hunting } ⟨kind, tag, ⟨.inputFull, false, .nothing⟩⟩) }) ∧
      (16 ≤ s.link.placesTaken → exec (.inputFull kind tag body) s = .next { s with link :=
        (LinkUnit.raise { s.link with receiver := .hunting }
          (.linkError .replyOverrun (Config.overrunBytes ⟨kind, tag, body⟩))) }))) ∧
  (∀ (s : State) (cause : DiscardCause) (n : Nat), s.resetLow = false → s.NothingDue →
    exec (.linkFrameDiscard cause n) s = .next { s with link := (LinkUnit.raise { s.link with receiver := .hunting }
      (.linkError (match cause with
        | .badCheck => .check
        | .badLength => .length
        | .badCharacter => .character) n)) }) ∧
  (∀ (s : State) (bytes : List Byte) (n : Nat), s.resetLow = false → s.BoundaryDone → s.link.receiver = .inFrame bytes n →
    (20 ≤ n → exec .linkFrameTimeout s = .next { s with link := (LinkUnit.raise { s.link with receiver := .hunting }
      (.linkError .timeout (bytes.length + 1))) }) ∧
    (n < 20 → exec .linkFrameTimeout s = .next s)) ∧
  ∀ (s : State) (kind tag : Byte) (body : List Byte), s.CanTake ⟨kind, tag, body⟩ → (kind = 0 ∨ 0x22 < kind.toNat) →
    exec (.unknownKind kind tag body) s = .next (s.served ⟨kind, tag, .refuse .badKind⟩)

/-- The checks that the requests share, the first failure giving the status (R195 (2) to (4)). A request that its phase does not
allow is refused with WRONG_PHASE (R198); a body of another length, or with a coded byte outside its coding in a field that the
request reads, with BAD_VALUE. Then what the request names: a segment (R12), a seat (R85, R97 to R99), a booth (R140, R146, R147)
or a partition (R5) is refused with BAD_VALUE outside its range and with NOT_INSTALLED where it is not installed. A BOOTH_SOURCE
with a relay code out of range or equal to the booth's language, and a query that starts or names outside its range (R86, R121,
R148, R163), are refused with BAD_VALUE, and a BOOTH_OFF of a booth without an owner with WRONG_STATE. No refusal stores anything. -/
def Obligations.SharedChecksRefuseRequests : Prop :=
  ∀ (s : State) (f : RequestForm) (tag : Byte) (body : List Byte) (refused : Status → Prop) (malformed : Prop)
    (first second pair : Nat), f ∈ requestForms → s.CanTake ⟨f.kind, tag, body⟩ →
    (∀ x, refused x ↔ exec (f.command tag body) s = .next (s.served ⟨f.kind, tag, .refuse x⟩)) →
    (malformed ↔ body.length ≠ f.size body ∨ (∃ p ∈ f.coded, p.2 ≤ byteAt body p.1) ∨
      f.kind = 0x09 ∧ ∃ p ∈ roomSetCoded, (word16At body 1).testBit (15 - p.1) = true ∧ p.2.2 ≤ byteAt body p.2.1) →
    first = byteAt body 0 → second = byteAt body 1 → pair = word16At body 0 →
    (f.allowed s = false → refused .wrongPhase) ∧
    (f.allowed s = true → malformed → refused .badValue) ∧
    (f.allowed s = true → ¬ malformed →
      (f.room = true → (first < 1 ∨ 12 < first → refused .badValue) ∧
        (1 ≤ first → first ≤ 12 → (s.segment first).installed = false → refused .notInstalled)) ∧
      (f.kind ∈ ([0x11, 0x12, 0x13, 0x14, 0x17] : List Byte) →
        (1023 < pair ∨ pair % 256 = 0 ∨ 240 < pair % 256 → refused .badValue) ∧
        (pair ≤ 1023 → 1 ≤ pair % 256 → pair % 256 ≤ 240 → (s.seat pair).installed = false → refused .notInstalled)) ∧
      (f.kind ∈ ([0x1A, 0x1B, 0x1C] : List Byte) → (first < 1 ∨ 24 < first → refused .badValue) ∧
        (1 ≤ first → first ≤ 24 → (s.boothAt first).installed = false →
          (f.kind = 0x1A → second = 1 → 1 ≤ byteAt body 2 ∧ byteAt body 2 ≤ 63) → refused .notInstalled)) ∧
      (f.kind = 0x1A → second = 1 → (byteAt body 2 < 1 ∨ 63 < byteAt body 2 → refused .badValue) ∧
        (1 ≤ first → first ≤ 24 → (s.boothAt first).installed = true → byteAt body 2 = (s.boothAt first).language →
          refused .badValue)) ∧
      (f.kind = 0x1C → 1 ≤ first → first ≤ 24 → (s.boothAt first).installed = true →
        (s.console (2 * first - 1)).owned = none → (s.console (2 * first)).owned = none → refused .wrongState) ∧
      (f.kind = 0x08 → (first < 1 ∨ 16 < first → refused .badValue) ∧
        (1 ≤ first → first ≤ 16 → (s.partition first).installed = false → refused .notInstalled)) ∧
      (f.kind = 0x18 → 1023 < pair ∨ pair % 256 = 0 ∨ 240 < pair % 256 → refused .badValue) ∧
      (f.kind = 0x19 → ∀ a r, s.RoomAt first a r → second < 1 ∨ 32 < second → refused .badValue) ∧
      (f.kind = 0x1D → first < 1 ∨ 24 < first → refused .badValue) ∧
      (f.kind = 0x1E → (first = 0 → 63 < second → refused .badValue) ∧
        (first = 1 → second < 1 ∨ 96 < second → refused .badValue)))

/-- FRAME_SENT (R197): the oldest reply goes next, or else the notice at the head, with the next sequence and the lost flag, which it
clears; or else the line is idle. -/
def Obligations.TheTransmitterSendsRepliesFirst : Prop :=
  ∀ (s : State) (f : TxFrame), s.resetLow = false → s.NothingDue → s.link.sending = some f →
    (∀ r rs, s.link.replies = r :: rs → exec .frameSent s =
      .next { s with link := { s.link with replies := rs, sending := some (.reply r) } }) ∧
    (∀ n ns, s.link.replies = [] → s.link.notices = n :: ns → exec .frameSent s =
      .next { s with link := { s.link with notices := ns, sending := some (.notice n s.link.sequence s.link.lost)
                                           sequence := s.link.sequence + 1, lost := false } }) ∧
    (s.link.replies = [] → s.link.notices = [] →
      exec .frameSent s = .next { s with link := { s.link with sending := none } })

/-! ## Invariants of every step -/

/-- Every step keeps the effective state of every partition as R8 derives it, and every hold count within 100 (R6). Every room's
effective level stays between -120 steps and its ceiling, at every step from a state where it does (R168). -/
def Obligations.StepKeepsWallsAndLevels : Prop :=
  (∀ s t : State, s.wallsOk → step s = .next t → t.wallsOk) ∧
    (∀ s t : State, s.settlingOk → step s = .next t → t.settlingOk) ∧
  ∀ s t : State, s.levelsOk → step s = .next t → t.levelsOk

/-- No two seats of a bus hold one upstream slot, and every slot held is one of the twelve, at every step (R79). -/
def Obligations.StepKeepsUpstreamSlotsApart : Prop :=
  ∀ s t : State, s.slotsOk → step s = .next t → t.slotsOk

/-- At every step the segment map and the room contexts agree (R11), and every queue keeps within 32 entries in ascending arrival
stamp, no stamp in two queues (R111 to R113). -/
def Obligations.StepKeepsRoomsAndQueues : Prop :=
  (∀ s t : State, s.RoomsOk → step s = .next t → t.RoomsOk) ∧ ∀ s t : State, s.QueuesOk → step s = .next t → t.QueuesOk

/-- At every step a channel has at most one owner, and a console owns one in CUEING and ON_AIR only (R132); and the allocation table
and the unserved list stay apart, with a slot free only while the list is empty (R153, R154). -/
def Obligations.StepKeepsOwnersAndChannels : Prop :=
  (∀ s t : State, s.OwnersOk → step s = .next t → t.OwnersOk) ∧ ∀ s t : State, s.ChannelsOk → step s = .next t → t.ChannelsOk

/-- The input queue, the reply list with the places held, and the notice queue keep within 8, 16 and 64, at every step (R194, R196,
R197). -/
def Obligations.StepKeepsTheLinkQueuesBounded : Prop :=
  ∀ s t : State, s.link.bounded → step s = .next t → t.link.bounded

/-- The invariants hold at power-on. -/
def Obligations.ResetMeetsTheInvariants : Prop := State.reset.Safe
end

