-- ==== Sys2Proof/Machine/Replies.lean ====
section
/-! DEFINITION. The bytes of replies and notices (R203 to R205, 11.6.3, 11.6.4) and the levels on TXD (R192). -/

namespace Sys2Proof.Machine

/-! ## Codes that chapter 11 gives -/

/-- The code of a status (R196): INCONSISTENT is 12 and INPUT_FULL is 13. -/
def Status.code : Status → Nat
  | .ok => 0
  | .badKind => 1
  | .badValue => 2
  | .notInstalled => 3
  | .wrongPhase => 4
  | .wrongState => 5
  | .atLimit => 6
  | .busFull => 7
  | .queueFull => 8
  | .queueEmpty => 9
  | .blocked => 10
  | .inconsistent => 12
  | .inputFull => 13

/-- The code of a mic state (11.6.3). -/
def Mic.code : Mic → Nat
  | .absent => 0
  | .idle => 1
  | .queued => 2
  | .opening => 3
  | .live => 4
  | .closing => 5
  | .holdOff => 6

/-- The code of a cause of MIC_STATE (11.6.4). -/
def MicCause.code : MicCause → Nat
  | .press => 0
  | .host => 1
  | .promoted => 2
  | .next => 3
  | .replaced => 4
  | .opened => 5
  | .closed => 6
  | .holdOffEnd => 7
  | .limit => 8
  | .priority => 9
  | .priorityEnd => 10
  | .sessionEnd => 11
  | .unitLost => 12
  | .unitFound => 13

/-- The code of a presence (11.6.3). -/
def Presence.code : Presence → Nat
  | .unknown => 0
  | .present => 1
  | .absent => 2

/-- The code of a notice (11 section 11.5). -/
def Notice.code : Notice → Nat
  | .ready .. => 0
  | .partitionMismatch .. => 1
  | .partitionAgreed .. => 2
  | .topologyChanged .. => 3
  | .sessionState .. => 4
  | .micState .. => 5
  | .requestRefused .. => 6
  | .requestDropped .. => 7
  | .speakingWarning .. => 8
  | .speakingLimit .. => 9
  | .unitPresence .. => 10
  | .boothState .. => 11
  | .boothDisplaced .. => 12
  | .relayFallback .. => 13
  | .relayRestored .. => 14
  | .channelService .. => 15
  | .levelSettled .. => 16
  | .counterOverflow .. => 17
  | .groupBlocked .. => 18
  | .linkError .. => 19

/-- A byte field that may be none: all ones (R206, 11.6.3). -/
def optByte : Option Nat → Byte
  | none => 0xFF
  | some n => byteOf n

/-- A four-byte field that may be none: all ones (11.6.3). -/
def opt32 : Option Nat → List Byte
  | none => bytes32 Config.allOnes32
  | some n => bytes32 n

/-- The 31 bytes of the seat record reply (11.6.3). -/
def SeatReport.bytes (r : SeatReport) : List Byte :=
  bytes16 r.seat ++
  [flagByte r.installed, (match r.cls with
    | .delegate => 0
    | .chair => 1), byteOf r.segment, stepByte r.trim, byteOf r.presence.code, (match r.reported with
    | none => 0
    | some c => classCode c), byteOf r.mic.code, byteOf (r.anchor.getD 0), optByte r.slot] ++
  opt32 r.openingNumber ++ opt32 r.stamp ++
  (match r.clock with
    | none => bytes16 65535
    | some n => bytes16 (min n 65534)) ++
  bytes16 (r.grant.getD 0) ++
  [flagByte r.warned, flagByte r.limitReported, flagByte r.muted, flagByte r.pendingPress, optByte r.holdOffLeft,
    optByte (r.indication.map Indication.code), byteOf r.rank, flagByte r.blocked]

/-- The 8 bytes of a MIC_STATE notice (11.6.4). -/
def micStateBytes (n : Nat) (anchor : Option Nat) (old new : Mic) (cause : MicCause) (muted : Bool) (slot : Option Nat) :
    List Byte :=
  bytes16 n ++ [byteOf (anchor.getD 0), byteOf old.code, byteOf new.code, byteOf cause.code, flagByte muted, optByte slot]

/-! ## Fields (R203) -/

/-- A yes or no (R203). -/
def Field.yes (b : Bool) : Field := .coded (flagByte b)

/-- A level, gain or trim in steps (R203). -/
def Field.steps (x : Int) : Field := .coded (stepByte x)

/-- A value of an enumeration by its code: its place in the list of its rule, which is the place of its constructor (R203), or
the code that chapter 11 gives it. -/
def Field.code (n : Nat) : Field := .coded (byteOf n)

/-- A number that may be none. -/
def Field.opt : Option Nat → Field
  | none => .absent
  | some n => .number n

/-- A level that may be none. -/
def Field.optCode : Option Nat → Field
  | none => .absent
  | some n => .code n

/-- The bytes of a field whose number has this size. -/
def Field.codedIn (size : Nat) : Field → List Byte
  | .coded b => [b]
  | .number n => numberBytes size n
  | .bytes bs => bs
  | .absent => Config.absentBytes size

/-- The bytes of fields, each with the size that its place gives. -/
def codeFields (size : Nat → Nat) (fields : List Field) : List (List Byte) :=
  fields.zipIdx.map (fun x => x.1.codedIn (size x.2))

/-- The reported class of a unit (11.6.3). -/
def reportedByte : Option UnitClass → Byte
  | none => 0
  | some c => classCode c

/-- A set of wake conditions, coded as in SESSION_ARM (R206; DEDUCED for replies, log 46). -/
def wakeByte (w : Wake) : Byte :=
  byteOf (w.chairPress.toNat + 2 * w.delegatePress.toNat + 4 * w.consolePress.toNat + 8 * w.timer.toNat)

/-- The byte of a fill level (R205): -128 is OFF. -/
def fillByte : Option Int → Byte
  | none => stepByte (-128)
  | some x => stepByte x

/-- The 24 bytes of a room profile (R205). -/
def Profile.bytes (p : Profile) : List Byte :=
  [byteOf p.floorMode.ctorIdx, byteOf p.openLimit, byteOf p.chairLimit, byteOf p.overflow.ctorIdx, flagByte p.mayClose,
    flagByte p.mayCancel, byteOf p.service.ctorIdx, byteOf p.action.ctorIdx] ++
  bytes16 p.speakingLimit ++
  [byteOf p.warningLead, byteOf p.limitAction.ctorIdx, stepByte p.level, fillByte p.fill, byteOf p.contention.ctorIdx,
    byteOf p.languages.length] ++
  (List.range 8).map (fun i => match p.languages[i]? with
    | some c => byteOf c
    | none => Config.unusedLanguage i)

/-! ## Contents of replies -/

/-- A channel key. -/
def Key.fields (k : Key) : List Field := [.number k.anchor, .number k.code]

/-- A channel key that may be none. -/
def keyFields : Option Key → List Field
  | none => [.absent]
  | some k => k.fields

/-- A channel's service (R150: SERVED, then UNSERVED), with its slot or its position, or none. -/
def Service.fields : Service → List Field
  | .none => [.absent]
  | .served k => [.code 0, .number k]
  | .unserved i => [.code 1, .number i]

/-- What a slot carries (R163): the floor of an anchor, the output of a key, or silence. -/
def Carry.fields : Carry → List Field
  | .silence => [.absent]
  | .floor a => [.number a]
  | .channel key => key.fields

/-- A source (R206). -/
def Source.fields : Source → List Field
  | .floor => [.code 0, .absent]
  | .relay code => [.code 1, .number code]

/-- A scope (R206). -/
def Scope.fields : Scope → List Field
  | .all => [.code 0, .absent]
  | .segment k => [.code 1, .number k]
  | .group g => [.code 2, .number g]
  | .bus i => [.code 3, .number i]

/-- A counter record (R181). -/
def Counter.fields (x : Counter) : List Field :=
  [.yes x.enabled, .code x.event.ctorIdx] ++ x.scope.fields ++
  [.code x.mode.ctorIdx, .number x.threshold, .yes x.invert, .code x.action.ctorIdx, .number x.value, .yes x.edge,
    .number x.tally]

/-- The contents of ROOM_QUERY (R26). -/
def RoomReport.fields (r : RoomReport) : List Field :=
  .number r.anchor :: r.segments.map Field.number ++
  [.code r.session.ctorIdx, .coded (wakeByte r.wake), .opt r.timer, .bytes r.profile.bytes, .steps r.ceiling,
    .steps r.target, .steps r.level, .number r.delegates, .number r.chairs, .number r.openMics, .number r.queued,
    .opt r.rotation, .yes r.priority] ++
  r.channels.flatMap (fun c => .number c.1 :: c.2.fields)

/-- An entry of QUEUE_QUERY (R121). -/
def QueueRow.fields (r : QueueRow) : List Field :=
  [.number r.seat, .number r.stamp, .number r.segment, .number r.rank, .yes r.eligible]

/-- The code of a cough state: R131 lists HELD and then RELEASED (R203). The codes of 11.6.5 are those of the held state in a unit's
STATUS, another field (DEDUCED, log 52). -/
def coughCode (held : Bool) : Nat := if held then 0 else 1

/-- A console of BOOTH_QUERY (R148), with its address before the fields that R148 lists (DESIGN CHOICE, log 48). -/
def ConsoleReport.fields (r : ConsoleReport) : List Field :=
  [.number r.address, .code r.presence.code, .coded (reportedByte r.reported), .code r.state.ctorIdx] ++ keyFields r.owned ++
  [.code (coughCode r.cough), .optCode (r.indication.map Indication.code)]

/-- The pivot channel of a relay booth and its owner (R148). -/
def pivotFields : Option (Key × Option Nat) → List Field
  | none => [.absent]
  | some (key, owner) => key.fields ++ [.opt owner]

/-- The service of a booth's channel and whether it is on fill (R148). An UNSERVED one is sent with its list position, as in R26:
DESIGN CHOICE (log 48), R148 names the slot only. -/
def channelFields : Option (Service × Bool) → List Field
  | none => [.absent]
  | some (x, fill) => x.fields ++ [.yes fill]

/-- The contents of BOOTH_QUERY (R148). The booth number, the console addresses (`ConsoleReport.fields`) and the list position of an
UNSERVED channel (`channelFields`) are sent beside what R148 lists: DESIGN CHOICE (log 48). -/
def BoothReport.fields (r : BoothReport) : List Field :=
  [.number r.booth, .yes r.installed, .number r.home, .number r.language] ++ r.source.fields ++
  [.number r.count, .steps r.trim, .opt r.anchor, .code r.listen.ctorIdx] ++ pivotFields r.pivot ++
  r.consoles.flatMap ConsoleReport.fields ++ channelFields r.channel

/-- A slot of SLOT_QUERY (R163 (2)), with its number before what R163 lists (DESIGN CHOICE, log 48). -/
def SlotRow.fields : SlotRow → List Field
  | .floorSlot k inAllocation inCurrent carries => [.number k, .yes inAllocation, .yes inCurrent] ++ carries.fields
  | .languageSlot k allocation current carries => .number k :: keyFields allocation ++ keyFields current ++ carries.fields

/-- The contents of SLOT_QUERY (R163). -/
def SlotReport.fields (r : SlotReport) : List Field :=
  .yes r.switchPending :: r.mapsWaiting.map Field.number ++ [.number r.listed, .number r.free] ++
  r.slots.flatMap SlotRow.fields ++ r.list.flatMap (fun x => .number x.1 :: x.2.fields)

/-- A group record (R122). -/
def Group.fields (x : Group) : List Field :=
  [.yes x.installed, .number x.base, .number x.mask, .number x.rank, .yes x.blocked]

/-- The failing item of START (R199): its kind and its number. For check (1), whose failing item is none, the kind is segment and the
number is absent: DESIGN CHOICE (log 51). -/
def StartItem.fields : StartItem → List Field
  | .segment => [.code 0, .absent]
  | .partition p => [.code 1, .number p]
  | .seat n => [.code 2, .number n]
  | .booth b => [.code 3, .number b]

/-- The fields of a reply's contents, in the order in which its rule names them. The number of the partition, group or counter that
a PARTITION_DECLARE, GROUP_SET, COUNTER_SET or COUNTER_READ names comes before what the rule lists: DESIGN CHOICE (log 48). -/
def Contents.fields : Contents → List Field
  | .nothing => []
  | .item i => i.fields
  | .partition p declared sensed effective =>
    [.number p, .code declared.ctorIdx, .code sensed.ctorIdx, .code effective.ctorIdx]
  | .room a => [.number a]
  | .levels a request ceiling target level => [.number a, .steps request, .steps ceiling, .steps target, .steps level]
  | .session a state => [.number a, .code state.ctorIdx]
  | .roomReport r => r.fields
  | .slotTaken slot => [.opt slot]
  | .mic m => [.code m.code]
  | .promoted a n closed => [.number a, .number n, .opt closed]
  | .cleared a count => [.number a, .number count]
  | .seatReport r => [.bytes r.bytes]
  | .queueReport a order rotation count next rows =>
    [.number a, .code order.ctorIdx, .opt rotation, .number count, .opt next] ++ rows.flatMap QueueRow.fields
  | .listen l => [.code l.ctorIdx]
  | .console c => [.number c]
  | .boothReport r => r.fields
  | .slotReport r => r.fields
  | .group g x members => .number g :: x.fields ++ [.number members]
  | .counter c x => .number c :: x.fields
  | .counters rows blocks => rows.flatMap (fun x => .number x.1 :: x.2.fields) ++ [.opt blocks]
  | .identity _ part revision phase rate restartWaiting =>
    [.bytes Config.familyBytes, .number part, .number revision, .code phase.ctorIdx, .number rate, .yes restartWaiting]

/-- The bytes of a reply's contents: none without contents, the layout of 11.6.3 for a seat record, and for the others their
coded fields in a layout that the spec leaves open (log 13). -/
def Contents.bytes (kind : Byte) : Contents → List Byte
  | .nothing => []
  | .seatReport r => r.bytes
  | c => Config.replyLayout kind (codeFields (Config.replySize kind) c.fields)

/-! ## Contents of notices -/

/-- The kind of TOPOLOGY_CHANGED with its anchors (R17). -/
def Topology.fields : Topology → List Field
  | .merge surviving absorbed => [.code 0, .number surviving, .number absorbed]
  | .split kept new => [.code 1, .number kept, .number new]
  | .none anchor => [.code 2, .opt anchor]

/-- The waker of a room (R36). -/
def wakerFields : Option Waker → List Field
  | none => [.absent]
  | some (.seat n) => [.number n]
  | some (.console c) => [.number c]

/-- The fields of a notice's contents, in the order in which its rule names them. In CHANNEL_SERVICE an UNSERVED old service is sent
with the list position that the channel leaves, for SLOT_GIVEN and REMOVED too: DESIGN CHOICE (log 49), R157 names a position for
NO_SLOT only. The cause of BOOTH_DISPLACED is coded 0 or 1: DESIGN CHOICE (log 53), R139 lists those two causes after four others. -/
def Notice.fields : Notice → List Field
  | .ready cause phase revision => [.code cause.ctorIdx, .code phase.ctorIdx, .number revision]
  | .partitionMismatch p declared sensed effective | .partitionAgreed p declared sensed effective =>
    [.number p, .code declared.ctorIdx, .code sensed.ctorIdx, .code effective.ctorIdx]
  | .topologyChanged p effective kind => [.number p, .code effective.ctorIdx] ++ kind.fields
  | .sessionState a old new cause waker absorbed =>
    [.number a, .code old.ctorIdx, .code new.ctorIdx, .code cause.ctorIdx] ++ wakerFields waker ++ [.opt absorbed]
  | .micState n anchor old new cause muted slot => [.bytes (micStateBytes n anchor old new cause muted slot)]
  | .requestRefused n anchor cause => [.number n, .opt anchor, .code cause.ctorIdx]
  | .requestDropped n anchor stamp cause => [.number n, .opt anchor, .opt stamp, .code cause.ctorIdx]
  | .speakingWarning n clock limit | .speakingLimit n clock limit => [.number n, .number clock, .number limit]
  | .unitPresence bus address old new cls =>
    [.number bus, .number address, .code old.code, .code new.code, .coded (reportedByte cls)]
  | .boothState b c anchor old new cause owned taker =>
    [.number b, .number c, .opt anchor, .code old.ctorIdx, .code new.ctorIdx, .code cause.ctorIdx] ++ keyFields owned ++
      [.opt taker]
  | .boothDisplaced b c old cause anchor channel =>
    [.number b, .number c, .code old.ctorIdx, .code ConsoleState.releasing.ctorIdx, .code cause.ctorIdx, .number anchor] ++
      channel.fields
  | .relayFallback b anchor code old new | .relayRestored b anchor code old new =>
    [.number b, .opt anchor, .number code, .code old.ctorIdx, .code new.ctorIdx]
  | .channelService key old new cause entries =>
    key.fields ++ old.fields ++ new.fields ++ [.code cause.ctorIdx, .opt entries]
  | .levelSettled a level request ceiling => [.number a, .steps level, .steps request, .steps ceiling]
  | .counterOverflow c event scope mode value action =>
    [.number c, .code event.ctorIdx] ++ scope.fields ++ [.code mode.ctorIdx, .number value, .code action.ctorIdx]
  | .groupBlocked g blocked cause members =>
    [.number g, .coded (Config.blockingByte blocked), .code cause.ctorIdx, .number members]
  | .linkError cause bytes => [.code cause.ctorIdx, .number bytes]

/-- The bytes of a notice's contents: the layout of 11.6.4 for MIC_STATE, and for the others their coded fields in a layout that
the spec leaves open (log 13). -/
def Notice.bytes : Notice → List Byte
  | .micState n anchor old new cause muted slot => micStateBytes n anchor old new cause muted slot
  | n => Config.noticeLayout n.code (codeFields (Config.noticeSize n.code) n.fields)

/-! ## Frames sent -/

/-- The frame that the transmitter sends (R193, R197, R204): kind 0x80 for a reply with the request's tag, kind 0x81 for a
notice with its sequence. -/
def TxFrame.frame : TxFrame → Frame
  | .reply r =>
    { kind := 0x80, tag := r.tag,
      body := [r.kind, byteOf r.answer.status.code, flagByte r.answer.clamped] ++ r.answer.contents.bytes r.kind }
  | .notice n sequence lost =>
    { kind := 0x81, tag := sequence, body := [byteOf n.code, flagByte lost] ++ n.bytes }

/-- The bytes on TXD of the frame being sent (R197, R203). -/
def State.txBytes (s : State) : List Byte :=
  match s.link.sending with
  | none => []
  | some f => frameBytes f.frame

/-- The levels on TXD while the frame being sent goes out, bit by bit (R192). -/
def State.txBits (s : State) : List Bool := lineBits s.txBytes

end Sys2Proof.Machine
end

