-- ==== Sys2Proof/Laws/Bytes.lean ====
section
/-! SUPPORT. What is written as bytes and as bits of the line reads back as it was. -/

namespace Sys2Proof.Machine

/-- A character's bits are ten. -/
@[simp] theorem characterBits_length (c : Byte) (h : Bool) : (characterBits c h).length = 10 := by simp [characterBits]

/-- A character's bits read back as the character, with the level of its stop bit (R192). -/
theorem characterOf_characterBits (c : Byte) (h : Bool) : characterOf (characterBits c h) = some (c, h) := by
  revert c h; decide +kernel

theorem byteOf_toNat {n : Nat} (h : n < 256) : (byteOf n).toNat = n := by simp [byteOf, Nat.mod_eq_of_lt h]

theorem stepByte_toInt {x : Int} (h1 : -128 ≤ x) (h2 : x ≤ 127) : (stepByte x).toInt = x := by
  simp only [stepByte, BitVec.toInt_ofInt, Int.bmod_def]; omega

theorem bytes16_word16 {n : Nat} (h : n < 65536) : word16 (byteOf (n / 256)) (byteOf n) = n := by
  simp only [word16, byteOf, BitVec.toNat_ofNat]; omega

theorem clampNat_of {lo hi n : Nat} (h1 : lo ≤ n) (h2 : n ≤ hi) : clampNat lo hi n = n := by
  simp [clampNat, Nat.not_lt.2 h1, Nat.not_lt.2 h2]

theorem clampInt_of {lo hi x : Int} (h1 : lo ≤ x) (h2 : x ≤ hi) : clampInt lo hi x = x := by
  simp [clampInt, Int.not_lt.2 h1, Int.not_lt.2 h2]

theorem codedAt_of {α : Type} {values : List α} {b : List Byte} {i : Nat} {v : α} (c : Byte) (h : b.getD i 0 = c)
    (hv : values[c.toNat]? = some v) : codedAt values b i = some v := by rw [codedAt, byteAt, h, hv]

/-- The fields of a profile lie in their ranges (R20). -/
structure Profile.inRange (p : Profile) : Prop where
  openLimit : 1 ≤ p.openLimit ∧ p.openLimit ≤ 8
  chairLimit : 1 ≤ p.chairLimit ∧ p.chairLimit ≤ 4
  speakingLimit : p.speakingLimit = 0 ∨ 10 ≤ p.speakingLimit ∧ p.speakingLimit ≤ 3600
  warningLead : p.warningLead ≤ 60
  level : -120 ≤ p.level ∧ p.level ≤ 0
  fill : ∀ x, p.fill = some x → -40 ≤ x ∧ x ≤ 0
  languages : languagesRight p.languages = true

/-- The eight bytes of a language set begin with its codes, whatever the unused bytes hold. -/
theorem languageBytes_take (l : List Nat) (h : languagesRight l = true) (g : Nat → Byte) :
    (((List.range 8).map (fun i => match l[i]? with
      | some c => byteOf c
      | none => g i)).take l.length).map BitVec.toNat = l := by
  simp only [languagesRight, Bool.and_eq_true, decide_eq_true_eq, List.all_eq_true] at h
  apply List.ext_getElem
  · simp; omega
  · intro i h1 h2
    have hc := h.1.2 l[i] (List.getElem_mem h2)
    simp [List.getElem?_eq_getElem h2, byteOf_toNat (show l[i] < 256 by omega)]

/-- The 24 bytes of a profile in its ranges read back as that profile (R205). -/
theorem profileFrom_bytes (p old : Profile) (h : p.inRange) : profileFrom allFields old p.bytes = some p := by
  have languages : languagesAt p.bytes = some p.languages := by
    have n : p.languages.length ≤ 8 := by
      have := h.languages
      simp only [languagesRight, Bool.and_eq_true, decide_eq_true_eq] at this; omega
    have e := languageBytes_take p.languages h.languages Config.unusedLanguage
    have b : byteAt p.bytes 15 = p.languages.length := byteOf_toNat (by omega)
    have d : p.bytes.drop 16 = (List.range 8).map (fun i => match p.languages[i]? with
      | some c => byteOf c
      | none => Config.unusedLanguage i) := rfl
    simp [languagesAt, b, d, e, h.languages, n]
  have floorMode : codedAt [FloorMode.openFloor, .request, .chair] p.bytes 0 = some p.floorMode :=
    codedAt_of (byteOf p.floorMode.ctorIdx) rfl (by cases p.floorMode <;> rfl)
  have overflow : codedAt [Overflow.queue, .refuse] p.bytes 3 = some p.overflow :=
    codedAt_of (byteOf p.overflow.ctorIdx) rfl (by cases p.overflow <;> rfl)
  have mayClose : yesNoAt p.bytes 4 = some p.mayClose :=
    codedAt_of (flagByte p.mayClose) rfl (by cases p.mayClose <;> rfl)
  have mayCancel : yesNoAt p.bytes 5 = some p.mayCancel :=
    codedAt_of (flagByte p.mayCancel) rfl (by cases p.mayCancel <;> rfl)
  have service : codedAt [ServiceOrder.arrival, .rotating] p.bytes 6 = some p.service :=
    codedAt_of (byteOf p.service.ctorIdx) rfl (by cases p.service <;> rfl)
  have action : codedAt [PriorityAction.muteAll, .closeAll, .closeAndClear] p.bytes 7 = some p.action :=
    codedAt_of (byteOf p.action.ctorIdx) rfl (by cases p.action <;> rfl)
  have limitAction : codedAt [LimitAction.close, .notify] p.bytes 11 = some p.limitAction :=
    codedAt_of (byteOf p.limitAction.ctorIdx) rfl (by cases p.limitAction <;> rfl)
  have contention : codedAt [Contention.interlock, .takeover] p.bytes 14 = some p.contention :=
    codedAt_of (byteOf p.contention.ctorIdx) rfl (by cases p.contention <;> rfl)
  obtain ⟨o1, o2⟩ := h.openLimit
  obtain ⟨c1, c2⟩ := h.chairLimit
  obtain ⟨l1, l2⟩ := h.level
  have w := h.warningLead
  have openLimit : clampNat 1 8 (byteAt p.bytes 1) = p.openLimit := by
    rw [show byteAt p.bytes 1 = p.openLimit from byteOf_toNat (by omega), clampNat_of o1 o2]
  have chairLimit : clampNat 1 4 (byteAt p.bytes 2) = p.chairLimit := by
    rw [show byteAt p.bytes 2 = p.chairLimit from byteOf_toNat (by omega), clampNat_of c1 c2]
  have speakingLimit : clampSpeaking (word16At p.bytes 8) = p.speakingLimit := by
    rw [show word16At p.bytes 8 = p.speakingLimit from bytes16_word16 (by rcases h.speakingLimit with h | h <;> omega)]
    rcases h.speakingLimit with e | ⟨s1, s2⟩
    · simp [clampSpeaking, e]
    · simp [clampSpeaking, clampNat_of s1 s2, show p.speakingLimit ≠ 0 by omega]
  have warningLead : clampNat 0 60 (byteAt p.bytes 10) = p.warningLead := by
    rw [show byteAt p.bytes 10 = p.warningLead from byteOf_toNat (by omega), clampNat_of (Nat.zero_le _) w]
  have level : clampInt (-120) 0 (stepsAt p.bytes 12) = p.level := by
    rw [show stepsAt p.bytes 12 = p.level from stepByte_toInt (by omega) (by omega), clampInt_of l1 l2]
  have fill : fillOf (stepsAt p.bytes 13) = p.fill := by
    show fillOf (fillByte p.fill).toInt = _
    cases e : p.fill with
    | none => rfl
    | some x =>
      obtain ⟨f1, f2⟩ := h.fill x e
      rw [fillByte, stepByte_toInt (by omega) (by omega), fillOf, if_neg (by omega), clampInt_of f1 f2]
  simp only [profileFrom, chosen, allFields, if_true, floorMode, overflow, mayClose, mayCancel, service, action, limitAction,
    contention, languages, openLimit, chairLimit, speakingLimit, warningLead, level, fill]

end Sys2Proof.Machine
end

