-- ==== Sys2Proof/Laws/Table.lean ====
section
/-! SUPPORT. What reading and writing a table of numbered records does, and that a write keeps its canonical form. -/

namespace Sys2Proof.Machine

variable {α : Type}

@[simp] theorem tget_nil (d : α) (k : Nat) : tget d [] k = d := rfl

theorem tget_tput (d : α) (t : Table α) (k m : Nat) (v : α) :
    tget d (tput t k v) m = if m = k then v else tget d t m := by
  induction t with
  | nil =>
    by_cases h : m = k
    · simp [tput, tget, h]
    · simp [tput, tget, h, Ne.symm h]
  | cons x r ih =>
    obtain ⟨j, w⟩ := x
    have hk : ∀ n, (j = n) = (n = j) := fun n => propext eq_comm
    simp only [tput]
    by_cases hm : m = k
    · subst hm
      by_cases h1 : m < j
      · simp [h1, tget]
      · by_cases h2 : m = j
        · simp [h2, tget]
        · simp [h1, h2, tget, ih, hk]
    · by_cases h1 : k < j
      · simp [h1, tget, hm, Ne.symm hm]
      · by_cases h2 : k = j
        · subst h2; simp [tget, hm, Ne.symm hm]
        · simp [h1, h2, tget, ih, hm]

theorem tget_tdel (d : α) (t : Table α) (k m : Nat) : tget d (tdel t k) m = if m = k then d else tget d t m := by
  induction t with
  | nil => simp [tdel]
  | cons x r ih =>
    obtain ⟨j, w⟩ := x
    simp only [tdel]
    by_cases hj : j = k
    · subst hj
      by_cases hm : m = j
      · subst hm; simp [ih]
      · simp [ih, hm, tget, Ne.symm hm]
    · by_cases hm : m = k
      · subst hm; simp [hj, tget, ih]
      · simp [hj, hm, tget, ih]

/-- A read after a write: the record written at its number, and every other number as before. -/
theorem tget_tset [DecidableEq α] (d : α) (t : Table α) (k m : Nat) (v : α) :
    tget d (tset d t k v) m = if m = k then v else tget d t m := by
  unfold tset
  split
  · rw [tget_tdel]; split <;> simp_all
  · exact tget_tput d t k m v

@[simp] theorem tget_tset_same [DecidableEq α] (d : α) (t : Table α) (k : Nat) (v : α) :
    tget d (tset d t k v) k = v := by simp [tget_tset]

theorem tget_tset_other [DecidableEq α] (d : α) (t : Table α) {k m : Nat} (v : α) (h : m ≠ k) :
    tget d (tset d t k v) m = tget d t m := by simp [tget_tset, h]

/-- A table mapped number by number, where the default maps to itself, reads as the mapped record. -/
theorem tget_map (d : α) (f : α → α) (hf : f d = d) (t : Table α) (k : Nat) :
    tget d (t.map (fun x => (x.1, f x.2))) k = f (tget d t k) := by
  induction t with
  | nil => simp [hf]
  | cons x r ih => simp only [List.map_cons, tget]; split <;> simp_all

theorem mem_tdel {t : Table α} {k : Nat} {x : Nat × α} : x ∈ tdel t k ↔ x ∈ t ∧ x.1 ≠ k := by
  induction t with
  | nil => simp [tdel]
  | cons y r ih =>
    obtain ⟨j, w⟩ := y
    simp only [tdel]
    split
    · subst_vars
      rw [ih]
      constructor
      · rintro ⟨h, n⟩; exact ⟨List.mem_cons_of_mem _ h, n⟩
      · rintro ⟨h, n⟩
        rcases List.mem_cons.1 h with rfl | h
        · exact absurd rfl n
        · exact ⟨h, n⟩
    · rename_i hj
      simp only [List.mem_cons, ih]
      constructor
      · rintro (rfl | ⟨h, n⟩)
        · exact ⟨.inl rfl, hj⟩
        · exact ⟨.inr h, n⟩
      · rintro ⟨rfl | h, n⟩
        · exact .inl rfl
        · exact .inr ⟨h, n⟩

theorem mem_tput {t : Table α} {k : Nat} {v : α} {x : Nat × α} (h : x ∈ tput t k v) : x = (k, v) ∨ x ∈ t := by
  induction t with
  | nil => simpa [tput] using h
  | cons y r ih =>
    obtain ⟨j, w⟩ := y
    simp only [tput] at h
    split at h
    · simpa using h
    · split at h
      · rcases List.mem_cons.1 h with h | h
        · exact .inl h
        · exact .inr (List.mem_cons_of_mem _ h)
      · rcases List.mem_cons.1 h with h | h
        · exact .inr (h ▸ List.mem_cons_self ..)
        · exact (ih h).imp id (List.mem_cons_of_mem _)

/-- A write keeps the canonical form: numbers rising, and no record equal to the default. -/
theorem twf_tset [DecidableEq α] (d : α) (t : Table α) (k : Nat) (v : α) (h : twf d t = true) :
    twf d (tset d t k v) = true := by
  unfold tset
  split
  · clear * - h
    induction t with
    | nil => simp [tdel, twf]
    | cons x r ih =>
      obtain ⟨j, w⟩ := x
      simp only [twf, Bool.and_eq_true, decide_eq_true_eq, List.all_eq_true] at h
      simp only [tdel]
      split
      · exact ih h.2
      · simp only [twf, Bool.and_eq_true, decide_eq_true_eq, List.all_eq_true]
        exact ⟨⟨h.1.1, fun y hy => h.1.2 y (mem_tdel.1 hy).1⟩, ih h.2⟩
  · rename_i hv
    induction t with
    | nil => simp [tput, twf, hv]
    | cons x r ih =>
      obtain ⟨j, w⟩ := x
      have h0 := h
      simp only [twf, Bool.and_eq_true, decide_eq_true_eq, List.all_eq_true] at h
      simp only [tput]
      split
      · rename_i hk
        simp only [twf, Bool.and_eq_true, decide_eq_true_eq, List.all_eq_true]
        refine ⟨⟨hv, fun y hy => ?_⟩, h⟩
        rcases List.mem_cons.1 hy with rfl | hy
        · exact hk
        · exact lt_trans hk (h.1.2 y hy)
      · split
        · subst_vars
          simp only [twf, Bool.and_eq_true, decide_eq_true_eq, List.all_eq_true]
          exact ⟨⟨hv, h.1.2⟩, h.2⟩
        · rename_i h1 h2
          simp only [twf, Bool.and_eq_true, decide_eq_true_eq, List.all_eq_true]
          refine ⟨⟨h.1.1, fun y hy => ?_⟩, ih h.2⟩
          rcases mem_tput hy with rfl | hy
          · simp only; omega
          · exact h.1.2 y hy

end Sys2Proof.Machine
end

