-- ==== Sys2Proof/Laws/State.lean ====
section
/-! SUPPORT. One lemma per field per update of a record: what each write of the state leaves as it was, and what a read of
the record written gives. -/

namespace Sys2Proof.Machine

variable (s : State)

@[simp] theorem State.setSegment_pending (k : Nat) (x : Segment) : (s.setSegment k x).pending = s.pending := rfl
@[simp] theorem State.setSegment_resetLow (k : Nat) (x : Segment) : (s.setSegment k x).resetLow = s.resetLow := rfl
@[simp] theorem State.setSegment_floor (k : Nat) (x : Segment) : (s.setSegment k x).floor = s.floor := rfl
@[simp] theorem State.setSegment_buses (k : Nat) (x : Segment) : (s.setSegment k x).buses = s.buses := rfl
@[simp] theorem State.setSegment_booth (k : Nat) (x : Segment) : (s.setSegment k x).booth = s.booth := rfl
@[simp] theorem State.setSegment_dist (k : Nat) (x : Segment) : (s.setSegment k x).dist = s.dist := rfl
@[simp] theorem State.setSegment_mix (k : Nat) (x : Segment) : (s.setSegment k x).mix = s.mix := rfl
@[simp] theorem State.setSegment_counts (k : Nat) (x : Segment) : (s.setSegment k x).counts = s.counts := rfl
@[simp] theorem State.setSegment_link (k : Nat) (x : Segment) : (s.setSegment k x).link = s.link := rfl
@[simp] theorem State.setSegment_hall_partitions (k : Nat) (x : Segment) : (s.setSegment k x).hall.partitions = s.hall.partitions := rfl
@[simp] theorem State.setSegment_hall_settling (k : Nat) (x : Segment) : (s.setSegment k x).hall.settling = s.hall.settling := rfl
@[simp] theorem State.setSegment_hall_rooms (k : Nat) (x : Segment) : (s.setSegment k x).hall.rooms = s.hall.rooms := rfl
@[simp] theorem State.setSegment_hall_segmentMap (k : Nat) (x : Segment) : (s.setSegment k x).hall.segmentMap = s.hall.segmentMap := rfl
theorem State.setSegment_segment (k : Nat) (x : Segment) (m : Nat) : (s.setSegment k x).segment m = if m = k then x else s.segment m :=
  tget_tset _ _ _ _ _
@[simp] theorem State.setSegment_segment_same (k : Nat) (x : Segment) : (s.setSegment k x).segment k = x :=
  tget_tset_same _ _ _ _
@[simp] theorem State.setSegment_partition (k : Nat) (x : Segment) (m : Nat) : (s.setSegment k x).partition m = s.partition m := rfl
@[simp] theorem State.setSegment_settling (k : Nat) (x : Segment) (m : Nat) : (s.setSegment k x).settling m = s.settling m := rfl
@[simp] theorem State.setSegment_room (k : Nat) (x : Segment) (m : Nat) : (s.setSegment k x).room m = s.room m := rfl
@[simp] theorem State.setSegment_anchorOf (k : Nat) (x : Segment) (m : Nat) : (s.setSegment k x).anchorOf m = s.anchorOf m := rfl
@[simp] theorem State.setSegment_seat (k : Nat) (x : Segment) (m : Nat) : (s.setSegment k x).seat m = s.seat m := rfl
@[simp] theorem State.setSegment_group (k : Nat) (x : Segment) (m : Nat) : (s.setSegment k x).group m = s.group m := rfl
@[simp] theorem State.setSegment_bus (k : Nat) (x : Segment) (m : Nat) : (s.setSegment k x).bus m = s.bus m := rfl
@[simp] theorem State.setSegment_boothAt (k : Nat) (x : Segment) (m : Nat) : (s.setSegment k x).boothAt m = s.boothAt m := rfl
@[simp] theorem State.setSegment_console (k : Nat) (x : Segment) (m : Nat) : (s.setSegment k x).console m = s.console m := rfl
@[simp] theorem State.setSegment_counter (k : Nat) (x : Segment) (m : Nat) : (s.setSegment k x).counter m = s.counter m := rfl

@[simp] theorem State.setPartition_pending (p : Nat) (x : Partition) : (s.setPartition p x).pending = s.pending := rfl
@[simp] theorem State.setPartition_resetLow (p : Nat) (x : Partition) : (s.setPartition p x).resetLow = s.resetLow := rfl
@[simp] theorem State.setPartition_floor (p : Nat) (x : Partition) : (s.setPartition p x).floor = s.floor := rfl
@[simp] theorem State.setPartition_buses (p : Nat) (x : Partition) : (s.setPartition p x).buses = s.buses := rfl
@[simp] theorem State.setPartition_booth (p : Nat) (x : Partition) : (s.setPartition p x).booth = s.booth := rfl
@[simp] theorem State.setPartition_dist (p : Nat) (x : Partition) : (s.setPartition p x).dist = s.dist := rfl
@[simp] theorem State.setPartition_mix (p : Nat) (x : Partition) : (s.setPartition p x).mix = s.mix := rfl
@[simp] theorem State.setPartition_counts (p : Nat) (x : Partition) : (s.setPartition p x).counts = s.counts := rfl
@[simp] theorem State.setPartition_link (p : Nat) (x : Partition) : (s.setPartition p x).link = s.link := rfl
@[simp] theorem State.setPartition_hall_segments (p : Nat) (x : Partition) : (s.setPartition p x).hall.segments = s.hall.segments := rfl
@[simp] theorem State.setPartition_hall_settling (p : Nat) (x : Partition) : (s.setPartition p x).hall.settling = s.hall.settling := rfl
@[simp] theorem State.setPartition_hall_rooms (p : Nat) (x : Partition) : (s.setPartition p x).hall.rooms = s.hall.rooms := rfl
@[simp] theorem State.setPartition_hall_segmentMap (p : Nat) (x : Partition) : (s.setPartition p x).hall.segmentMap = s.hall.segmentMap := rfl
@[simp] theorem State.setPartition_segment (p : Nat) (x : Partition) (m : Nat) : (s.setPartition p x).segment m = s.segment m := rfl
theorem State.setPartition_partition (p : Nat) (x : Partition) (m : Nat) : (s.setPartition p x).partition m = if m = p then x else s.partition m :=
  tget_tset _ _ _ _ _
@[simp] theorem State.setPartition_partition_same (p : Nat) (x : Partition) : (s.setPartition p x).partition p = x :=
  tget_tset_same _ _ _ _
@[simp] theorem State.setPartition_settling (p : Nat) (x : Partition) (m : Nat) : (s.setPartition p x).settling m = s.settling m := rfl
@[simp] theorem State.setPartition_room (p : Nat) (x : Partition) (m : Nat) : (s.setPartition p x).room m = s.room m := rfl
@[simp] theorem State.setPartition_anchorOf (p : Nat) (x : Partition) (m : Nat) : (s.setPartition p x).anchorOf m = s.anchorOf m := rfl
@[simp] theorem State.setPartition_seat (p : Nat) (x : Partition) (m : Nat) : (s.setPartition p x).seat m = s.seat m := rfl
@[simp] theorem State.setPartition_group (p : Nat) (x : Partition) (m : Nat) : (s.setPartition p x).group m = s.group m := rfl
@[simp] theorem State.setPartition_bus (p : Nat) (x : Partition) (m : Nat) : (s.setPartition p x).bus m = s.bus m := rfl
@[simp] theorem State.setPartition_boothAt (p : Nat) (x : Partition) (m : Nat) : (s.setPartition p x).boothAt m = s.boothAt m := rfl
@[simp] theorem State.setPartition_console (p : Nat) (x : Partition) (m : Nat) : (s.setPartition p x).console m = s.console m := rfl
@[simp] theorem State.setPartition_counter (p : Nat) (x : Partition) (m : Nat) : (s.setPartition p x).counter m = s.counter m := rfl

@[simp] theorem State.setSettling_pending (p : Nat) (x : Settling) : (s.setSettling p x).pending = s.pending := rfl
@[simp] theorem State.setSettling_resetLow (p : Nat) (x : Settling) : (s.setSettling p x).resetLow = s.resetLow := rfl
@[simp] theorem State.setSettling_floor (p : Nat) (x : Settling) : (s.setSettling p x).floor = s.floor := rfl
@[simp] theorem State.setSettling_buses (p : Nat) (x : Settling) : (s.setSettling p x).buses = s.buses := rfl
@[simp] theorem State.setSettling_booth (p : Nat) (x : Settling) : (s.setSettling p x).booth = s.booth := rfl
@[simp] theorem State.setSettling_dist (p : Nat) (x : Settling) : (s.setSettling p x).dist = s.dist := rfl
@[simp] theorem State.setSettling_mix (p : Nat) (x : Settling) : (s.setSettling p x).mix = s.mix := rfl
@[simp] theorem State.setSettling_counts (p : Nat) (x : Settling) : (s.setSettling p x).counts = s.counts := rfl
@[simp] theorem State.setSettling_link (p : Nat) (x : Settling) : (s.setSettling p x).link = s.link := rfl
@[simp] theorem State.setSettling_hall_segments (p : Nat) (x : Settling) : (s.setSettling p x).hall.segments = s.hall.segments := rfl
@[simp] theorem State.setSettling_hall_partitions (p : Nat) (x : Settling) : (s.setSettling p x).hall.partitions = s.hall.partitions := rfl
@[simp] theorem State.setSettling_hall_rooms (p : Nat) (x : Settling) : (s.setSettling p x).hall.rooms = s.hall.rooms := rfl
@[simp] theorem State.setSettling_hall_segmentMap (p : Nat) (x : Settling) : (s.setSettling p x).hall.segmentMap = s.hall.segmentMap := rfl
@[simp] theorem State.setSettling_segment (p : Nat) (x : Settling) (m : Nat) : (s.setSettling p x).segment m = s.segment m := rfl
@[simp] theorem State.setSettling_partition (p : Nat) (x : Settling) (m : Nat) : (s.setSettling p x).partition m = s.partition m := rfl
theorem State.setSettling_settling (p : Nat) (x : Settling) (m : Nat) : (s.setSettling p x).settling m = if m = p then x else s.settling m :=
  tget_tset _ _ _ _ _
@[simp] theorem State.setSettling_settling_same (p : Nat) (x : Settling) : (s.setSettling p x).settling p = x :=
  tget_tset_same _ _ _ _
@[simp] theorem State.setSettling_room (p : Nat) (x : Settling) (m : Nat) : (s.setSettling p x).room m = s.room m := rfl
@[simp] theorem State.setSettling_anchorOf (p : Nat) (x : Settling) (m : Nat) : (s.setSettling p x).anchorOf m = s.anchorOf m := rfl
@[simp] theorem State.setSettling_seat (p : Nat) (x : Settling) (m : Nat) : (s.setSettling p x).seat m = s.seat m := rfl
@[simp] theorem State.setSettling_group (p : Nat) (x : Settling) (m : Nat) : (s.setSettling p x).group m = s.group m := rfl
@[simp] theorem State.setSettling_bus (p : Nat) (x : Settling) (m : Nat) : (s.setSettling p x).bus m = s.bus m := rfl
@[simp] theorem State.setSettling_boothAt (p : Nat) (x : Settling) (m : Nat) : (s.setSettling p x).boothAt m = s.boothAt m := rfl
@[simp] theorem State.setSettling_console (p : Nat) (x : Settling) (m : Nat) : (s.setSettling p x).console m = s.console m := rfl
@[simp] theorem State.setSettling_counter (p : Nat) (x : Settling) (m : Nat) : (s.setSettling p x).counter m = s.counter m := rfl

@[simp] theorem State.setRoom_pending (a : Nat) (x : Option Room) : (s.setRoom a x).pending = s.pending := rfl
@[simp] theorem State.setRoom_resetLow (a : Nat) (x : Option Room) : (s.setRoom a x).resetLow = s.resetLow := rfl
@[simp] theorem State.setRoom_floor (a : Nat) (x : Option Room) : (s.setRoom a x).floor = s.floor := rfl
@[simp] theorem State.setRoom_buses (a : Nat) (x : Option Room) : (s.setRoom a x).buses = s.buses := rfl
@[simp] theorem State.setRoom_booth (a : Nat) (x : Option Room) : (s.setRoom a x).booth = s.booth := rfl
@[simp] theorem State.setRoom_dist (a : Nat) (x : Option Room) : (s.setRoom a x).dist = s.dist := rfl
@[simp] theorem State.setRoom_mix (a : Nat) (x : Option Room) : (s.setRoom a x).mix = s.mix := rfl
@[simp] theorem State.setRoom_counts (a : Nat) (x : Option Room) : (s.setRoom a x).counts = s.counts := rfl
@[simp] theorem State.setRoom_link (a : Nat) (x : Option Room) : (s.setRoom a x).link = s.link := rfl
@[simp] theorem State.setRoom_hall_segments (a : Nat) (x : Option Room) : (s.setRoom a x).hall.segments = s.hall.segments := rfl
@[simp] theorem State.setRoom_hall_partitions (a : Nat) (x : Option Room) : (s.setRoom a x).hall.partitions = s.hall.partitions := rfl
@[simp] theorem State.setRoom_hall_settling (a : Nat) (x : Option Room) : (s.setRoom a x).hall.settling = s.hall.settling := rfl
@[simp] theorem State.setRoom_hall_segmentMap (a : Nat) (x : Option Room) : (s.setRoom a x).hall.segmentMap = s.hall.segmentMap := rfl
@[simp] theorem State.setRoom_segment (a : Nat) (x : Option Room) (m : Nat) : (s.setRoom a x).segment m = s.segment m := rfl
@[simp] theorem State.setRoom_partition (a : Nat) (x : Option Room) (m : Nat) : (s.setRoom a x).partition m = s.partition m := rfl
@[simp] theorem State.setRoom_settling (a : Nat) (x : Option Room) (m : Nat) : (s.setRoom a x).settling m = s.settling m := rfl
theorem State.setRoom_room (a : Nat) (x : Option Room) (m : Nat) : (s.setRoom a x).room m = if m = a then x else s.room m :=
  tget_tset _ _ _ _ _
@[simp] theorem State.setRoom_room_same (a : Nat) (x : Option Room) : (s.setRoom a x).room a = x :=
  tget_tset_same _ _ _ _
@[simp] theorem State.setRoom_anchorOf (a : Nat) (x : Option Room) (m : Nat) : (s.setRoom a x).anchorOf m = s.anchorOf m := rfl
@[simp] theorem State.setRoom_seat (a : Nat) (x : Option Room) (m : Nat) : (s.setRoom a x).seat m = s.seat m := rfl
@[simp] theorem State.setRoom_group (a : Nat) (x : Option Room) (m : Nat) : (s.setRoom a x).group m = s.group m := rfl
@[simp] theorem State.setRoom_bus (a : Nat) (x : Option Room) (m : Nat) : (s.setRoom a x).bus m = s.bus m := rfl
@[simp] theorem State.setRoom_boothAt (a : Nat) (x : Option Room) (m : Nat) : (s.setRoom a x).boothAt m = s.boothAt m := rfl
@[simp] theorem State.setRoom_console (a : Nat) (x : Option Room) (m : Nat) : (s.setRoom a x).console m = s.console m := rfl
@[simp] theorem State.setRoom_counter (a : Nat) (x : Option Room) (m : Nat) : (s.setRoom a x).counter m = s.counter m := rfl

@[simp] theorem State.setAnchor_pending (k : Nat) (x : Option Nat) : (s.setAnchor k x).pending = s.pending := rfl
@[simp] theorem State.setAnchor_resetLow (k : Nat) (x : Option Nat) : (s.setAnchor k x).resetLow = s.resetLow := rfl
@[simp] theorem State.setAnchor_floor (k : Nat) (x : Option Nat) : (s.setAnchor k x).floor = s.floor := rfl
@[simp] theorem State.setAnchor_buses (k : Nat) (x : Option Nat) : (s.setAnchor k x).buses = s.buses := rfl
@[simp] theorem State.setAnchor_booth (k : Nat) (x : Option Nat) : (s.setAnchor k x).booth = s.booth := rfl
@[simp] theorem State.setAnchor_dist (k : Nat) (x : Option Nat) : (s.setAnchor k x).dist = s.dist := rfl
@[simp] theorem State.setAnchor_mix (k : Nat) (x : Option Nat) : (s.setAnchor k x).mix = s.mix := rfl
@[simp] theorem State.setAnchor_counts (k : Nat) (x : Option Nat) : (s.setAnchor k x).counts = s.counts := rfl
@[simp] theorem State.setAnchor_link (k : Nat) (x : Option Nat) : (s.setAnchor k x).link = s.link := rfl
@[simp] theorem State.setAnchor_hall_segments (k : Nat) (x : Option Nat) : (s.setAnchor k x).hall.segments = s.hall.segments := rfl
@[simp] theorem State.setAnchor_hall_partitions (k : Nat) (x : Option Nat) : (s.setAnchor k x).hall.partitions = s.hall.partitions := rfl
@[simp] theorem State.setAnchor_hall_settling (k : Nat) (x : Option Nat) : (s.setAnchor k x).hall.settling = s.hall.settling := rfl
@[simp] theorem State.setAnchor_hall_rooms (k : Nat) (x : Option Nat) : (s.setAnchor k x).hall.rooms = s.hall.rooms := rfl
@[simp] theorem State.setAnchor_segment (k : Nat) (x : Option Nat) (m : Nat) : (s.setAnchor k x).segment m = s.segment m := rfl
@[simp] theorem State.setAnchor_partition (k : Nat) (x : Option Nat) (m : Nat) : (s.setAnchor k x).partition m = s.partition m := rfl
@[simp] theorem State.setAnchor_settling (k : Nat) (x : Option Nat) (m : Nat) : (s.setAnchor k x).settling m = s.settling m := rfl
@[simp] theorem State.setAnchor_room (k : Nat) (x : Option Nat) (m : Nat) : (s.setAnchor k x).room m = s.room m := rfl
theorem State.setAnchor_anchorOf (k : Nat) (x : Option Nat) (m : Nat) : (s.setAnchor k x).anchorOf m = if m = k then x else s.anchorOf m :=
  tget_tset _ _ _ _ _
@[simp] theorem State.setAnchor_anchorOf_same (k : Nat) (x : Option Nat) : (s.setAnchor k x).anchorOf k = x :=
  tget_tset_same _ _ _ _
@[simp] theorem State.setAnchor_seat (k : Nat) (x : Option Nat) (m : Nat) : (s.setAnchor k x).seat m = s.seat m := rfl
@[simp] theorem State.setAnchor_group (k : Nat) (x : Option Nat) (m : Nat) : (s.setAnchor k x).group m = s.group m := rfl
@[simp] theorem State.setAnchor_bus (k : Nat) (x : Option Nat) (m : Nat) : (s.setAnchor k x).bus m = s.bus m := rfl
@[simp] theorem State.setAnchor_boothAt (k : Nat) (x : Option Nat) (m : Nat) : (s.setAnchor k x).boothAt m = s.boothAt m := rfl
@[simp] theorem State.setAnchor_console (k : Nat) (x : Option Nat) (m : Nat) : (s.setAnchor k x).console m = s.console m := rfl
@[simp] theorem State.setAnchor_counter (k : Nat) (x : Option Nat) (m : Nat) : (s.setAnchor k x).counter m = s.counter m := rfl

@[simp] theorem State.setSeat_pending (n : Nat) (x : Seat) : (s.setSeat n x).pending = s.pending := rfl
@[simp] theorem State.setSeat_resetLow (n : Nat) (x : Seat) : (s.setSeat n x).resetLow = s.resetLow := rfl
@[simp] theorem State.setSeat_hall (n : Nat) (x : Seat) : (s.setSeat n x).hall = s.hall := rfl
@[simp] theorem State.setSeat_buses (n : Nat) (x : Seat) : (s.setSeat n x).buses = s.buses := rfl
@[simp] theorem State.setSeat_booth (n : Nat) (x : Seat) : (s.setSeat n x).booth = s.booth := rfl
@[simp] theorem State.setSeat_dist (n : Nat) (x : Seat) : (s.setSeat n x).dist = s.dist := rfl
@[simp] theorem State.setSeat_mix (n : Nat) (x : Seat) : (s.setSeat n x).mix = s.mix := rfl
@[simp] theorem State.setSeat_counts (n : Nat) (x : Seat) : (s.setSeat n x).counts = s.counts := rfl
@[simp] theorem State.setSeat_link (n : Nat) (x : Seat) : (s.setSeat n x).link = s.link := rfl
@[simp] theorem State.setSeat_floor_groups (n : Nat) (x : Seat) : (s.setSeat n x).floor.groups = s.floor.groups := rfl
@[simp] theorem State.setSeat_floor_openingCount (n : Nat) (x : Seat) : (s.setSeat n x).floor.openingCount = s.floor.openingCount := rfl
@[simp] theorem State.setSeat_floor_liveCount (n : Nat) (x : Seat) : (s.setSeat n x).floor.liveCount = s.floor.liveCount := rfl
@[simp] theorem State.setSeat_floor_stampCount (n : Nat) (x : Seat) : (s.setSeat n x).floor.stampCount = s.floor.stampCount := rfl
@[simp] theorem State.setSeat_segment (n : Nat) (x : Seat) (m : Nat) : (s.setSeat n x).segment m = s.segment m := rfl
@[simp] theorem State.setSeat_partition (n : Nat) (x : Seat) (m : Nat) : (s.setSeat n x).partition m = s.partition m := rfl
@[simp] theorem State.setSeat_settling (n : Nat) (x : Seat) (m : Nat) : (s.setSeat n x).settling m = s.settling m := rfl
@[simp] theorem State.setSeat_room (n : Nat) (x : Seat) (m : Nat) : (s.setSeat n x).room m = s.room m := rfl
@[simp] theorem State.setSeat_anchorOf (n : Nat) (x : Seat) (m : Nat) : (s.setSeat n x).anchorOf m = s.anchorOf m := rfl
theorem State.setSeat_seat (n : Nat) (x : Seat) (m : Nat) : (s.setSeat n x).seat m = if m = n then x else s.seat m :=
  tget_tset _ _ _ _ _
@[simp] theorem State.setSeat_seat_same (n : Nat) (x : Seat) : (s.setSeat n x).seat n = x :=
  tget_tset_same _ _ _ _
@[simp] theorem State.setSeat_group (n : Nat) (x : Seat) (m : Nat) : (s.setSeat n x).group m = s.group m := rfl
@[simp] theorem State.setSeat_bus (n : Nat) (x : Seat) (m : Nat) : (s.setSeat n x).bus m = s.bus m := rfl
@[simp] theorem State.setSeat_boothAt (n : Nat) (x : Seat) (m : Nat) : (s.setSeat n x).boothAt m = s.boothAt m := rfl
@[simp] theorem State.setSeat_console (n : Nat) (x : Seat) (m : Nat) : (s.setSeat n x).console m = s.console m := rfl
@[simp] theorem State.setSeat_counter (n : Nat) (x : Seat) (m : Nat) : (s.setSeat n x).counter m = s.counter m := rfl

@[simp] theorem State.setGroup_pending (g : Nat) (x : Group) : (s.setGroup g x).pending = s.pending := rfl
@[simp] theorem State.setGroup_resetLow (g : Nat) (x : Group) : (s.setGroup g x).resetLow = s.resetLow := rfl
@[simp] theorem State.setGroup_hall (g : Nat) (x : Group) : (s.setGroup g x).hall = s.hall := rfl
@[simp] theorem State.setGroup_buses (g : Nat) (x : Group) : (s.setGroup g x).buses = s.buses := rfl
@[simp] theorem State.setGroup_booth (g : Nat) (x : Group) : (s.setGroup g x).booth = s.booth := rfl
@[simp] theorem State.setGroup_dist (g : Nat) (x : Group) : (s.setGroup g x).dist = s.dist := rfl
@[simp] theorem State.setGroup_mix (g : Nat) (x : Group) : (s.setGroup g x).mix = s.mix := rfl
@[simp] theorem State.setGroup_counts (g : Nat) (x : Group) : (s.setGroup g x).counts = s.counts := rfl
@[simp] theorem State.setGroup_link (g : Nat) (x : Group) : (s.setGroup g x).link = s.link := rfl
@[simp] theorem State.setGroup_floor_seats (g : Nat) (x : Group) : (s.setGroup g x).floor.seats = s.floor.seats := rfl
@[simp] theorem State.setGroup_floor_openingCount (g : Nat) (x : Group) : (s.setGroup g x).floor.openingCount = s.floor.openingCount := rfl
@[simp] theorem State.setGroup_floor_liveCount (g : Nat) (x : Group) : (s.setGroup g x).floor.liveCount = s.floor.liveCount := rfl
@[simp] theorem State.setGroup_floor_stampCount (g : Nat) (x : Group) : (s.setGroup g x).floor.stampCount = s.floor.stampCount := rfl
@[simp] theorem State.setGroup_segment (g : Nat) (x : Group) (m : Nat) : (s.setGroup g x).segment m = s.segment m := rfl
@[simp] theorem State.setGroup_partition (g : Nat) (x : Group) (m : Nat) : (s.setGroup g x).partition m = s.partition m := rfl
@[simp] theorem State.setGroup_settling (g : Nat) (x : Group) (m : Nat) : (s.setGroup g x).settling m = s.settling m := rfl
@[simp] theorem State.setGroup_room (g : Nat) (x : Group) (m : Nat) : (s.setGroup g x).room m = s.room m := rfl
@[simp] theorem State.setGroup_anchorOf (g : Nat) (x : Group) (m : Nat) : (s.setGroup g x).anchorOf m = s.anchorOf m := rfl
@[simp] theorem State.setGroup_seat (g : Nat) (x : Group) (m : Nat) : (s.setGroup g x).seat m = s.seat m := rfl
theorem State.setGroup_group (g : Nat) (x : Group) (m : Nat) : (s.setGroup g x).group m = if m = g then x else s.group m :=
  tget_tset _ _ _ _ _
@[simp] theorem State.setGroup_group_same (g : Nat) (x : Group) : (s.setGroup g x).group g = x :=
  tget_tset_same _ _ _ _
@[simp] theorem State.setGroup_bus (g : Nat) (x : Group) (m : Nat) : (s.setGroup g x).bus m = s.bus m := rfl
@[simp] theorem State.setGroup_boothAt (g : Nat) (x : Group) (m : Nat) : (s.setGroup g x).boothAt m = s.boothAt m := rfl
@[simp] theorem State.setGroup_console (g : Nat) (x : Group) (m : Nat) : (s.setGroup g x).console m = s.console m := rfl
@[simp] theorem State.setGroup_counter (g : Nat) (x : Group) (m : Nat) : (s.setGroup g x).counter m = s.counter m := rfl

@[simp] theorem State.setBus_pending (i : Nat) (x : Bus) : (s.setBus i x).pending = s.pending := rfl
@[simp] theorem State.setBus_resetLow (i : Nat) (x : Bus) : (s.setBus i x).resetLow = s.resetLow := rfl
@[simp] theorem State.setBus_hall (i : Nat) (x : Bus) : (s.setBus i x).hall = s.hall := rfl
@[simp] theorem State.setBus_floor (i : Nat) (x : Bus) : (s.setBus i x).floor = s.floor := rfl
@[simp] theorem State.setBus_booth (i : Nat) (x : Bus) : (s.setBus i x).booth = s.booth := rfl
@[simp] theorem State.setBus_dist (i : Nat) (x : Bus) : (s.setBus i x).dist = s.dist := rfl
@[simp] theorem State.setBus_mix (i : Nat) (x : Bus) : (s.setBus i x).mix = s.mix := rfl
@[simp] theorem State.setBus_counts (i : Nat) (x : Bus) : (s.setBus i x).counts = s.counts := rfl
@[simp] theorem State.setBus_link (i : Nat) (x : Bus) : (s.setBus i x).link = s.link := rfl
@[simp] theorem State.setBus_segment (i : Nat) (x : Bus) (m : Nat) : (s.setBus i x).segment m = s.segment m := rfl
@[simp] theorem State.setBus_partition (i : Nat) (x : Bus) (m : Nat) : (s.setBus i x).partition m = s.partition m := rfl
@[simp] theorem State.setBus_settling (i : Nat) (x : Bus) (m : Nat) : (s.setBus i x).settling m = s.settling m := rfl
@[simp] theorem State.setBus_room (i : Nat) (x : Bus) (m : Nat) : (s.setBus i x).room m = s.room m := rfl
@[simp] theorem State.setBus_anchorOf (i : Nat) (x : Bus) (m : Nat) : (s.setBus i x).anchorOf m = s.anchorOf m := rfl
@[simp] theorem State.setBus_seat (i : Nat) (x : Bus) (m : Nat) : (s.setBus i x).seat m = s.seat m := rfl
@[simp] theorem State.setBus_group (i : Nat) (x : Bus) (m : Nat) : (s.setBus i x).group m = s.group m := rfl
theorem State.setBus_bus (i : Nat) (x : Bus) (m : Nat) : (s.setBus i x).bus m = if m = i then x else s.bus m :=
  tget_tset _ _ _ _ _
@[simp] theorem State.setBus_bus_same (i : Nat) (x : Bus) : (s.setBus i x).bus i = x :=
  tget_tset_same _ _ _ _
@[simp] theorem State.setBus_boothAt (i : Nat) (x : Bus) (m : Nat) : (s.setBus i x).boothAt m = s.boothAt m := rfl
@[simp] theorem State.setBus_console (i : Nat) (x : Bus) (m : Nat) : (s.setBus i x).console m = s.console m := rfl
@[simp] theorem State.setBus_counter (i : Nat) (x : Bus) (m : Nat) : (s.setBus i x).counter m = s.counter m := rfl

@[simp] theorem State.setBooth_pending (b : Nat) (x : Booth) : (s.setBooth b x).pending = s.pending := rfl
@[simp] theorem State.setBooth_resetLow (b : Nat) (x : Booth) : (s.setBooth b x).resetLow = s.resetLow := rfl
@[simp] theorem State.setBooth_hall (b : Nat) (x : Booth) : (s.setBooth b x).hall = s.hall := rfl
@[simp] theorem State.setBooth_floor (b : Nat) (x : Booth) : (s.setBooth b x).floor = s.floor := rfl
@[simp] theorem State.setBooth_buses (b : Nat) (x : Booth) : (s.setBooth b x).buses = s.buses := rfl
@[simp] theorem State.setBooth_dist (b : Nat) (x : Booth) : (s.setBooth b x).dist = s.dist := rfl
@[simp] theorem State.setBooth_mix (b : Nat) (x : Booth) : (s.setBooth b x).mix = s.mix := rfl
@[simp] theorem State.setBooth_counts (b : Nat) (x : Booth) : (s.setBooth b x).counts = s.counts := rfl
@[simp] theorem State.setBooth_link (b : Nat) (x : Booth) : (s.setBooth b x).link = s.link := rfl
@[simp] theorem State.setBooth_booth_consoles (b : Nat) (x : Booth) : (s.setBooth b x).booth.consoles = s.booth.consoles := rfl
@[simp] theorem State.setBooth_segment (b : Nat) (x : Booth) (m : Nat) : (s.setBooth b x).segment m = s.segment m := rfl
@[simp] theorem State.setBooth_partition (b : Nat) (x : Booth) (m : Nat) : (s.setBooth b x).partition m = s.partition m := rfl
@[simp] theorem State.setBooth_settling (b : Nat) (x : Booth) (m : Nat) : (s.setBooth b x).settling m = s.settling m := rfl
@[simp] theorem State.setBooth_room (b : Nat) (x : Booth) (m : Nat) : (s.setBooth b x).room m = s.room m := rfl
@[simp] theorem State.setBooth_anchorOf (b : Nat) (x : Booth) (m : Nat) : (s.setBooth b x).anchorOf m = s.anchorOf m := rfl
@[simp] theorem State.setBooth_seat (b : Nat) (x : Booth) (m : Nat) : (s.setBooth b x).seat m = s.seat m := rfl
@[simp] theorem State.setBooth_group (b : Nat) (x : Booth) (m : Nat) : (s.setBooth b x).group m = s.group m := rfl
@[simp] theorem State.setBooth_bus (b : Nat) (x : Booth) (m : Nat) : (s.setBooth b x).bus m = s.bus m := rfl
theorem State.setBooth_boothAt (b : Nat) (x : Booth) (m : Nat) : (s.setBooth b x).boothAt m = if m = b then x else s.boothAt m :=
  tget_tset _ _ _ _ _
@[simp] theorem State.setBooth_boothAt_same (b : Nat) (x : Booth) : (s.setBooth b x).boothAt b = x :=
  tget_tset_same _ _ _ _
@[simp] theorem State.setBooth_console (b : Nat) (x : Booth) (m : Nat) : (s.setBooth b x).console m = s.console m := rfl
@[simp] theorem State.setBooth_counter (b : Nat) (x : Booth) (m : Nat) : (s.setBooth b x).counter m = s.counter m := rfl

@[simp] theorem State.setConsole_pending (c : Nat) (x : Console) : (s.setConsole c x).pending = s.pending := rfl
@[simp] theorem State.setConsole_resetLow (c : Nat) (x : Console) : (s.setConsole c x).resetLow = s.resetLow := rfl
@[simp] theorem State.setConsole_hall (c : Nat) (x : Console) : (s.setConsole c x).hall = s.hall := rfl
@[simp] theorem State.setConsole_floor (c : Nat) (x : Console) : (s.setConsole c x).floor = s.floor := rfl
@[simp] theorem State.setConsole_buses (c : Nat) (x : Console) : (s.setConsole c x).buses = s.buses := rfl
@[simp] theorem State.setConsole_dist (c : Nat) (x : Console) : (s.setConsole c x).dist = s.dist := rfl
@[simp] theorem State.setConsole_mix (c : Nat) (x : Console) : (s.setConsole c x).mix = s.mix := rfl
@[simp] theorem State.setConsole_counts (c : Nat) (x : Console) : (s.setConsole c x).counts = s.counts := rfl
@[simp] theorem State.setConsole_link (c : Nat) (x : Console) : (s.setConsole c x).link = s.link := rfl
@[simp] theorem State.setConsole_booth_booths (c : Nat) (x : Console) : (s.setConsole c x).booth.booths = s.booth.booths := rfl
@[simp] theorem State.setConsole_segment (c : Nat) (x : Console) (m : Nat) : (s.setConsole c x).segment m = s.segment m := rfl
@[simp] theorem State.setConsole_partition (c : Nat) (x : Console) (m : Nat) : (s.setConsole c x).partition m = s.partition m := rfl
@[simp] theorem State.setConsole_settling (c : Nat) (x : Console) (m : Nat) : (s.setConsole c x).settling m = s.settling m := rfl
@[simp] theorem State.setConsole_room (c : Nat) (x : Console) (m : Nat) : (s.setConsole c x).room m = s.room m := rfl
@[simp] theorem State.setConsole_anchorOf (c : Nat) (x : Console) (m : Nat) : (s.setConsole c x).anchorOf m = s.anchorOf m := rfl
@[simp] theorem State.setConsole_seat (c : Nat) (x : Console) (m : Nat) : (s.setConsole c x).seat m = s.seat m := rfl
@[simp] theorem State.setConsole_group (c : Nat) (x : Console) (m : Nat) : (s.setConsole c x).group m = s.group m := rfl
@[simp] theorem State.setConsole_bus (c : Nat) (x : Console) (m : Nat) : (s.setConsole c x).bus m = s.bus m := rfl
@[simp] theorem State.setConsole_boothAt (c : Nat) (x : Console) (m : Nat) : (s.setConsole c x).boothAt m = s.boothAt m := rfl
theorem State.setConsole_console (c : Nat) (x : Console) (m : Nat) : (s.setConsole c x).console m = if m = c then x else s.console m :=
  tget_tset _ _ _ _ _
@[simp] theorem State.setConsole_console_same (c : Nat) (x : Console) : (s.setConsole c x).console c = x :=
  tget_tset_same _ _ _ _
@[simp] theorem State.setConsole_counter (c : Nat) (x : Console) (m : Nat) : (s.setConsole c x).counter m = s.counter m := rfl

@[simp] theorem State.setCounter_pending (c : Nat) (x : Counter) : (s.setCounter c x).pending = s.pending := rfl
@[simp] theorem State.setCounter_resetLow (c : Nat) (x : Counter) : (s.setCounter c x).resetLow = s.resetLow := rfl
@[simp] theorem State.setCounter_hall (c : Nat) (x : Counter) : (s.setCounter c x).hall = s.hall := rfl
@[simp] theorem State.setCounter_floor (c : Nat) (x : Counter) : (s.setCounter c x).floor = s.floor := rfl
@[simp] theorem State.setCounter_buses (c : Nat) (x : Counter) : (s.setCounter c x).buses = s.buses := rfl
@[simp] theorem State.setCounter_booth (c : Nat) (x : Counter) : (s.setCounter c x).booth = s.booth := rfl
@[simp] theorem State.setCounter_dist (c : Nat) (x : Counter) : (s.setCounter c x).dist = s.dist := rfl
@[simp] theorem State.setCounter_mix (c : Nat) (x : Counter) : (s.setCounter c x).mix = s.mix := rfl
@[simp] theorem State.setCounter_link (c : Nat) (x : Counter) : (s.setCounter c x).link = s.link := rfl
@[simp] theorem State.setCounter_counts_blocks (c : Nat) (x : Counter) : (s.setCounter c x).counts.blocks = s.counts.blocks := rfl
@[simp] theorem State.setCounter_counts_secondDue (c : Nat) (x : Counter) : (s.setCounter c x).counts.secondDue = s.counts.secondDue := rfl
@[simp] theorem State.setCounter_counts_raised (c : Nat) (x : Counter) : (s.setCounter c x).counts.raised = s.counts.raised := rfl
@[simp] theorem State.setCounter_counts_deferring (c : Nat) (x : Counter) : (s.setCounter c x).counts.deferring = s.counts.deferring := rfl
@[simp] theorem State.setCounter_segment (c : Nat) (x : Counter) (m : Nat) : (s.setCounter c x).segment m = s.segment m := rfl
@[simp] theorem State.setCounter_partition (c : Nat) (x : Counter) (m : Nat) : (s.setCounter c x).partition m = s.partition m := rfl
@[simp] theorem State.setCounter_settling (c : Nat) (x : Counter) (m : Nat) : (s.setCounter c x).settling m = s.settling m := rfl
@[simp] theorem State.setCounter_room (c : Nat) (x : Counter) (m : Nat) : (s.setCounter c x).room m = s.room m := rfl
@[simp] theorem State.setCounter_anchorOf (c : Nat) (x : Counter) (m : Nat) : (s.setCounter c x).anchorOf m = s.anchorOf m := rfl
@[simp] theorem State.setCounter_seat (c : Nat) (x : Counter) (m : Nat) : (s.setCounter c x).seat m = s.seat m := rfl
@[simp] theorem State.setCounter_group (c : Nat) (x : Counter) (m : Nat) : (s.setCounter c x).group m = s.group m := rfl
@[simp] theorem State.setCounter_bus (c : Nat) (x : Counter) (m : Nat) : (s.setCounter c x).bus m = s.bus m := rfl
@[simp] theorem State.setCounter_boothAt (c : Nat) (x : Counter) (m : Nat) : (s.setCounter c x).boothAt m = s.boothAt m := rfl
@[simp] theorem State.setCounter_console (c : Nat) (x : Counter) (m : Nat) : (s.setCounter c x).console m = s.console m := rfl
theorem State.setCounter_counter (c : Nat) (x : Counter) (m : Nat) : (s.setCounter c x).counter m = if m = c then x else s.counter m :=
  tget_tset _ _ _ _ _
@[simp] theorem State.setCounter_counter_same (c : Nat) (x : Counter) : (s.setCounter c x).counter c = x :=
  tget_tset_same _ _ _ _

@[simp] theorem State.setPlan_pending (x : Plan) : (s.setPlan x).pending = s.pending := rfl
@[simp] theorem State.setPlan_resetLow (x : Plan) : (s.setPlan x).resetLow = s.resetLow := rfl
@[simp] theorem State.setPlan_hall (x : Plan) : (s.setPlan x).hall = s.hall := rfl
@[simp] theorem State.setPlan_floor (x : Plan) : (s.setPlan x).floor = s.floor := rfl
@[simp] theorem State.setPlan_buses (x : Plan) : (s.setPlan x).buses = s.buses := rfl
@[simp] theorem State.setPlan_booth (x : Plan) : (s.setPlan x).booth = s.booth := rfl
@[simp] theorem State.setPlan_dist (x : Plan) : (s.setPlan x).dist = s.dist := rfl
@[simp] theorem State.setPlan_counts (x : Plan) : (s.setPlan x).counts = s.counts := rfl
@[simp] theorem State.setPlan_link (x : Plan) : (s.setPlan x).link = s.link := rfl
@[simp] theorem State.setPlan_mix_heard (x : Plan) : (s.setPlan x).mix.heard = s.mix.heard := rfl
@[simp] theorem State.setPlan_segment (x : Plan) (m : Nat) : (s.setPlan x).segment m = s.segment m := rfl
@[simp] theorem State.setPlan_partition (x : Plan) (m : Nat) : (s.setPlan x).partition m = s.partition m := rfl
@[simp] theorem State.setPlan_settling (x : Plan) (m : Nat) : (s.setPlan x).settling m = s.settling m := rfl
@[simp] theorem State.setPlan_room (x : Plan) (m : Nat) : (s.setPlan x).room m = s.room m := rfl
@[simp] theorem State.setPlan_anchorOf (x : Plan) (m : Nat) : (s.setPlan x).anchorOf m = s.anchorOf m := rfl
@[simp] theorem State.setPlan_seat (x : Plan) (m : Nat) : (s.setPlan x).seat m = s.seat m := rfl
@[simp] theorem State.setPlan_group (x : Plan) (m : Nat) : (s.setPlan x).group m = s.group m := rfl
@[simp] theorem State.setPlan_bus (x : Plan) (m : Nat) : (s.setPlan x).bus m = s.bus m := rfl
@[simp] theorem State.setPlan_boothAt (x : Plan) (m : Nat) : (s.setPlan x).boothAt m = s.boothAt m := rfl
@[simp] theorem State.setPlan_console (x : Plan) (m : Nat) : (s.setPlan x).console m = s.console m := rfl
@[simp] theorem State.setPlan_counter (x : Plan) (m : Nat) : (s.setPlan x).counter m = s.counter m := rfl

@[simp] theorem State.setReceiver_pending (x : Receiver) : (s.setReceiver x).pending = s.pending := rfl
@[simp] theorem State.setReceiver_resetLow (x : Receiver) : (s.setReceiver x).resetLow = s.resetLow := rfl
@[simp] theorem State.setReceiver_hall (x : Receiver) : (s.setReceiver x).hall = s.hall := rfl
@[simp] theorem State.setReceiver_floor (x : Receiver) : (s.setReceiver x).floor = s.floor := rfl
@[simp] theorem State.setReceiver_buses (x : Receiver) : (s.setReceiver x).buses = s.buses := rfl
@[simp] theorem State.setReceiver_booth (x : Receiver) : (s.setReceiver x).booth = s.booth := rfl
@[simp] theorem State.setReceiver_dist (x : Receiver) : (s.setReceiver x).dist = s.dist := rfl
@[simp] theorem State.setReceiver_mix (x : Receiver) : (s.setReceiver x).mix = s.mix := rfl
@[simp] theorem State.setReceiver_counts (x : Receiver) : (s.setReceiver x).counts = s.counts := rfl
@[simp] theorem State.setReceiver_link_phase (x : Receiver) : (s.setReceiver x).link.phase = s.link.phase := rfl
@[simp] theorem State.setReceiver_link_rate1 (x : Receiver) : (s.setReceiver x).link.rate1 = s.link.rate1 := rfl
@[simp] theorem State.setReceiver_link_rate0 (x : Receiver) : (s.setReceiver x).link.rate0 = s.link.rate0 := rfl
@[simp] theorem State.setReceiver_link_input (x : Receiver) : (s.setReceiver x).link.input = s.link.input := rfl
@[simp] theorem State.setReceiver_link_replies (x : Receiver) : (s.setReceiver x).link.replies = s.link.replies := rfl
@[simp] theorem State.setReceiver_link_notices (x : Receiver) : (s.setReceiver x).link.notices = s.link.notices := rfl
@[simp] theorem State.setReceiver_link_lost (x : Receiver) : (s.setReceiver x).link.lost = s.link.lost := rfl
@[simp] theorem State.setReceiver_link_sequence (x : Receiver) : (s.setReceiver x).link.sequence = s.link.sequence := rfl
@[simp] theorem State.setReceiver_link_sending (x : Receiver) : (s.setReceiver x).link.sending = s.link.sending := rfl
@[simp] theorem State.setReceiver_link_stopping (x : Receiver) : (s.setReceiver x).link.stopping = s.link.stopping := rfl
@[simp] theorem State.setReceiver_link_restarts (x : Receiver) : (s.setReceiver x).link.restarts = s.link.restarts := rfl
@[simp] theorem State.setReceiver_link_restartDue (x : Receiver) : (s.setReceiver x).link.restartDue = s.link.restartDue := rfl
@[simp] theorem State.setReceiver_segment (x : Receiver) (m : Nat) : (s.setReceiver x).segment m = s.segment m := rfl
@[simp] theorem State.setReceiver_partition (x : Receiver) (m : Nat) : (s.setReceiver x).partition m = s.partition m := rfl
@[simp] theorem State.setReceiver_settling (x : Receiver) (m : Nat) : (s.setReceiver x).settling m = s.settling m := rfl
@[simp] theorem State.setReceiver_room (x : Receiver) (m : Nat) : (s.setReceiver x).room m = s.room m := rfl
@[simp] theorem State.setReceiver_anchorOf (x : Receiver) (m : Nat) : (s.setReceiver x).anchorOf m = s.anchorOf m := rfl
@[simp] theorem State.setReceiver_seat (x : Receiver) (m : Nat) : (s.setReceiver x).seat m = s.seat m := rfl
@[simp] theorem State.setReceiver_group (x : Receiver) (m : Nat) : (s.setReceiver x).group m = s.group m := rfl
@[simp] theorem State.setReceiver_bus (x : Receiver) (m : Nat) : (s.setReceiver x).bus m = s.bus m := rfl
@[simp] theorem State.setReceiver_boothAt (x : Receiver) (m : Nat) : (s.setReceiver x).boothAt m = s.boothAt m := rfl
@[simp] theorem State.setReceiver_console (x : Receiver) (m : Nat) : (s.setReceiver x).console m = s.console m := rfl
@[simp] theorem State.setReceiver_counter (x : Receiver) (m : Nat) : (s.setReceiver x).counter m = s.counter m := rfl

@[simp] theorem State.setUnserved_pending (x : List Key) : (s.setUnserved x).pending = s.pending := rfl
@[simp] theorem State.setUnserved_resetLow (x : List Key) : (s.setUnserved x).resetLow = s.resetLow := rfl
@[simp] theorem State.setUnserved_hall (x : List Key) : (s.setUnserved x).hall = s.hall := rfl
@[simp] theorem State.setUnserved_floor (x : List Key) : (s.setUnserved x).floor = s.floor := rfl
@[simp] theorem State.setUnserved_buses (x : List Key) : (s.setUnserved x).buses = s.buses := rfl
@[simp] theorem State.setUnserved_booth (x : List Key) : (s.setUnserved x).booth = s.booth := rfl
@[simp] theorem State.setUnserved_mix (x : List Key) : (s.setUnserved x).mix = s.mix := rfl
@[simp] theorem State.setUnserved_counts (x : List Key) : (s.setUnserved x).counts = s.counts := rfl
@[simp] theorem State.setUnserved_link (x : List Key) : (s.setUnserved x).link = s.link := rfl
@[simp] theorem State.setUnserved_dist_allocation (x : List Key) : (s.setUnserved x).dist.allocation = s.dist.allocation := rfl
@[simp] theorem State.setUnserved_dist_current (x : List Key) : (s.setUnserved x).dist.current = s.dist.current := rfl
@[simp] theorem State.setUnserved_dist_switchDue (x : List Key) : (s.setUnserved x).dist.switchDue = s.dist.switchDue := rfl
@[simp] theorem State.setUnserved_segment (x : List Key) (m : Nat) : (s.setUnserved x).segment m = s.segment m := rfl
@[simp] theorem State.setUnserved_partition (x : List Key) (m : Nat) : (s.setUnserved x).partition m = s.partition m := rfl
@[simp] theorem State.setUnserved_settling (x : List Key) (m : Nat) : (s.setUnserved x).settling m = s.settling m := rfl
@[simp] theorem State.setUnserved_room (x : List Key) (m : Nat) : (s.setUnserved x).room m = s.room m := rfl
@[simp] theorem State.setUnserved_anchorOf (x : List Key) (m : Nat) : (s.setUnserved x).anchorOf m = s.anchorOf m := rfl
@[simp] theorem State.setUnserved_seat (x : List Key) (m : Nat) : (s.setUnserved x).seat m = s.seat m := rfl
@[simp] theorem State.setUnserved_group (x : List Key) (m : Nat) : (s.setUnserved x).group m = s.group m := rfl
@[simp] theorem State.setUnserved_bus (x : List Key) (m : Nat) : (s.setUnserved x).bus m = s.bus m := rfl
@[simp] theorem State.setUnserved_boothAt (x : List Key) (m : Nat) : (s.setUnserved x).boothAt m = s.boothAt m := rfl
@[simp] theorem State.setUnserved_console (x : List Key) (m : Nat) : (s.setUnserved x).console m = s.console m := rfl
@[simp] theorem State.setUnserved_counter (x : List Key) (m : Nat) : (s.setUnserved x).counter m = s.counter m := rfl

@[simp] theorem State.setSlot_pending (k : Nat) (x : Option Key) : (s.setSlot k x).pending = s.pending := rfl
@[simp] theorem State.setSlot_resetLow (k : Nat) (x : Option Key) : (s.setSlot k x).resetLow = s.resetLow := rfl
@[simp] theorem State.setSlot_hall (k : Nat) (x : Option Key) : (s.setSlot k x).hall = s.hall := rfl
@[simp] theorem State.setSlot_floor (k : Nat) (x : Option Key) : (s.setSlot k x).floor = s.floor := rfl
@[simp] theorem State.setSlot_buses (k : Nat) (x : Option Key) : (s.setSlot k x).buses = s.buses := rfl
@[simp] theorem State.setSlot_booth (k : Nat) (x : Option Key) : (s.setSlot k x).booth = s.booth := rfl
@[simp] theorem State.setSlot_mix (k : Nat) (x : Option Key) : (s.setSlot k x).mix = s.mix := rfl
@[simp] theorem State.setSlot_counts (k : Nat) (x : Option Key) : (s.setSlot k x).counts = s.counts := rfl
@[simp] theorem State.setSlot_link (k : Nat) (x : Option Key) : (s.setSlot k x).link = s.link := rfl
@[simp] theorem State.setSlot_dist_current (k : Nat) (x : Option Key) : (s.setSlot k x).dist.current = s.dist.current := rfl
@[simp] theorem State.setSlot_dist_unserved (k : Nat) (x : Option Key) : (s.setSlot k x).dist.unserved = s.dist.unserved := rfl
@[simp] theorem State.setSlot_dist_switchDue (k : Nat) (x : Option Key) : (s.setSlot k x).dist.switchDue = s.dist.switchDue := rfl
@[simp] theorem State.setSlot_segment (k : Nat) (x : Option Key) (m : Nat) : (s.setSlot k x).segment m = s.segment m := rfl
@[simp] theorem State.setSlot_partition (k : Nat) (x : Option Key) (m : Nat) : (s.setSlot k x).partition m = s.partition m := rfl
@[simp] theorem State.setSlot_settling (k : Nat) (x : Option Key) (m : Nat) : (s.setSlot k x).settling m = s.settling m := rfl
@[simp] theorem State.setSlot_room (k : Nat) (x : Option Key) (m : Nat) : (s.setSlot k x).room m = s.room m := rfl
@[simp] theorem State.setSlot_anchorOf (k : Nat) (x : Option Key) (m : Nat) : (s.setSlot k x).anchorOf m = s.anchorOf m := rfl
@[simp] theorem State.setSlot_seat (k : Nat) (x : Option Key) (m : Nat) : (s.setSlot k x).seat m = s.seat m := rfl
@[simp] theorem State.setSlot_group (k : Nat) (x : Option Key) (m : Nat) : (s.setSlot k x).group m = s.group m := rfl
@[simp] theorem State.setSlot_bus (k : Nat) (x : Option Key) (m : Nat) : (s.setSlot k x).bus m = s.bus m := rfl
@[simp] theorem State.setSlot_boothAt (k : Nat) (x : Option Key) (m : Nat) : (s.setSlot k x).boothAt m = s.boothAt m := rfl
@[simp] theorem State.setSlot_console (k : Nat) (x : Option Key) (m : Nat) : (s.setSlot k x).console m = s.console m := rfl
@[simp] theorem State.setSlot_counter (k : Nat) (x : Option Key) (m : Nat) : (s.setSlot k x).counter m = s.counter m := rfl

@[simp] theorem State.setAnchorSet_pending (x : List Nat) : (s.setAnchorSet x).pending = s.pending := rfl
@[simp] theorem State.setAnchorSet_resetLow (x : List Nat) : (s.setAnchorSet x).resetLow = s.resetLow := rfl
@[simp] theorem State.setAnchorSet_hall (x : List Nat) : (s.setAnchorSet x).hall = s.hall := rfl
@[simp] theorem State.setAnchorSet_floor (x : List Nat) : (s.setAnchorSet x).floor = s.floor := rfl
@[simp] theorem State.setAnchorSet_buses (x : List Nat) : (s.setAnchorSet x).buses = s.buses := rfl
@[simp] theorem State.setAnchorSet_booth (x : List Nat) : (s.setAnchorSet x).booth = s.booth := rfl
@[simp] theorem State.setAnchorSet_mix (x : List Nat) : (s.setAnchorSet x).mix = s.mix := rfl
@[simp] theorem State.setAnchorSet_counts (x : List Nat) : (s.setAnchorSet x).counts = s.counts := rfl
@[simp] theorem State.setAnchorSet_link (x : List Nat) : (s.setAnchorSet x).link = s.link := rfl
@[simp] theorem State.setAnchorSet_dist_current (x : List Nat) : (s.setAnchorSet x).dist.current = s.dist.current := rfl
@[simp] theorem State.setAnchorSet_dist_unserved (x : List Nat) : (s.setAnchorSet x).dist.unserved = s.dist.unserved := rfl
@[simp] theorem State.setAnchorSet_dist_switchDue (x : List Nat) : (s.setAnchorSet x).dist.switchDue = s.dist.switchDue := rfl
@[simp] theorem State.setAnchorSet_segment (x : List Nat) (m : Nat) : (s.setAnchorSet x).segment m = s.segment m := rfl
@[simp] theorem State.setAnchorSet_partition (x : List Nat) (m : Nat) : (s.setAnchorSet x).partition m = s.partition m := rfl
@[simp] theorem State.setAnchorSet_settling (x : List Nat) (m : Nat) : (s.setAnchorSet x).settling m = s.settling m := rfl
@[simp] theorem State.setAnchorSet_room (x : List Nat) (m : Nat) : (s.setAnchorSet x).room m = s.room m := rfl
@[simp] theorem State.setAnchorSet_anchorOf (x : List Nat) (m : Nat) : (s.setAnchorSet x).anchorOf m = s.anchorOf m := rfl
@[simp] theorem State.setAnchorSet_seat (x : List Nat) (m : Nat) : (s.setAnchorSet x).seat m = s.seat m := rfl
@[simp] theorem State.setAnchorSet_group (x : List Nat) (m : Nat) : (s.setAnchorSet x).group m = s.group m := rfl
@[simp] theorem State.setAnchorSet_bus (x : List Nat) (m : Nat) : (s.setAnchorSet x).bus m = s.bus m := rfl
@[simp] theorem State.setAnchorSet_boothAt (x : List Nat) (m : Nat) : (s.setAnchorSet x).boothAt m = s.boothAt m := rfl
@[simp] theorem State.setAnchorSet_console (x : List Nat) (m : Nat) : (s.setAnchorSet x).console m = s.console m := rfl
@[simp] theorem State.setAnchorSet_counter (x : List Nat) (m : Nat) : (s.setAnchorSet x).counter m = s.counter m := rfl

@[simp] theorem State.note_pending (x : Notice) : (s.note x).pending = s.pending := rfl
@[simp] theorem State.note_resetLow (x : Notice) : (s.note x).resetLow = s.resetLow := rfl
@[simp] theorem State.note_hall (x : Notice) : (s.note x).hall = s.hall := rfl
@[simp] theorem State.note_floor (x : Notice) : (s.note x).floor = s.floor := rfl
@[simp] theorem State.note_buses (x : Notice) : (s.note x).buses = s.buses := rfl
@[simp] theorem State.note_booth (x : Notice) : (s.note x).booth = s.booth := rfl
@[simp] theorem State.note_dist (x : Notice) : (s.note x).dist = s.dist := rfl
@[simp] theorem State.note_mix (x : Notice) : (s.note x).mix = s.mix := rfl
@[simp] theorem State.note_counts (x : Notice) : (s.note x).counts = s.counts := rfl
@[simp] theorem State.note_segment (x : Notice) (m : Nat) : (s.note x).segment m = s.segment m := rfl
@[simp] theorem State.note_partition (x : Notice) (m : Nat) : (s.note x).partition m = s.partition m := rfl
@[simp] theorem State.note_settling (x : Notice) (m : Nat) : (s.note x).settling m = s.settling m := rfl
@[simp] theorem State.note_room (x : Notice) (m : Nat) : (s.note x).room m = s.room m := rfl
@[simp] theorem State.note_anchorOf (x : Notice) (m : Nat) : (s.note x).anchorOf m = s.anchorOf m := rfl
@[simp] theorem State.note_seat (x : Notice) (m : Nat) : (s.note x).seat m = s.seat m := rfl
@[simp] theorem State.note_group (x : Notice) (m : Nat) : (s.note x).group m = s.group m := rfl
@[simp] theorem State.note_bus (x : Notice) (m : Nat) : (s.note x).bus m = s.bus m := rfl
@[simp] theorem State.note_boothAt (x : Notice) (m : Nat) : (s.note x).boothAt m = s.boothAt m := rfl
@[simp] theorem State.note_console (x : Notice) (m : Nat) : (s.note x).console m = s.console m := rfl
@[simp] theorem State.note_counter (x : Notice) (m : Nat) : (s.note x).counter m = s.counter m := rfl

@[simp] theorem State.reply_pending (x : Reply) : (s.reply x).pending = s.pending := rfl
@[simp] theorem State.reply_resetLow (x : Reply) : (s.reply x).resetLow = s.resetLow := rfl
@[simp] theorem State.reply_hall (x : Reply) : (s.reply x).hall = s.hall := rfl
@[simp] theorem State.reply_floor (x : Reply) : (s.reply x).floor = s.floor := rfl
@[simp] theorem State.reply_buses (x : Reply) : (s.reply x).buses = s.buses := rfl
@[simp] theorem State.reply_booth (x : Reply) : (s.reply x).booth = s.booth := rfl
@[simp] theorem State.reply_dist (x : Reply) : (s.reply x).dist = s.dist := rfl
@[simp] theorem State.reply_mix (x : Reply) : (s.reply x).mix = s.mix := rfl
@[simp] theorem State.reply_counts (x : Reply) : (s.reply x).counts = s.counts := rfl
@[simp] theorem State.reply_segment (x : Reply) (m : Nat) : (s.reply x).segment m = s.segment m := rfl
@[simp] theorem State.reply_partition (x : Reply) (m : Nat) : (s.reply x).partition m = s.partition m := rfl
@[simp] theorem State.reply_settling (x : Reply) (m : Nat) : (s.reply x).settling m = s.settling m := rfl
@[simp] theorem State.reply_room (x : Reply) (m : Nat) : (s.reply x).room m = s.room m := rfl
@[simp] theorem State.reply_anchorOf (x : Reply) (m : Nat) : (s.reply x).anchorOf m = s.anchorOf m := rfl
@[simp] theorem State.reply_seat (x : Reply) (m : Nat) : (s.reply x).seat m = s.seat m := rfl
@[simp] theorem State.reply_group (x : Reply) (m : Nat) : (s.reply x).group m = s.group m := rfl
@[simp] theorem State.reply_bus (x : Reply) (m : Nat) : (s.reply x).bus m = s.bus m := rfl
@[simp] theorem State.reply_boothAt (x : Reply) (m : Nat) : (s.reply x).boothAt m = s.boothAt m := rfl
@[simp] theorem State.reply_console (x : Reply) (m : Nat) : (s.reply x).console m = s.console m := rfl
@[simp] theorem State.reply_counter (x : Reply) (m : Nat) : (s.reply x).counter m = s.counter m := rfl

@[simp] theorem State.raise_pending (x : Occurrence) : (s.raise x).pending = s.pending := rfl
@[simp] theorem State.raise_resetLow (x : Occurrence) : (s.raise x).resetLow = s.resetLow := rfl
@[simp] theorem State.raise_hall (x : Occurrence) : (s.raise x).hall = s.hall := rfl
@[simp] theorem State.raise_floor (x : Occurrence) : (s.raise x).floor = s.floor := rfl
@[simp] theorem State.raise_buses (x : Occurrence) : (s.raise x).buses = s.buses := rfl
@[simp] theorem State.raise_booth (x : Occurrence) : (s.raise x).booth = s.booth := rfl
@[simp] theorem State.raise_dist (x : Occurrence) : (s.raise x).dist = s.dist := rfl
@[simp] theorem State.raise_mix (x : Occurrence) : (s.raise x).mix = s.mix := rfl
@[simp] theorem State.raise_link (x : Occurrence) : (s.raise x).link = s.link := rfl
@[simp] theorem State.raise_counts_counters (x : Occurrence) : (s.raise x).counts.counters = s.counts.counters := rfl
@[simp] theorem State.raise_counts_blocks (x : Occurrence) : (s.raise x).counts.blocks = s.counts.blocks := rfl
@[simp] theorem State.raise_counts_secondDue (x : Occurrence) : (s.raise x).counts.secondDue = s.counts.secondDue := rfl
@[simp] theorem State.raise_counts_deferring (x : Occurrence) : (s.raise x).counts.deferring = s.counts.deferring := rfl
@[simp] theorem State.raise_segment (x : Occurrence) (m : Nat) : (s.raise x).segment m = s.segment m := rfl
@[simp] theorem State.raise_partition (x : Occurrence) (m : Nat) : (s.raise x).partition m = s.partition m := rfl
@[simp] theorem State.raise_settling (x : Occurrence) (m : Nat) : (s.raise x).settling m = s.settling m := rfl
@[simp] theorem State.raise_room (x : Occurrence) (m : Nat) : (s.raise x).room m = s.room m := rfl
@[simp] theorem State.raise_anchorOf (x : Occurrence) (m : Nat) : (s.raise x).anchorOf m = s.anchorOf m := rfl
@[simp] theorem State.raise_seat (x : Occurrence) (m : Nat) : (s.raise x).seat m = s.seat m := rfl
@[simp] theorem State.raise_group (x : Occurrence) (m : Nat) : (s.raise x).group m = s.group m := rfl
@[simp] theorem State.raise_bus (x : Occurrence) (m : Nat) : (s.raise x).bus m = s.bus m := rfl
@[simp] theorem State.raise_boothAt (x : Occurrence) (m : Nat) : (s.raise x).boothAt m = s.boothAt m := rfl
@[simp] theorem State.raise_console (x : Occurrence) (m : Nat) : (s.raise x).console m = s.console m := rfl
@[simp] theorem State.raise_counter (x : Occurrence) (m : Nat) : (s.raise x).counter m = s.counter m := rfl

@[simp] theorem State.setPending_resetLow (x : List Instr) : (s.setPending x).resetLow = s.resetLow := rfl
@[simp] theorem State.setPending_hall (x : List Instr) : (s.setPending x).hall = s.hall := rfl
@[simp] theorem State.setPending_floor (x : List Instr) : (s.setPending x).floor = s.floor := rfl
@[simp] theorem State.setPending_buses (x : List Instr) : (s.setPending x).buses = s.buses := rfl
@[simp] theorem State.setPending_booth (x : List Instr) : (s.setPending x).booth = s.booth := rfl
@[simp] theorem State.setPending_dist (x : List Instr) : (s.setPending x).dist = s.dist := rfl
@[simp] theorem State.setPending_mix (x : List Instr) : (s.setPending x).mix = s.mix := rfl
@[simp] theorem State.setPending_counts (x : List Instr) : (s.setPending x).counts = s.counts := rfl
@[simp] theorem State.setPending_link (x : List Instr) : (s.setPending x).link = s.link := rfl
@[simp] theorem State.setPending_segment (x : List Instr) (m : Nat) : (s.setPending x).segment m = s.segment m := rfl
@[simp] theorem State.setPending_partition (x : List Instr) (m : Nat) : (s.setPending x).partition m = s.partition m := rfl
@[simp] theorem State.setPending_settling (x : List Instr) (m : Nat) : (s.setPending x).settling m = s.settling m := rfl
@[simp] theorem State.setPending_room (x : List Instr) (m : Nat) : (s.setPending x).room m = s.room m := rfl
@[simp] theorem State.setPending_anchorOf (x : List Instr) (m : Nat) : (s.setPending x).anchorOf m = s.anchorOf m := rfl
@[simp] theorem State.setPending_seat (x : List Instr) (m : Nat) : (s.setPending x).seat m = s.seat m := rfl
@[simp] theorem State.setPending_group (x : List Instr) (m : Nat) : (s.setPending x).group m = s.group m := rfl
@[simp] theorem State.setPending_bus (x : List Instr) (m : Nat) : (s.setPending x).bus m = s.bus m := rfl
@[simp] theorem State.setPending_boothAt (x : List Instr) (m : Nat) : (s.setPending x).boothAt m = s.boothAt m := rfl
@[simp] theorem State.setPending_console (x : List Instr) (m : Nat) : (s.setPending x).console m = s.console m := rfl
@[simp] theorem State.setPending_counter (x : List Instr) (m : Nat) : (s.setPending x).counter m = s.counter m := rfl

@[simp] theorem State.note_link (x : Notice) : (s.note x).link = s.link.raise x := rfl
@[simp] theorem State.reply_link (x : Reply) : (s.reply x).link = s.link.answer x := rfl
@[simp] theorem State.setPlan_mix_plan (x : Plan) : (s.setPlan x).mix.plan = x := rfl
@[simp] theorem State.setReceiver_link_receiver (x : Receiver) : (s.setReceiver x).link.receiver = x := rfl
@[simp] theorem State.setUnserved_dist_unserved (x : List Key) : (s.setUnserved x).dist.unserved = x := rfl
@[simp] theorem State.setPending_pending (x : List Instr) : (s.setPending x).pending = x := rfl
@[simp] theorem State.raise_counts_raised (x : Occurrence) : (s.raise x).counts.raised = s.counts.raised ++ [x] := rfl

/-- A seat in ABSENT, and one that shows what it is to show, is left as it is (R109, R125, R126). -/
theorem State.reform_of_kept {s : State} {n : Nat} (h : (s.seat n).mic = .absent ∨ (s.seat n).indication = s.indicationOf n) :
    s.reform n = s := by simp [State.reform, h]

/-- Any other seat takes its indication and is checked (R69, R109). -/
theorem State.reform_of_changed {s : State} {n : Nat} (h1 : (s.seat n).mic ≠ .absent)
    (h2 : (s.seat n).indication ≠ s.indicationOf n) : s.reform n = s.reseat n := by simp [State.reform, h1, h2]

/-- All that a boundary does to a room: its timer, its level, and the mark of a ramp that ends (R31, R169, R180). -/
theorem Room.cross_eq (b : Bool) (r : Room) : r.cross b = { r with
    timer := r.tick.timer, level := r.tick.stepRamp.level, settleDue := r.tick.stepRamp.settleDue && !b } := by
  obtain ⟨_, _, m, _, _, _, p, _, t, _, _, _, _, _⟩ := r
  cases m <;> cases t <;> cases p <;> simp only [Room.cross, Room.tick, Room.stepRamp] <;> (repeat' split) <;> rfl

end Sys2Proof.Machine
end

