-- ==== Sys2Proof/Laws/Kept.lean ====
section
/-! SUPPORT. `Kept s t`: what the work of the blocks on an event leaves alone in going from `s` to `t` (the queue of commands,
the pins, the segment table, and of the link controller all but notices raised) and which safe conditions it keeps. One
lemma for each operation of the blocks; `h.op` says that `op` may follow. -/

namespace Sys2Proof.Machine

/-- A room context that differs from another in parts that no condition reads, or in entries that have left its queue. -/
structure Room.Same (r x : Room) : Prop where
  level : x.level = r.level
  ceiling : x.ceiling = r.ceiling
  request : x.profile.level = r.profile.level
  anchor : x.anchor = r.anchor
  segments : x.segments = r.segments
  queue : x.queue.Sublist r.queue

/-! ## What each condition reads -/

/-- The queues are in order where every room has the anchor, and entries of the queue, that it had before. -/
theorem State.QueuesOk.sub {s t : State} (h : s.QueuesOk) (hc : s.floor.stampCount ≤ t.floor.stampCount)
    (hr : ∀ a x, t.room a = some x → ∃ r, s.room a = some r ∧ x.anchor = r.anchor ∧ x.queue.Sublist r.queue) :
    t.QueuesOk where
  anchor a x e := by
    obtain ⟨r, h1, h2, -⟩ := hr a x e
    exact h2.trans (h.anchor a r h1)
  bound a x e := by
    obtain ⟨r, h1, -, h3⟩ := hr a x e
    exact h3.length_le.trans (h.bound a r h1)
  rising a x e := by
    obtain ⟨r, h1, -, h3⟩ := hr a x e
    exact (h.rising a r h1).sublist h3
  given a x e y hy := by
    obtain ⟨r, h1, -, h3⟩ := hr a x e
    exact (h.given a r h1 y (h3.subset hy)).trans_le hc
  apart a b x z hab e f y hy w hw := by
    obtain ⟨r, h1, -, h3⟩ := hr a x e
    obtain ⟨q, k1, -, k3⟩ := hr b z f
    exact h.apart a b r q hab h1 k1 y (h3.subset hy) w (k3.subset hw)

/-- The rooms and the map agree where the map and every room's anchor and segments are as before. -/
theorem State.RoomsOk.same {s t : State} (h : s.RoomsOk) (hm : ∀ k, t.anchorOf k = s.anchorOf k)
    (hr : ∀ a x, t.room a = some x → ∃ r, s.room a = some r ∧ x.anchor = r.anchor ∧ x.segments = r.segments)
    (hs : ∀ a, (s.room a).isSome = true → (t.room a).isSome = true) : t.RoomsOk where
  anchor a x e := by
    obtain ⟨r, h1, h2, h3⟩ := hr a x e
    rw [h2, h3]; exact h.anchor a r h1
  rising a x e := by
    obtain ⟨r, h1, -, h3⟩ := hr a x e
    rw [h3]; exact h.rising a r h1
  numbers a x e := by
    obtain ⟨r, h1, -, h3⟩ := hr a x e
    rw [h3]; exact h.numbers a r h1
  map a x e k := by
    obtain ⟨r, h1, -, h3⟩ := hr a x e
    rw [h3, hm]; exact h.map a r h1 k
  rooms k a e := hs a (h.rooms k a ((hm k).symm.trans e))

/-- Going from `s` to `t` is work of the blocks. -/
structure Kept (s t : State) : Prop where
  pending : t.pending = s.pending
  resetLow : t.resetLow = s.resetLow
  segments : t.hall.segments = s.hall.segments
  link : ∃ ns : List Notice, t.link = ns.foldl LinkUnit.raise s.link
  settling : s.settlingOk → t.settlingOk
  levels : s.levelsOk → t.levelsOk
  slots : s.slotsOk → t.slotsOk
  queues : s.QueuesOk → t.QueuesOk
  owners : s.OwnersOk → t.OwnersOk
  channels : s.ChannelsOk → t.ChannelsOk
  rooms : s.RoomsOk → t.RoomsOk

namespace Kept

variable {s t u : State}

protected theorem refl (s : State) : Kept s s := ⟨rfl, rfl, rfl, ⟨[], rfl⟩, id, id, id, id, id, id, id⟩

theorem trans (h : Kept s t) (k : Kept t u) : Kept s u where
  pending := k.pending.trans h.pending
  resetLow := k.resetLow.trans h.resetLow
  segments := k.segments.trans h.segments
  link := by
    obtain ⟨ns, hn⟩ := h.link
    obtain ⟨ms, hm⟩ := k.link
    exact ⟨ns ++ ms, by rw [hm, hn, List.foldl_append]⟩
  settling := k.settling ∘ h.settling
  levels := k.levels ∘ h.levels
  slots := k.slots ∘ h.slots
  queues := k.queues ∘ h.queues
  owners := k.owners ∘ h.owners
  channels := k.channels ∘ h.channels
  rooms := k.rooms ∘ h.rooms

/-- A state whose rooms, seats and settling records are as they were; what a condition on the owners or the channels needs is
given. -/
theorem outside (h : Kept s t) (ho : s.OwnersOk → t.OwnersOk → u.OwnersOk) (hk : t.ChannelsOk → u.ChannelsOk)
    (hp : u.pending = t.pending := by rfl) (hr : u.resetLow = t.resetLow := by rfl)
    (hg : u.hall.segments = t.hall.segments := by rfl) (hs : u.hall.settling = t.hall.settling := by rfl)
    (hm : u.hall.rooms = t.hall.rooms := by rfl) (ha : u.hall.segmentMap = t.hall.segmentMap := by rfl)
    (hf : u.floor.seats = t.floor.seats := by rfl) (hc : t.floor.stampCount ≤ u.floor.stampCount := by exact Nat.le_refl _)
    (hl : u.link = t.link := by rfl) : Kept s u :=
  have k : Kept t { u with booth := t.booth } := ⟨hp, hr, hg, ⟨[], hl⟩,
    fun x p => by simpa only [State.settling, hs] using x p,
    fun x => ⟨fun k => by simpa only [State.segment, hg] using x.1 k,
      fun a r e => x.2 a r (by simpa only [State.room, hm] using e)⟩,
    fun x => by simpa only [State.slotsOk, State.seat, hf] using x,
    fun x => x.sub hc fun a r e => ⟨r, by simpa only [State.room, hm] using e, rfl, .refl _⟩,
    fun x => ⟨x.1, x.2, x.3⟩, fun x => by have y := hk x; exact ⟨y.1, y.2, y.3, y.4, y.5, y.6⟩,
    fun x => x.same (fun k => by simp only [State.anchorOf, ha])
      (fun a r e => ⟨r, by simpa only [State.room, hm] using e, rfl, rfl⟩)
      (fun a e => by simpa only [State.room, hm] using e)⟩
  have l := h.trans k
  ⟨l.pending, l.resetLow, l.segments, l.link, l.settling, l.levels, l.slots,
    fun x => by have y := l.queues x; exact ⟨y.1, y.2, y.3, y.4, y.5⟩, fun x => ho x (h.owners x),
    fun x => by have y := l.channels x; exact ⟨y.1, y.2, y.3, y.4, y.5, y.6⟩,
    fun x => by have y := l.rooms x; exact ⟨y.1, y.2, y.3, y.4, y.5⟩⟩

/-- A state that differs only in parts that no condition reads. -/
theorem silent (h : Kept s t) (ho : u.booth.consoles = t.booth.consoles := by rfl)
    (hk : u.dist.allocation.slots = t.dist.allocation.slots := by rfl)
    (hu : u.dist.unserved = t.dist.unserved := by rfl)
    (hp : u.pending = t.pending := by rfl) (hr : u.resetLow = t.resetLow := by rfl)
    (hg : u.hall.segments = t.hall.segments := by rfl) (hs : u.hall.settling = t.hall.settling := by rfl)
    (hm : u.hall.rooms = t.hall.rooms := by rfl) (ha : u.hall.segmentMap = t.hall.segmentMap := by rfl)
    (hf : u.floor.seats = t.floor.seats := by rfl) (hc : t.floor.stampCount ≤ u.floor.stampCount := by exact Nat.le_refl _)
    (hl : u.link = t.link := by rfl) : Kept s u :=
  h.outside
    (fun _ x => ⟨by simpa only [ho] using x.canonical, by simpa only [State.console, ho] using x.owner,
      by simpa only [State.console, ho] using x.one⟩)
    (fun x => ⟨by simpa only [hk] using x.canonical, by simpa only [hk] using x.language, by simpa only [hk] using x.one,
      by simpa only [hk, hu] using x.apart, by simpa only [hu] using x.once, by simpa only [hk, hu] using x.full⟩)
    hp hr hg hs hm ha hf hc hl

/-! ## Writes -/

theorem setPartition (h : Kept s t) (p : Nat) (x : Partition) : Kept s (t.setPartition p x) := h.silent
theorem setGroup (h : Kept s t) (g : Nat) (x : Group) : Kept s (t.setGroup g x) := h.silent
theorem setBus (h : Kept s t) (i : Nat) (x : Bus) : Kept s (t.setBus i x) := h.silent
theorem setUnit (h : Kept s t) (i a : Nat) (x : UnitRecord) : Kept s (t.setUnit i a x) := h.silent
theorem setBooth (h : Kept s t) (b : Nat) (x : Booth) : Kept s (t.setBooth b x) := h.silent
theorem setCounter (h : Kept s t) (c : Nat) (x : Counter) : Kept s (t.setCounter c x) := h.silent
theorem setCounts (h : Kept s t) (x : CounterUnit) : Kept s { t with counts := x } := h.silent
theorem setSwitch (h : Kept s t) (x : Bool) : Kept s { t with dist := { t.dist with switchDue := x } } := h.silent
theorem setCurrent (h : Kept s t) (x : SlotTable) : Kept s { t with dist := { t.dist with current := x } } := h.silent
theorem setMix (h : Kept s t) (x : MixUnit) : Kept s { t with mix := x } := h.silent
theorem setPlan (h : Kept s t) (x : Plan) : Kept s (t.setPlan x) := h.silent
theorem setAnchorSet (h : Kept s t) (x : List Nat) : Kept s (t.setAnchorSet x) := h.silent
theorem raise (h : Kept s t) (o : Occurrence) : Kept s (t.raise o) := h.silent
theorem raiseSeat (h : Kept s t) (e : CountEvent) (n : Nat) : Kept s (t.raiseSeat e n) := h.raise _
theorem raiseBooth (h : Kept s t) (e : CountEvent) (b : Nat) : Kept s (t.raiseBooth e b) := h.raise _
theorem countOpening (h : Kept s t) : Kept s t.countOpening := h.silent
theorem countLive (h : Kept s t) : Kept s t.countLive := h.silent

theorem note (h : Kept s t) (n : Notice) : Kept s (t.note n) :=
  h.trans ⟨rfl, rfl, rfl, ⟨[n], rfl⟩, id, id, id, fun x => ⟨x.1, x.2, x.3, x.4, x.5⟩, fun x => ⟨x.1, x.2, x.3⟩,
    fun x => ⟨x.1, x.2, x.3, x.4, x.5, x.6⟩, fun x => ⟨x.1, x.2, x.3, x.4, x.5⟩⟩

/-- A settling record whose hold count is in range. -/
theorem setSettling (h : Kept s t) (p : Nat) (x : Settling) (hx : t.settlingOk → x.hold ≤ Config.settleBlocks) :
    Kept s (t.setSettling p x) :=
  h.trans ⟨rfl, rfl, rfl, ⟨[], rfl⟩, fun k q => by
    rw [State.setSettling_settling]; split
    · exact hx k
    · exact k q, id, id, fun x => ⟨x.1, x.2, x.3, x.4, x.5⟩, fun x => ⟨x.1, x.2, x.3⟩,
    fun x => ⟨x.1, x.2, x.3, x.4, x.5, x.6⟩, fun x => ⟨x.1, x.2, x.3, x.4, x.5⟩⟩

/-- A room context that is the same in all that the conditions read. -/
theorem keepRoom (h : Kept s t) (a : Nat) (r x : Room) (hr : t.room a = some r) (e : r.Same x) :
    Kept s (t.setRoom a (some x)) :=
  have back : ∀ b y, (t.setRoom a (some x)).room b = some y → ∃ q, t.room b = some q ∧ q.Same y := by
    intro b y hy
    rw [State.setRoom_room] at hy
    split at hy
    · subst_vars; obtain rfl := Option.some.inj hy; exact ⟨r, hr, e⟩
    · exact ⟨y, hy, rfl, rfl, rfl, rfl, rfl, .refl _⟩
  h.trans ⟨rfl, rfl, rfl, ⟨[], rfl⟩, id, fun k => ⟨k.1, fun b y hy => by
      obtain ⟨q, h1, h2⟩ := back b y hy
      simpa only [Room.levelsOk, h2.level, h2.ceiling, h2.request] using k.2 b q h1⟩, id,
    fun k => k.sub (Nat.le_refl _) fun b y hy => by
      obtain ⟨q, h1, h2⟩ := back b y hy
      exact ⟨q, h1, h2.anchor, h2.queue⟩,
    fun x => ⟨x.1, x.2, x.3⟩, fun x => ⟨x.1, x.2, x.3, x.4, x.5, x.6⟩,
    fun k => k.same (fun _ => rfl)
      (fun b y hy => by
        obtain ⟨q, h1, h2⟩ := back b y hy
        exact ⟨q, h1, h2.anchor, h2.segments⟩)
      (fun b hb => by rw [State.setRoom_room]; split <;> [rfl; exact hb])⟩

/-- A change of a room in parts that no condition reads. -/
theorem modRoom (h : Kept s t) (a : Nat) (f : Room → Room) (hf : ∀ r : Room, r.Same (f r)) : Kept s (t.modRoom a f) := by
  unfold State.modRoom
  split
  · exact h
  · exact h.keepRoom a _ _ ‹_› (hf _)

theorem modSeatRoom (h : Kept s t) (n : Nat) (f : Room → Room) (hf : ∀ r : Room, r.Same (f r)) : Kept s (t.modSeatRoom n f) := by
  unfold State.modSeatRoom
  split
  · exact h
  · exact h.modRoom _ f hf

/-- A console whose state and channel agree, and whose channel no other console owns. -/
theorem setConsole (h : Kept s t) (c : Nat) (x : Console)
    (hx : s.OwnersOk → t.OwnersOk → (x.owned.isSome = true ↔ x.state = .cueing ∨ x.state = .onAir) ∧
      ∀ key, x.owned = some key → ∀ d, d ≠ c → (t.console d).owned ≠ some key) : Kept s (t.setConsole c x) := by
  refine h.outside (fun k0 k => ⟨twf_tset _ _ _ _ k.canonical, fun d => ?_, fun d e key h1 h2 => ?_⟩)
    (fun k => ⟨k.1, k.2, k.3, k.4, k.5, k.6⟩)
  · rw [State.setConsole_console]; split
    · exact (hx k0 k).1
    · exact k.owner d
  · rw [State.setConsole_console] at h1 h2
    split at h1 <;> split at h2
    · rename_i a b; exact a.trans b.symm
    · exact absurd h2 ((hx k0 k).2 key h1 e ‹_›)
    · exact absurd h1 ((hx k0 k).2 key h2 d ‹_›)
    · exact k.one d e key h1 h2

/-- A console that keeps its state and its channel. -/
theorem keepConsole (h : Kept s t) (c : Nat) (x : Console) (h1 : x.state = (t.console c).state)
    (h2 : x.owned = (t.console c).owned) : Kept s (t.setConsole c x) :=
  h.setConsole c x fun _ k => by
    rw [h1, h2]; exact ⟨k.owner c, fun key e d hd f => hd (k.one d c key f e)⟩

/-- A seat record whose slot is the one it held, none, or the lowest free one of its bus. -/
theorem setSeat (h : Kept s t) (n : Nat) (x : Seat)
    (hx : x.slot = (t.seat n).slot ∨ x.slot = none ∨ x.slot = t.freeSlot (seatBus n)) : Kept s (t.setSeat n x) := by
  refine h.trans ⟨rfl, rfl, rfl, ⟨[], rfl⟩, id, id, fun k => ⟨twf_tset _ _ _ _ k.1, ?_, ?_⟩,
    fun x => ⟨x.1, x.2, x.3, x.4, x.5⟩, fun x => ⟨x.1, x.2, x.3⟩, fun x => ⟨x.1, x.2, x.3, x.4, x.5, x.6⟩,
    fun x => ⟨x.1, x.2, x.3, x.4, x.5⟩⟩
  · intro m j e
    rw [State.setSeat_seat] at e
    split at e
    · rcases hx with hx | hx | hx
      · exact k.2.1 n j (hx ▸ e)
      · rw [hx] at e; cases e
      · rw [hx] at e
        have := List.mem_of_find?_eq_some e
        simpa using this
    · exact k.2.1 m j e
  · -- a slot that `freeSlot` gives is held by no seat of the bus
    have free : ∀ m j, t.freeSlot (seatBus n) = some j → seatBus m = seatBus n → (t.seat m).slot ≠ some j := by
      intro m j e hm hc
      have hf := List.find?_some e
      simp only [Bool.not_eq_true', List.any_eq_false, Bool.and_eq_true, decide_eq_true_eq, not_and] at hf
      have : ∀ tb : Table Seat, (tget Seat.initial tb m).slot = some j → ∃ y ∈ tb, y.1 = m ∧ y.2.slot = some j := by
        intro tb
        induction tb with
        | nil => intro hc; simp [Seat.initial] at hc
        | cons y r ih =>
          intro hc
          simp only [tget] at hc
          split at hc
          · exact ⟨y, by simp, by assumption, hc⟩
          · obtain ⟨z, hz, hz'⟩ := ih hc
            exact ⟨z, by simp [hz], hz'⟩
      obtain ⟨y, hy, hy1, hy2⟩ := this _ hc
      exact hf y hy (by rw [hy1, hm]) hy2
    intro m q j hne hb e1 e2
    rw [State.setSeat_seat] at e1 e2
    split at e1 <;> split at e2
    · rename_i a b; exact hne (a.trans b.symm)
    · rename_i a b
      subst a
      rcases hx with hx | hx | hx
      · exact k.2.2 m q j hne hb (hx ▸ e1) e2
      · rw [hx] at e1; cases e1
      · exact free q j (hx ▸ e1) hb.symm e2
    · rename_i a b
      subst b
      rcases hx with hx | hx | hx
      · exact k.2.2 m q j hne hb e1 (hx ▸ e2)
      · rw [hx] at e2; cases e2
      · exact free m j (hx ▸ e2) hb e1
    · exact k.2.2 m q j hne hb e1 e2

/-- A seat record whose slot is the one it held. -/
theorem keepSeat (h : Kept s t) (n : Nat) (x : Seat) (hx : x.slot = (t.seat n).slot) : Kept s (t.setSeat n x) :=
  h.setSeat n x (.inl hx)

/-- Work on the elements of a list, one after another. -/
theorem fold {α : Type} (h : Kept s t) (f : State → α → State) (hf : ∀ v x, Kept s v → Kept s (f v x)) (xs : List α) :
    Kept s (xs.foldl f t) := by
  induction xs generalizing t with
  | nil => exact h
  | cons x xs ih => exact ih (hf t x h)

theorem ite (h : Kept s t) (k : Kept s u) (c : Prop) [Decidable c] : Kept s (if c then t else u) := by
  split
  · exact h
  · exact k

end Kept

end Sys2Proof.Machine
end

