-- ==== Sys2Proof/Laws/KeptFloor.lean ====
section
/-! SUPPORT. `Kept` for the shared operations, the counter unit's additions and the floor unit. -/

namespace Sys2Proof.Machine

@[simp] theorem State.modRoom_seat (s : State) (a : Nat) (f : Room → Room) (n : Nat) :
    (s.modRoom a f).seat n = s.seat n := by
  unfold State.modRoom; split <;> rfl

@[simp] theorem State.modSeatRoom_seat (s : State) (m : Nat) (f : Room → Room) (n : Nat) :
    (s.modSeatRoom m f).seat n = s.seat n := by
  unfold State.modSeatRoom; split
  · rfl
  · exact State.modRoom_seat _ _ _ _

namespace Kept

variable {s t : State}

/-! ## Shared operations -/

theorem join (h : Kept s t) (i : Nat) (it : Item) : Kept s (t.join i it) := by
  unfold State.join; split
  · exact h
  · exact h.setBus _ _

theorem leave (h : Kept s t) (i : Nat) (it : Item) : Kept s (t.leave i it) := h.setBus _ _

theorem check (h : Kept s t) (i a : Nat) : Kept s (t.check i a) := by
  unfold State.check; split
  · exact h.join _ _
  · exact h

theorem queueMaps (h : Kept s t) (ks : List Nat) : Kept s (t.queueMaps ks) :=
  h.fold _ (fun _ _ hv => hv.fold _ (fun _ _ hw => hw.join _ _) _) _

theorem queueRoomMaps (h : Kept s t) (a : Nat) : Kept s (t.queueRoomMaps a) := by
  unfold State.queueRoomMaps; split
  · exact h
  · exact h.queueMaps _

theorem reseat (h : Kept s t) (n : Nat) : Kept s (t.reseat n) := by
  unfold State.reseat; refine Kept.check (h.keepSeat n _ ?_) _ _; rfl

theorem reform (h : Kept s t) (n : Nat) : Kept s (t.reform n) := by
  unfold State.reform; split
  · exact h
  · exact h.reseat _

theorem reformAll (h : Kept s t) (ns : List Nat) : Kept s (t.reformAll ns) := h.fold _ (fun _ _ hv => hv.reform _) ns

theorem showConsole (h : Kept s t) (c : Nat) : Kept s (t.showConsole c) := by
  unfold State.showConsole; exact (h.keepConsole c { t.console c with indication := t.consoleIndication c } rfl rfl).check _ _

theorem reconsole (h : Kept s t) (c : Nat) : Kept s (t.reconsole c) := by
  unfold State.reconsole; split
  · exact h
  · exact h.showConsole _

theorem noteMic (h : Kept s t) (n : Nat) (old : Mic) (c : MicCause) : Kept s (t.noteMic n old c) := h.note _

theorem noteConsole (h : Kept s t) (c : Nat) (old : ConsoleState) (k : BoothCause) (x : Option Nat) :
    Kept s (t.noteConsole c old k x) := h.note _

/-! ## Drops, blocking and counters -/

theorem unqueue (h : Kept s t) (n : Nat) : Kept s (t.unqueue n) :=
  (h.modSeatRoom n (fun r => { r with queue := r.queue.filter (fun e => e.seat ≠ n) })
    (fun _ => ⟨rfl, rfl, rfl, rfl, rfl, List.filter_sublist⟩)).keepSeat n _ (by simp)

theorem drop (h : Kept s t) (n : Nat) (c : DropCause) : Kept s (t.drop n c) :=
  ((((h.unqueue n).keepSeat n { (t.unqueue n).seat n with mic := .idle } rfl).note _).raiseSeat _ _)

theorem noteGroup (h : Kept s t) (g : Nat) (b : Bool) (c : BlockCause) : Kept s (t.noteGroup g b c) := h.note _

theorem counterBlocks (h : Kept s t) (g : Nat) : Kept s (t.counterBlocks g) := by
  unfold State.counterBlocks; dsimp only; split
  · exact h
  · split
    · exact (((h.setGroup _ _).noteGroup _ _ _).fold _ (fun _ _ hv => hv.drop _ _) _).reformAll _
    · split
      · exact (h.setGroup _ _).noteGroup _ _ _
      · exact h.setGroup _ _

theorem addCounter (h : Kept s t) (c k : Nat) : Kept s (t.addCounter c k) := by
  unfold State.addCounter; dsimp only; split
  · exact h.setCounter _ _
  · split
    · exact ((h.setCounter _ _).note _).counterBlocks _
    · exact (h.setCounter _ _).note _

theorem takeOccurrence (h : Kept s t) (o : Occurrence) (c : Nat) : Kept s (t.takeOccurrence o c) := by
  unfold State.takeOccurrence; dsimp only; split
  · split
    · exact h.addCounter _ _
    · exact h.setCounter _ _
  · exact h

theorem addOccurrences (n : Nat) (h : Kept s t) : Kept s (Machine.addOccurrences n t) := by
  induction n generalizing t with
  | zero => exact h
  | succ n ih =>
    unfold Machine.addOccurrences; split
    · exact h
    · exact ih ((h.setCounts _).fold _ (fun _ _ hv => hv.takeOccurrence _ _) _)

theorem settleCounts (h : Kept s t) : Kept s t.settleCounts := by
  unfold State.settleCounts; split
  · exact h
  · exact addOccurrences _ h

theorem dropNow (h : Kept s t) (n : Nat) (c : DropCause) : Kept s (t.dropNow n c) :=
  ((h.drop n c).reseat n).settleCounts

theorem dropQueue (n a : Nat) (c : DropCause) (h : Kept s t) : Kept s (Machine.dropQueue n a c t) := by
  induction n generalizing t with
  | zero => exact h
  | succ n ih =>
    unfold Machine.dropQueue; split
    · exact h
    · split
      · exact h
      · exact ih (h.dropNow _ _)

theorem emptyQueue (h : Kept s t) (a : Nat) (c : DropCause) : Kept s (t.emptyQueue a c) := by
  unfold State.emptyQueue; split
  · exact h
  · exact dropQueue _ _ _ h

/-! ## The floor -/

theorem enterOpening (h : Kept s t) (n : Nat) (c : MicCause) (g : Option Nat) : Kept s (t.enterOpening n c g) := by
  unfold State.enterOpening; dsimp only
  refine Kept.reseat (Kept.noteMic (Kept.modSeatRoom (Kept.countOpening (Kept.setSeat ?_ n _ ?_)) n _ ?_) _ _ _) _
  · split
    · exact h.unqueue n
    · exact h
  · exact .inr (.inr rfl)
  · exact fun _ => ⟨rfl, rfl, rfl, rfl, rfl, .refl _⟩

theorem enterClosing (h : Kept s t) (n : Nat) (c : MicCause) : Kept s (t.enterClosing n c) :=
  ((h.keepSeat n { t.seat n with
    mic := .closing, clock := none, liveNumber := none, grant := none, warned := false, limitReported := false,
    muted := false, secondDue := false } rfl).noteMic _ _ _).reseat _

theorem withdraw (h : Kept s t) (n : Nat) (c : MicCause) : Kept s (t.withdraw n c) :=
  (((h.unqueue n).keepSeat n { (t.unqueue n).seat n with mic := .idle } rfl).noteMic _ _ _).reseat _

theorem refusePress (h : Kept s t) (n : Nat) (c : RefusedCause) : Kept s (t.refusePress n c) :=
  ((h.note _).raiseSeat _ _).settleCounts

/-- A join: the room whose queue is not full holds the entry with the next stamp at its tail. -/
theorem addEntry (h : Kept s t) (n : Nat) (k : Nat) (hq : ∀ r, t.seatRoom n = some r → r.queue.length < Config.queueLimit) :
    Kept s (t.modSeatRoom n (fun r => { r with queue := r.queue ++ [⟨n, t.floor.stampCount, k⟩] })).countStamp := by
  unfold State.modSeatRoom
  split
  · exact h.silent (hc := Nat.le_succ _)
  · rename_i a ha
    unfold State.modRoom
    split
    · exact h.silent (hc := Nat.le_succ _)
    · rename_i r hr
      have hn : r.queue.length < Config.queueLimit := hq r (by
        simp only [State.seatAnchor] at ha
        simp only [State.seatRoom, State.roomOf, ha]
        exact hr)
      -- a room after the join is a room before it, but for the entry at the tail of room `a`
      have back : ∀ b y, (t.setRoom a (some { r with queue := r.queue ++ [⟨n, t.floor.stampCount, k⟩] })).room b = some y →
          (b = a ∧ y = { r with queue := r.queue ++ [⟨n, t.floor.stampCount, k⟩] }) ∨ (b ≠ a ∧ t.room b = some y) := by
        intro b y hy
        rw [State.setRoom_room] at hy
        split at hy
        · exact .inl ⟨‹_›, (Option.some.inj hy).symm⟩
        · exact .inr ⟨‹_›, hy⟩
      refine h.trans ⟨rfl, rfl, rfl, ⟨[], rfl⟩, id, fun k => ⟨k.1, fun b y hy => ?_⟩, id, fun k => ?_,
        fun x => ⟨x.1, x.2, x.3⟩, fun x => ⟨x.1, x.2, x.3, x.4, x.5, x.6⟩, fun k => k.same (fun _ => rfl) ?_ ?_⟩
      · rcases back b y hy with ⟨rfl, rfl⟩ | ⟨-, hb⟩
        · exact k.2 b r hr
        · exact k.2 b y hb
      · have old : ∀ b y, t.room b = some y → ∀ e ∈ y.queue, e.stamp ≠ t.floor.stampCount :=
          fun b y hb e he => Nat.ne_of_lt (k.given b y hb e he)
        constructor
        · intro b y hy
          rcases back b y hy with ⟨rfl, rfl⟩ | ⟨-, hb⟩
          · exact k.anchor b r hr
          · exact k.anchor b y hb
        · intro b y hy
          rcases back b y hy with ⟨rfl, rfl⟩ | ⟨-, hb⟩
          · simp only [List.length_append, List.length_singleton]; exact hn
          · exact k.bound b y hb
        · intro b y hy
          rcases back b y hy with ⟨rfl, rfl⟩ | ⟨-, hb⟩
          · simp only [List.pairwise_append, List.pairwise_singleton, List.mem_singleton, forall_eq, true_and]
            exact ⟨k.rising b r hr, k.given b r hr⟩
          · exact k.rising b y hb
        · intro b y hy e he
          refine Nat.lt_succ_iff.2 ?_
          rcases back b y hy with ⟨rfl, rfl⟩ | ⟨-, hb⟩
          · rcases List.mem_append.1 he with he | he
            · exact (k.given b r hr e he).le
            · rw [List.mem_singleton.1 he]; exact Nat.le_refl _
          · exact (k.given b y hb e he).le
        · intro b c y z hbc hy hz e he f hf
          rcases back b y hy with ⟨rfl, rfl⟩ | ⟨nb, hb⟩ <;> rcases back c z hz with ⟨rfl, rfl⟩ | ⟨nc, hc⟩
          · exact absurd rfl hbc
          · rcases List.mem_append.1 he with he | he
            · exact k.apart b c r z hbc hr hc e he f hf
            · rw [List.mem_singleton.1 he]; exact (old c z hc f hf).symm
          · rcases List.mem_append.1 hf with hf | hf
            · exact k.apart b c y r hbc hb hr e he f hf
            · rw [List.mem_singleton.1 hf]; exact old b y hb e he
          · exact k.apart b c y z hbc hb hc e he f hf
      · intro b y hy
        rcases back b y hy with ⟨rfl, rfl⟩ | ⟨-, hb⟩
        · exact ⟨r, hr, rfl, rfl⟩
        · exact ⟨y, hb, rfl, rfl⟩
      · intro b hb
        show ((t.setRoom a _).room b).isSome = true
        rw [State.setRoom_room]; split <;> [rfl; exact hb]

theorem joinQueue (h : Kept s t) (n : Nat) (c : MicCause)
    (hq : ∀ r, t.seatRoom n = some r → r.queue.length < Config.queueLimit) : Kept s (t.joinQueue n c) := by
  unfold State.joinQueue; dsimp only
  refine Kept.settleCounts (Kept.raiseSeat (Kept.reseat (Kept.noteMic ?_ _ _ _) _) _ _)
  exact (h.addEntry n (t.seat n).segment hq).keepSeat n _ rfl

theorem takeCandidate (h : Kept s t) (a : Nat) (e : Entry) (c : MicCause) : Kept s (t.takeCandidate a e c) :=
  by unfold State.takeCandidate; refine (h.enterOpening _ _ _).modRoom _ _ ?_; exact fun _ => ⟨rfl, rfl, rfl, rfl, rfl, .refl _⟩

theorem promoteRun (n a : Nat) (h : Kept s t) : Kept s (Machine.promoteRun n a t) := by
  induction n generalizing t with
  | zero => exact h
  | succ n ih =>
    unfold Machine.promoteRun; split
    · exact h
    · split
      · split
        · exact h
        · split
          · exact h
          · exact ih (h.takeCandidate _ _ _)
      · exact h

theorem promote (h : Kept s t) (a : Nat) : Kept s (t.promote a) := by
  unfold State.promote; split
  · exact h
  · exact promoteRun _ _ h

theorem promoteSeat (h : Kept s t) (n : Nat) : Kept s (t.promoteSeat n) := by
  unfold State.promoteSeat; split
  · exact h
  · exact h.promote _

theorem promoteAfterSlot (h : Kept s t) (n : Nat) : Kept s (t.promoteAfterSlot n) :=
  (h.promoteSeat n).fold _ (fun _ _ hv => hv.promote _) _

theorem mute (h : Kept s t) (n : Nat) : Kept s (t.mute n) := (h.keepSeat n { t.seat n with muted := true } rfl).noteMic _ _ _

theorem muteAll (h : Kept s t) (a : Nat) : Kept s (t.muteAll a) := by
  unfold State.muteAll; split
  · exact h
  · exact h.fold _ (fun _ _ hv => hv.mute _) _

theorem closeAll (h : Kept s t) (a : Nat) : Kept s (t.closeAll a) := by
  unfold State.closeAll; split
  · exact h
  · exact h.fold _ (fun _ _ hv => hv.enterClosing _ _) _

theorem act (h : Kept s t) (a : Nat) : Kept s (t.act a) := by
  unfold State.act; split
  · exact h
  · split
    · exact h.muteAll _
    · exact h.closeAll _
    · exact (h.closeAll _).emptyQueue _ _

theorem openChair (h : Kept s t) (n : Nat) (c : MicCause) : Kept s (t.openChair n c) := by
  unfold State.openChair; split
  · split
    · exact h.enterOpening _ _ _
    · exact h.refusePress _ _
  · exact h

theorem activate (h : Kept s t) (a : Nat) (cs : List Nat) : Kept s (t.activate a cs) := by
  unfold State.activate; split
  · exact h
  · refine Kept.fold ?_ _ (fun _ _ hv => hv.openChair _ _) _
    split
    · exact h
    · refine Kept.act (h.modRoom _ _ ?_) _; exact fun _ => ⟨rfl, rfl, rfl, rfl, rfl, .refl _⟩

theorem unmuteAll (h : Kept s t) (a : Nat) : Kept s (t.unmuteAll a) := by
  unfold State.unmuteAll; split
  · exact h
  · exact h.fold _ (fun v n hv => (hv.keepSeat n { v.seat n with muted := false } rfl).noteMic _ _ _) _

theorem endPriority (h : Kept s t) (a : Nat) : Kept s (t.endPriority a) := by
  unfold State.endPriority; refine Kept.unmuteAll (h.modRoom _ _ ?_) _; exact fun _ => ⟨rfl, rfl, rfl, rfl, rfl, .refl _⟩

end Kept

end Sys2Proof.Machine
end

