-- ==== Sys2Proof/Laws/KeptRooms.lean ====
section
/-! SUPPORT. `Kept` for the channels, the booths, the sessions, the answers of the units, and merges and splits. -/

namespace Sys2Proof.Machine.Kept

variable {s t : State}

/-! ## Reading the channels -/

theorem mem_tkeys {α : Type} {p : Nat → α → Bool} {tb : Table α} {k : Nat} (h : k ∈ tkeys p tb) :
    ∃ v, (k, v) ∈ tb ∧ p k v = true := by
  simp only [tkeys, List.mem_map, List.mem_filter] at h
  obtain ⟨⟨j, v⟩, ⟨h1, h2⟩, rfl⟩ := h
  exact ⟨v, h1, h2⟩

/-- A listed record of a canonical table is the record of its number. -/
theorem tget_of_mem {α : Type} [DecidableEq α] {d : α} {tb : Table α} (h : twf d tb = true) {k : Nat} {v : α}
    (hm : (k, v) ∈ tb) : tget d tb k = v := by
  induction tb with
  | nil => cases hm
  | cons x r ih =>
    obtain ⟨j, w⟩ := x
    simp only [twf, Bool.and_eq_true, decide_eq_true_eq, List.all_eq_true] at h
    rcases List.mem_cons.1 hm with e | e
    · cases e; simp [tget]
    · have : j < k := h.1.2 _ e
      simp only [tget, if_neg (Nat.ne_of_lt this)]
      exact ih h.2 e

/-- A record that is not the default is listed. -/
theorem mem_of_tget {α : Type} {d : α} {tb : Table α} {k : Nat} {v : α} (hv : v ≠ d) (h : tget d tb k = v) :
    (k, v) ∈ tb := by
  induction tb with
  | nil => exact absurd h.symm hv
  | cons x r ih =>
    obtain ⟨j, w⟩ := x
    simp only [tget] at h
    split at h
    · subst_vars; exact List.mem_cons_self ..
    · exact List.mem_cons_of_mem _ (ih h)

theorem slotOf_some {tb : SlotTable} (h : twf none tb.slots = true) {key : Key} {k : Nat} (e : tb.slotOf key = some k) :
    tget none tb.slots k = some key := by
  obtain ⟨v, h1, h2⟩ := mem_tkeys (List.mem_of_head? e)
  simp only [decide_eq_true_eq] at h2
  exact h2 ▸ tget_of_mem h h1

theorem slotOf_none {tb : SlotTable} {key : Key} (e : tb.slotOf key = none) (k : Nat) :
    tget none tb.slots k ≠ some key := by
  intro hk
  have := mem_of_tget (by simp) hk
  simp only [SlotTable.slotOf, List.head?_eq_none_iff, tkeys, List.map_eq_nil_iff, List.filter_eq_nil_iff] at e
  exact absurd (e _ this) (by simp)

theorem positionOf_none {key : Key} {keys : List Key} {i : Nat} (e : positionOf key keys i = none) : key ∉ keys := by
  induction keys generalizing i with
  | nil => simp
  | cons x xs ih =>
    simp only [positionOf] at e
    split at e
    · cases e
    · rename_i hx
      simp only [List.mem_cons, not_or]
      exact ⟨fun h => hx h.symm, ih e⟩

/-- A key without a channel stands in no slot and not on the list. -/
theorem absent_of_hasChannel {t : State} {key : Key} (h : ¬ t.hasChannel key = true) :
    (∀ k, tget none t.dist.allocation.slots k ≠ some key) ∧ key ∉ t.dist.unserved := by
  cases e1 : t.dist.allocation.slotOf key with
  | some k => exact absurd (by simp [State.hasChannel, State.service, e1]) h
  | none =>
    cases e2 : positionOf key t.dist.unserved 1 with
    | some i => exact absurd (by simp [State.hasChannel, State.service, e1, e2]) h
    | none => exact ⟨slotOf_none e1, positionOf_none e2⟩

/-! ## Channels -/

theorem twf_setSlot {t : State} (x : t.ChannelsOk) (k : Nat) (y : Option Key) :
    twf none (t.setSlot k y).dist.allocation.slots = true := twf_tset none _ k y x.canonical

/-- A slot and the unserved list, written so that the channels stay in order. -/
theorem setChannels (h : Kept s t) (k : Nat) (y : Option Key) (us : List Key)
    (hx : t.ChannelsOk → ((t.setSlot k y).setUnserved us).ChannelsOk) : Kept s ((t.setSlot k y).setUnserved us) :=
  h.outside (u := (t.setSlot k y).setUnserved us) (fun _ x => ⟨x.1, x.2, x.3⟩) hx
theorem setSlot (h : Kept s t) (k : Nat) (y : Option Key) (hx : t.ChannelsOk → (t.setSlot k y).ChannelsOk) :
    Kept s (t.setSlot k y) := h.outside (u := t.setSlot k y) (fun _ x => ⟨x.1, x.2, x.3⟩) hx
theorem setUnserved (h : Kept s t) (us : List Key) (hx : t.ChannelsOk → (t.setUnserved us).ChannelsOk) :
    Kept s (t.setUnserved us) := h.outside (u := t.setUnserved us) (fun _ x => ⟨x.1, x.2, x.3⟩) hx

theorem makeChannel (h : Kept s t) (key : Key) : Kept s (t.makeChannel key) := by
  unfold State.makeChannel; split
  · exact h
  · obtain ⟨n1, n2⟩ := absent_of_hasChannel ‹_›
    split
    · rename_i k hk
      have f := List.find?_some hk
      have m := List.mem_of_find?_eq_some hk
      simp only [decide_eq_true_eq] at f
      have hk1 : 12 ≤ k ∧ k ≤ 63 := by
        simp only [languageSlots, List.mem_map, List.mem_range] at m
        omega
      refine Kept.queueRoomMaps (h.setSlot k _ fun x => ?_) _
      constructor
      · exact twf_setSlot x _ _
      · intro j y hy
        rw [show (t.setSlot k (some key)).dist.allocation.slots = tset none t.dist.allocation.slots k (some key) from rfl,
          tget_tset] at hy
        split at hy
        · subst_vars; exact hk1
        · exact x.language j y hy
      · intro i j y hi hj
        simp only [State.setSlot, tget_tset] at hi hj
        split at hi <;> split at hj
        · subst_vars; rfl
        · cases hi; exact absurd hj (n1 j)
        · cases hj; exact absurd hi (n1 i)
        · exact x.one i j y hi hj
      · intro j y hy
        simp only [State.setSlot, tget_tset] at hy
        split at hy
        · cases hy; exact n2
        · exact x.apart j y hy
      · exact x.once
      · intro hu j h1 h2
        exact absurd f (x.full hu k hk1.1 hk1.2)
    · rename_i hk
      refine Kept.queueRoomMaps (Kept.note (h.setUnserved _ fun x => ?_) _) _
      refine ⟨x.canonical, x.language, x.one, ?_, ?_, ?_⟩
      · intro j y hy hm
        rcases List.mem_append.1 hm with hm | hm
        · exact x.apart j y hy hm
        · rw [List.mem_singleton.1 hm] at hy; exact n1 j hy
      · exact List.nodup_append.2 ⟨x.once, List.nodup_singleton _, fun a ha b hb => by
          rw [List.mem_singleton.1 hb]; exact fun e => n2 (e ▸ ha)⟩
      · intro _ j h1 h2
        simp only [State.freeLanguageSlot, List.find?_eq_none, decide_eq_true_eq] at hk
        refine hk j ?_
        simp only [languageSlots, List.mem_map, List.mem_range]
        exact ⟨j - 12, by omega, by omega⟩

theorem makeChannels (h : Kept s t) (keys : List Key) : Kept s (t.makeChannels keys) :=
  h.fold _ (fun _ _ hv => hv.makeChannel _) keys

/-- The slot given is one that a channel has. -/
theorem giveSlot (h : Kept s t) (k : Nat) (hk : t.ChannelsOk → ∃ key, tget none t.dist.allocation.slots k = some key) :
    Kept s (t.giveSlot k) := by
  unfold State.giveSlot; split
  · rename_i hu
    refine h.setSlot k none fun x => ?_
    refine ⟨twf_setSlot x _ _, ?_, ?_, ?_, x.once, fun hn => absurd hu hn⟩
    · intro j y hy
      simp only [State.setSlot, tget_tset] at hy
      split at hy
      · cases hy
      · exact x.language j y hy
    · intro i j y hi hj
      simp only [State.setSlot, tget_tset] at hi hj
      split at hi <;> split at hj <;> first | cases hi | cases hj | exact x.one i j y hi hj
    · intro j y hy
      simp only [State.setSlot, tget_tset] at hy
      split at hy
      · cases hy
      · exact x.apart j y hy
  · rename_i head rest hu
    refine Kept.queueRoomMaps (Kept.note (h.setChannels k _ rest fun x => ?_) _) _
    obtain ⟨old, ho⟩ := hk x
    have nd := x.once
    rw [hu, List.nodup_cons] at nd
    have hh : ∀ j, tget none t.dist.allocation.slots j ≠ some head := fun j hj =>
      x.apart j head hj (by rw [hu]; exact List.mem_cons_self ..)
    refine ⟨twf_setSlot x _ _, ?_, ?_, ?_, nd.2, ?_⟩
    · intro j y hy
      simp only [State.setSlot, State.setUnserved, tget_tset] at hy
      split at hy
      · subst_vars; exact x.language _ old ho
      · exact x.language j y hy
    · intro i j y hi hj
      simp only [State.setSlot, State.setUnserved, tget_tset] at hi hj
      split at hi <;> split at hj
      · subst_vars; rfl
      · cases hi; exact absurd hj (hh j)
      · cases hj; exact absurd hi (hh i)
      · exact x.one i j y hi hj
    · intro j y hy
      simp only [State.setSlot, State.setUnserved, tget_tset] at hy ⊢
      split at hy
      · cases hy; exact nd.1
      · exact fun hm => x.apart j y hy (by rw [hu]; exact List.mem_cons_of_mem _ hm)
    · intro _ j h1 h2
      simp only [State.setSlot, State.setUnserved, tget_tset]
      split
      · simp
      · exact x.full (by rw [hu]; simp) j h1 h2

theorem removeUnserved (h : Kept s t) (key : Key) : Kept s (t.removeUnserved key) := by
  unfold State.removeUnserved; split
  · exact h
  · refine Kept.queueRoomMaps (Kept.note (h.setUnserved _ fun x => ?_) _) _
    refine ⟨x.canonical, x.language, x.one, fun j y hy hm => x.apart j y hy (List.mem_of_mem_filter hm),
      x.once.filter _, fun hn => x.full ?_⟩
    intro e
    refine hn ?_
    show t.dist.unserved.filter _ = []
    rw [e]; rfl

theorem removeServed (h : Kept s t) (key : Key) : Kept s (t.removeServed key) := by
  unfold State.removeServed; split
  · exact h
  · rename_i k hk
    have same : (t.queueRoomMaps key.anchor).dist = t.dist := by
      unfold State.queueRoomMaps; split
      · rfl
      · have fold : ∀ {α : Type} (f : State → α → State), (∀ v x, (f v x).dist = v.dist) → ∀ (xs : List α) (v : State),
            (xs.foldl f v).dist = v.dist := by
          intro α f hf xs
          induction xs with
          | nil => intro v; rfl
          | cons y ys ih => intro v; exact (ih _).trans (hf v y)
        exact fold _ (fun v i => fold _ (fun w k => by unfold State.join; split <;> rfl) _ v) _ t
    exact (h.queueRoomMaps _).giveSlot k fun x =>
      ⟨key, by rw [same]; exact slotOf_some (by simpa only [same] using x.canonical) hk⟩

theorem removeChannels (h : Kept s t) (keys : List Key) : Kept s (t.removeChannels keys) :=
  (h.fold _ (fun _ _ hv => hv.removeUnserved _) _).fold _ (fun _ _ hv => hv.removeServed _) _

theorem rekey (h : Kept s t) (old new : Key) : Kept s (t.rekey old new) := by
  unfold State.rekey; split
  · exact h
  · obtain ⟨n1, n2⟩ := absent_of_hasChannel ‹_›
    split
    · rename_i k hk
      refine h.setSlot k _ fun x => ?_
      have ho := slotOf_some x.canonical hk
      refine ⟨twf_setSlot x _ _, ?_, ?_, ?_, x.once, ?_⟩
      · intro j y hy
        simp only [State.setSlot, tget_tset] at hy
        split at hy
        · subst_vars; exact x.language _ old ho
        · exact x.language j y hy
      · intro i j y hi hj
        simp only [State.setSlot, tget_tset] at hi hj
        split at hi <;> split at hj
        · subst_vars; rfl
        · cases hi; exact absurd hj (n1 j)
        · cases hj; exact absurd hi (n1 i)
        · exact x.one i j y hi hj
      · intro j y hy
        simp only [State.setSlot, tget_tset] at hy
        split at hy
        · cases hy; exact n2
        · exact x.apart j y hy
      · intro hn j h1 h2
        simp only [State.setSlot, tget_tset]
        split
        · simp
        · exact x.full hn j h1 h2
    · refine h.setUnserved _ fun x => ?_
      refine ⟨x.canonical, x.language, x.one, ?_, ?_, ?_⟩
      · intro j y hy hm
        obtain ⟨z, hz, e⟩ := List.mem_map.1 hm
        split at e
        · rw [← e] at hy; exact n1 j hy
        · rw [e] at hz; exact x.apart j y hy hz
      · refine List.Nodup.map_on ?_ x.once
        intro a ha b hb e
        split at e <;> split at e
        · subst_vars; rfl
        · rw [← e] at hb; exact absurd hb n2
        · rw [e] at ha; exact absurd ha n2
        · exact e
      · intro hn
        refine x.full fun e => hn ?_
        show t.dist.unserved.map _ = []
        rw [e]; rfl

theorem keepAnchors (h : Kept s t) : Kept s t.keepAnchors := h.setAnchorSet _

/-! ## Booths -/

theorem relisten (h : Kept s t) (b : Nat) : Kept s (t.relisten b) := by
  unfold State.relisten; dsimp only; split
  · exact h
  · split
    · exact (((h.setBooth _ _).note _).raiseBooth _ _).settleCounts
    · exact (h.setBooth _ _).note _
    · exact h.setBooth _ _

theorem relistenIn (h : Kept s t) (ks : List Nat) : Kept s (t.relistenIn ks) := h.fold _ (fun _ _ hv => hv.relisten _) _

theorem reconsoleIn (h : Kept s t) (ks : List Nat) : Kept s (t.reconsoleIn ks) :=
  h.fold _ (fun _ _ hv => hv.reconsole _) _

theorem boothWork (h : Kept s t) (a : Nat) : Kept s (t.boothWork a) := (h.relistenIn _).reconsoleIn _

theorem consoleWork (h : Kept s t) (c : Nat) : Kept s (t.consoleWork c) := by
  unfold State.consoleWork; split
  · exact h.reconsole _
  · exact h.boothWork _

/-- A move whose state and channel agree, to a channel that no other console owns. -/
theorem moveConsole (h : Kept s t) (c : Nat) (x : ConsoleState) (k : Option Key)
    (hx : s.OwnersOk → t.OwnersOk → (k.isSome = true ↔ x = .cueing ∨ x = .onAir) ∧
      ∀ key, k = some key → ∀ d, d ≠ c → (t.console d).owned ≠ some key) : Kept s (t.moveConsole c x k) := by
  unfold State.moveConsole
  exact (h.setConsole c { t.console c with state := x, owned := k } hx).showConsole c

/-- A move to a state without a channel. -/
theorem moveFree (h : Kept s t) (c : Nat) (x : ConsoleState) (hx : x ≠ .cueing ∧ x ≠ .onAir) :
    Kept s (t.moveConsole c x none) :=
  h.moveConsole c x none fun _ _ => ⟨⟨nofun, fun e => by rcases e with e | e <;> simp [e] at hx⟩, nofun⟩

theorem release (h : Kept s t) (c : Nat) (k : BoothCause) (x : Option Nat) : Kept s (t.release c k x) :=
  (h.moveFree _ _ (by decide)).noteConsole _ _ _ _

theorem displace (h : Kept s t) (c : Nat) (k : DisplacedCause) (a : Nat) (key : Key) : Kept s (t.displace c k a key) :=
  (h.moveFree _ _ (by decide)).note _

/-- No console owns a channel without owner. -/
theorem owned_of_ownerOf_none {t : State} {key : Key} (e : t.ownerOf key = none) (d : Nat) :
    (t.console d).owned ≠ some key := by
  intro hd
  have := mem_of_tget (d := Console.initial) (k := d) (v := t.console d)
    (by intro h; rw [h] at hd; cases hd) rfl
  simp only [State.ownerOf, List.head?_eq_none_iff, tkeys, List.map_eq_nil_iff, List.filter_eq_nil_iff] at e
  exact absurd (e _ this) (by simp [hd])

/-- The owner of a channel owns it. -/
theorem owned_of_ownerOf {t : State} (x : t.OwnersOk) {key : Key} {o : Nat} (e : t.ownerOf key = some o) :
    (t.console o).owned = some key := by
  obtain ⟨v, h1, h2⟩ := mem_tkeys (List.mem_of_head? e)
  simp only [decide_eq_true_eq] at h2
  exact h2 ▸ congrArg Console.owned (tget_of_mem x.canonical h1)

/-- An owner's channel is re-keyed. -/
theorem rekeyOwner (h : Kept s t) (c : Nat) (key : Key) (hc : t.OwnersOk → (t.console c).owned.isSome = true) :
    Kept s (t.rekeyOwner c key) := by
  unfold State.rekeyOwner; split
  · refine h.setConsole _ _ fun _ x => ⟨⟨fun _ => (x.owner c).1 (hc x), fun _ => rfl⟩, fun k e d _ => ?_⟩
    cases e
    exact owned_of_ownerOf_none ‹_› d
  · exact h

theorem releaseOwners (h : Kept s t) (keys : List Key) (k : BoothCause) : Kept s (t.releaseOwners keys k) :=
  h.fold _ (fun _ _ hv => by split <;> first | exact hv | exact hv.release _ _ _) _

/-! ## Sessions -/

theorem enterSession (h : Kept s t) (a : Nat) (c : SessionCause) (w : Option Waker) : Kept s (t.enterSession a c w) := by
  unfold State.enterSession; split
  · exact h
  · dsimp only
    refine Kept.promote (Kept.boothWork ?_ _) _
    split
    · refine Kept.reformAll (Kept.queueMaps (Kept.makeChannels (Kept.note (h.modRoom _ _ ?_) _) _) _) _
      exact fun _ => ⟨rfl, rfl, rfl, rfl, rfl, .refl _⟩
    · refine Kept.activate (Kept.reformAll (Kept.queueMaps (Kept.makeChannels (Kept.note (h.modRoom _ _ ?_) _) _) _) _) _ _
      exact fun _ => ⟨rfl, rfl, rfl, rfl, rfl, .refl _⟩

theorem wake (h : Kept s t) (a : Nat) (p : Wake → Bool) (c : SessionCause) (w : Option Waker) : Kept s (t.wake a p c w) := by
  unfold State.wake; split
  · exact h
  · split
    · exact h.enterSession _ _ _
    · exact h

theorem passToDormant (h : Kept s t) (a : Nat) : Kept s (t.passToDormant a) := by
  unfold State.passToDormant; split
  · exact h
  · dsimp only
    refine Kept.boothWork (Kept.reformAll (Kept.modRoom (Kept.queueMaps (Kept.removeChannels (Kept.note (h.modRoom _ _ ?_) _) _) _)
      _ _ ?_) _) _ <;> exact fun _ => ⟨rfl, rfl, rfl, rfl, rfl, .refl _⟩

theorem passIfEmpty (h : Kept s t) (a : Nat) : Kept s (t.passIfEmpty a) := by
  unfold State.passIfEmpty; split
  · exact h
  · split
    · exact h.passToDormant _
    · exact h

theorem passSeatRoom (h : Kept s t) (n : Nat) : Kept s (t.passSeatRoom n) := by
  unfold State.passSeatRoom; split
  · exact h
  · exact h.passIfEmpty _

theorem closeSession (h : Kept s t) (a : Nat) : Kept s (t.closeSession a) := by
  unfold State.closeSession; split
  · exact h
  · exact h.fold _ (fun _ _ hv => hv.enterClosing _ _) _

theorem endSession (h : Kept s t) (a : Nat) : Kept s (t.endSession a) := by
  unfold State.endSession; split
  · exact h
  · dsimp only
    refine Kept.passIfEmpty (Kept.boothWork (Kept.fold (Kept.closeSession ?_ _) _ (fun _ _ hv => hv.release _ _ _) _) _) _
    split
    · refine Kept.endPriority (Kept.emptyQueue (Kept.note (h.modRoom _ _ ?_) _) _ _) _; exact fun _ => ⟨rfl, rfl, rfl, rfl, rfl, .refl _⟩
    · refine Kept.emptyQueue (Kept.note (h.modRoom _ _ ?_) _) _ _; exact fun _ => ⟨rfl, rfl, rfl, rfl, rfl, .refl _⟩

/-! ## Presses and acknowledgements -/

/-- The room of a seat, by its anchor. -/
theorem seatRoom_eq {t : State} {n a : Nat} {r : Room} (ha : t.seatAnchor n = some a) (hr : t.room a = some r) :
    t.seatRoom n = some r := by
  simp only [State.seatAnchor] at ha
  simp only [State.seatRoom, State.roomOf, ha]
  exact hr

theorem pressIdleDelegate (h : Kept s t) (n a : Nat) (r : Room) (hr : t.seatRoom n = some r) :
    Kept s (t.pressIdleDelegate n a r) := by
  unfold State.pressIdleDelegate; dsimp only
  have k : Kept s (if t.queueFull r = true then t.refusePress n .queueFull else (t.joinQueue n .press).promote a) := by
    split
    · exact h.refusePress _ _
    · rename_i hq
      refine (h.joinQueue n _ fun q hn => ?_).promote _
      rw [hr] at hn
      obtain rfl := Option.some.inj hn
      simp only [State.queueFull, Bool.or_eq_true, decide_eq_true_eq, not_or, Nat.not_le] at hq
      exact hq.1
  split
  · exact h.refusePress _ _
  · split
    · split
      · exact h.enterOpening _ _ _
      · split
        · exact k
        · exact h.refusePress _ _
    · exact k

theorem pressDelegate (h : Kept s t) (n a : Nat) (r : Room) (hr : t.seatRoom n = some r) : Kept s (t.pressDelegate n a r) := by
  unfold State.pressDelegate
  split
  · exact h.pressIdleDelegate _ _ _ hr
  · split
    · exact h.withdraw _ _
    · exact h
  · split
    · exact (h.enterClosing _ _).promote _
    · exact h
  · split
    · exact (h.enterClosing _ _).promote _
    · exact h
  · exact h

theorem pressChair (h : Kept s t) (n a : Nat) : Kept s (t.pressChair n a) := by
  unfold State.pressChair
  split
  · exact h.openChair _ _
  · exact (h.enterClosing _ _).promote _
  · exact (h.enterClosing _ _).promote _
  · exact h

theorem togglePending (h : Kept s t) (n : Nat) : Kept s (t.togglePending n) := by
  unfold State.togglePending; refine h.keepSeat _ _ ?_; rfl

theorem handlePress (h : Kept s t) (n : Nat) : Kept s (t.handlePress n) := by
  unfold State.handlePress
  split
  · exact h.togglePending _
  · split
    · exact h
    · split
      · exact h
      · split
        · split
          · exact h.pressDelegate _ _ _ (seatRoom_eq ‹_› ‹_›)
          · exact h.pressChair _ _
        · exact h

theorem micPress (h : Kept s t) (n : Nat) : Kept s (t.micPress n) := by
  unfold State.micPress; split
  · exact h.handlePress _
  · split
    · exact (h.wake _ _ _ _).handlePress _
    · exact (h.wake _ _ _ _).handlePress _

theorem seatOpened (h : Kept s t) (n : Nat) : Kept s (t.seatOpened n) := by
  unfold State.seatOpened; dsimp only; split
  · refine Kept.settleCounts (Kept.raiseSeat (Kept.reseat (Kept.noteMic (Kept.countLive (h.keepSeat n _ ?_)) _ _ _) _) _ _); rfl
  · exact h

theorem seatClosed (h : Kept s t) (n : Nat) : Kept s (t.seatClosed n) := by
  unfold State.seatClosed; dsimp only; split
  · refine Kept.promoteAfterSlot (Kept.passSeatRoom (Kept.settleCounts (Kept.raiseSeat (Kept.reseat (Kept.noteMic
      (Kept.modSeatRoom (h.setSeat n _ ?_) n _ ?_) _ _ _) _) _ _)) _) _
    · exact .inr (.inl rfl)
    · exact fun _ => ⟨rfl, rfl, rfl, rfl, rfl, .refl _⟩
  · exact h

theorem priorityReleased (h : Kept s t) (a : Nat) : Kept s (t.priorityReleased a) := by
  unfold State.priorityReleased; split
  · exact h
  · split
    · exact (h.endPriority _).promote _
    · exact h

theorem chairHeld (h : Kept s t) (n : Nat) (b : Bool) : Kept s (t.chairHeld n b) := by
  unfold State.chairHeld; split
  · exact h
  · split
    · split
      · exact h.activate _ _
      · exact h.wake _ _ _ _
      · exact h
    · exact h.priorityReleased _

theorem seatFound (h : Kept s t) (n : Nat) : Kept s (t.seatFound n) := by
  unfold State.seatFound; split
  · refine Kept.reseat (Kept.noteMic (h.keepSeat n _ ?_) _ _ _) _; rfl
  · exact h

theorem seatLost (h : Kept s t) (n : Nat) (b : Bool) : Kept s (t.seatLost n b) := by
  unfold State.seatLost; dsimp only
  have k : ∀ v, Kept s v → Kept s (if b = true then (v.passSeatRoom n).promoteAfterSlot n else (v.passSeatRoom n).promoteSeat n) := by
    intro v hv; split
    · exact (hv.passSeatRoom _).promoteAfterSlot _
    · exact (hv.passSeatRoom _).promoteSeat _
  refine k _ (Kept.settleCounts (Kept.raiseSeat (Kept.reseat (Kept.noteMic
      (Kept.modSeatRoom (Kept.setSeat ?_ n _ ?_) n _ ?_) _ _ _) _) _ _))
  · split
    · exact h.unqueue _
    · exact h
  · exact .inr (.inl rfl)
  · exact fun _ => ⟨rfl, rfl, rfl, rfl, rfl, .refl _⟩

theorem takeChannel (h : Kept s t) (c : Nat) (key : Key)
    (hx : s.OwnersOk → ∀ d, d ≠ c → (t.console d).owned ≠ some key) : Kept s (t.takeChannel c key) :=
  (h.moveConsole c .cueing (some key) fun k _ => ⟨⟨fun _ => .inl rfl, fun _ => rfl⟩, fun y e => by
    cases e; exact hx k⟩).noteConsole _ _ _ _

/-- What a release leaves of the consoles. -/
theorem release_owned (t : State) (o c : Nat) (k : BoothCause) (x : Option Nat) :
    ((t.release o k x).console c).owned = if c = o then none else (t.console c).owned := by
  have note : ∀ (v : State) (a : ConsoleState), ((v.noteConsole o a k x).console c).owned = (v.console c).owned := fun _ _ => rfl
  have check : ∀ (v : State) (i a : Nat), ((v.check i a).console c) = v.console c := by
    intro v i a
    unfold State.check; split
    · unfold State.join; split <;> rfl
    · rfl
  unfold State.release State.moveConsole State.showConsole
  rw [note, check, State.setConsole_console]
  split
  · simp
  · rw [State.setConsole_console, if_neg ‹_›]

theorem pressReady (h : Kept s t) (c : Nat) : Kept s (t.pressReady c) := by
  unfold State.pressReady; split
  · exact h.noteConsole _ _ _ _
  · dsimp only; split
    · exact h.noteConsole _ _ _ _
    · split
      · exact h.noteConsole _ _ _ _
      · split
        · exact h.takeChannel _ _ fun _ d _ => owned_of_ownerOf_none ‹_› d
        · rename_i o ho
          split
          · exact h.noteConsole _ _ _ _
          · refine Kept.settleCounts (Kept.raiseBooth (h.trans (((Kept.refl t).release o .takeover (some c)).takeChannel c _
              fun k d _ e => ?_)) _ _)
            -- the owner has been released, and there was no other
            rw [release_owned] at e
            split at e
            · cases e
            · exact absurd (k.one d o _ e (owned_of_ownerOf k ho)) ‹_›

theorem handleOnAir (h : Kept s t) (c : Nat) : Kept s (t.handleOnAir c) := by
  unfold State.handleOnAir; split
  · exact (h.pressReady _).consoleWork _
  · exact (h.release _ _ _).consoleWork _
  · exact (h.release _ _ _).consoleWork _
  · exact h

theorem onAirPress (h : Kept s t) (c : Nat) : Kept s (t.onAirPress c) := by
  unfold State.onAirPress; split
  · exact h.handleOnAir _
  · exact (h.wake _ _ _ _).handleOnAir _

theorem consoleOpened (h : Kept s t) (c : Nat) : Kept s (t.consoleOpened c) := by
  unfold State.consoleOpened; split
  · rename_i hc
    refine ((h.moveConsole c .onAir (t.console c).owned fun _ k => ⟨?_, fun key e d hd f => hd (k.one d c key f e)⟩).noteConsole
      _ _ _ _).consoleWork _
    exact ⟨fun _ => .inr rfl, fun _ => (k.owner c).2 (.inl hc)⟩
  · exact h

theorem consoleClosed (h : Kept s t) (c : Nat) : Kept s (t.consoleClosed c) := by
  unfold State.consoleClosed; split
  · rename_i hc
    refine ((h.moveConsole c .ready (t.console c).owned fun _ k => ⟨?_, fun key e d hd f => hd (k.one d c key f e)⟩).noteConsole
      _ _ _ _).consoleWork _
    rw [k.owner c, hc]
    simp
  · exact h

theorem coughHeld (h : Kept s t) (c : Nat) (b : Bool) : Kept s (t.coughHeld c b) := by
  unfold State.coughHeld; dsimp only; split
  · exact (h.keepConsole c { t.console c with cough := b } rfl rfl).noteConsole _ _ _ _
  · exact h.keepConsole c { t.console c with cough := b } rfl rfl

theorem consoleFound (h : Kept s t) (c : Nat) : Kept s (t.consoleFound c) := by
  unfold State.consoleFound; split
  · exact ((h.moveFree _ _ (by decide)).noteConsole _ _ _ _).consoleWork _
  · exact h

theorem consoleLost (h : Kept s t) (c : Nat) : Kept s (t.consoleLost c) :=
  ((((h.moveFree _ _ (by decide)).noteConsole _ _ _ _).raiseBooth _ _).settleCounts).consoleWork _

theorem acknowledge (h : Kept s t) (i a : Nat) (k : AckOf) : Kept s (t.acknowledge i a k) := by
  unfold State.acknowledge; split
  · split
    · exact h.seatOpened _
    · exact h.consoleOpened _
  · split
    · exact h.seatClosed _
    · exact h.consoleClosed _

theorem presses (n i a : Nat) (h : Kept s t) : Kept s (t.presses i a n) := by
  induction n generalizing t with
  | zero => exact h
  | succ n ih =>
    unfold State.presses
    refine ih ?_
    split
    · exact h.micPress _
    · exact h.onAirPress _

theorem heldChanged (h : Kept s t) (i a : Nat) (b : Bool) : Kept s (t.heldChanged i a b) := by
  unfold State.heldChanged; split
  · split
    · exact h.chairHeld _ _
    · exact h
  · exact h.coughHeld _ _

theorem recordHeld (h : Kept s t) (i a : Nat) (b : Bool) : Kept s (t.recordHeld i a b) := by
  unfold State.recordHeld; split
  · exact h
  · exact (h.setUnit _ _ _).heldChanged _ _ _

end Sys2Proof.Machine.Kept
end

