-- ==== Sys2Proof/Laws/KeptBuses.lean ====
section
/-! SUPPORT. `Kept` for merges and splits, the buses, the events of the clock, and the requests of RUN. -/

namespace Sys2Proof.Machine

/-! ## Levels of a room at a change of ceiling -/

/-- A ceiling lies between -120 and 0 steps. -/
theorem State.ceilingOf_range (s : State) (h : s.levelsOk) (ks : List Nat) :
    -120 ≤ s.ceilingOf ks ∧ s.ceilingOf ks ≤ 0 := by
  unfold State.ceilingOf
  suffices ∀ c : Int, -120 ≤ c → c ≤ 0 →
      -120 ≤ ks.foldl (fun c k => min c (s.segment k).maximum) c ∧
        ks.foldl (fun c k => min c (s.segment k).maximum) c ≤ 0 by
    exact this 0 (by omega) (by omega)
  induction ks with
  | nil => intro c h1 h2; exact ⟨h1, h2⟩
  | cons k ks ih =>
    intro c h1 h2
    obtain ⟨m1, m2, -, -⟩ := h.1 k
    exact ih _ (le_min h1 m1) (le_trans (min_le_left _ _) h2)

theorem Room.withCeiling_levelsOk {r : Room} {c : Int} (h : r.levelsOk) (h1 : -120 ≤ c) (h2 : c ≤ 0) :
    (r.withCeiling c).levelsOk := by
  obtain ⟨a, b, d, e, f, g⟩ := h
  refine ⟨?_, ?_, h1, h2, f, g⟩ <;> simp only [Room.withCeiling] <;> omega

theorem mergedRoom_levelsOk {s : State} {p : Room} (q : Room) (h : s.levelsOk) (hp : p.levelsOk) :
    (mergedRoom s p q).levelsOk := by
  obtain ⟨h1, h2⟩ := s.ceilingOf_range h
    (segmentNumbers.filter (fun k => p.segments.contains k || q.segments.contains k))
  exact Room.withCeiling_levelsOk hp h1 h2

theorem halfRoom_levelsOk {s : State} {r : Room} (a : Nat) (ks : List Nat) (h : s.levelsOk) (hr : r.levelsOk) :
    (halfRoom s r a ks).levelsOk := by
  obtain ⟨h1, h2⟩ := s.ceilingOf_range h ks
  exact Room.withCeiling_levelsOk hr h1 h2

/-! ## Lists in ascending order -/

theorem mem_mergeBy {α : Type} {f : α → Nat} {xs ys : List α} {z : α} : z ∈ mergeBy f xs ys ↔ z ∈ xs ∨ z ∈ ys := by
  induction xs generalizing ys with
  | nil => simp [mergeBy]
  | cons x xs ih =>
    have := List.takeWhile_append_dropWhile (p := fun y => decide (f y < f x)) (l := ys)
    simp only [mergeBy, List.mem_append, List.mem_cons, ih]
    rw [show (z ∈ ys) = (z ∈ ys.takeWhile (fun y => decide (f y < f x)) ∨ z ∈ ys.dropWhile (fun y => decide (f y < f x))) by
      rw [← List.mem_append, this]]
    tauto

/-- Two strictly ascending lists without a common value, joined, ascend strictly. -/
theorem mergeBy_rising {α : Type} {f : α → Nat} {xs ys : List α} (hx : xs.Pairwise (fun a b => f a < f b))
    (hy : ys.Pairwise (fun a b => f a < f b)) (hd : ∀ a ∈ xs, ∀ b ∈ ys, f a ≠ f b) :
    (mergeBy f xs ys).Pairwise (fun a b => f a < f b) := by
  induction xs generalizing ys with
  | nil => simpa [mergeBy] using hy
  | cons x xs ih =>
    obtain ⟨x1, x2⟩ := List.pairwise_cons.1 hx
    have split := List.takeWhile_append_dropWhile (p := fun y => decide (f y < f x)) (l := ys)
    have low : ∀ y ∈ ys.takeWhile (fun y => decide (f y < f x)), f y < f x := fun y hm => by
      simpa using List.mem_takeWhile_imp hm
    have sub : (ys.dropWhile (fun y => decide (f y < f x))).Sublist ys := List.dropWhile_sublist _
    have high : ∀ y ∈ ys.dropWhile (fun y => decide (f y < f x)), f x < f y := by
      cases e : ys.dropWhile (fun y => decide (f y < f x)) with
      | nil => simp
      | cons w ws =>
        have hw : ¬ f w < f x := by
          have := List.head_dropWhile_not (p := fun y => decide (f y < f x)) (l := ys) (by simp [e])
          simpa [e] using this
        have hp := hy.sublist sub
        rw [e, List.pairwise_cons] at hp
        have hne : f x ≠ f w := hd x (List.mem_cons_self ..) w (sub.subset (by simp [e]))
        intro y hm
        rcases List.mem_cons.1 hm with rfl | hm
        · omega
        · have := hp.1 y hm; omega
    rw [mergeBy, List.pairwise_append, List.pairwise_cons]
    refine ⟨hy.sublist (List.takeWhile_sublist _), ⟨fun z hz => ?_, ih x2 (hy.sublist sub) fun a ha b hb =>
      hd a (List.mem_cons_of_mem _ ha) b (sub.subset hb)⟩, fun y hm z hz => ?_⟩
    · rcases mem_mergeBy.1 hz with hz | hz
      · exact x1 z hz
      · exact high z hz
    · have := low y hm
      rcases List.mem_cons.1 hz with rfl | hz
      · exact this
      · rcases mem_mergeBy.1 hz with hz | hz
        · have := x1 z hz; omega
        · have := high z hz; omega

/-- Two elements of a strictly ascending list with one value are one. -/
theorem eq_of_rising {α : Type} {f : α → Nat} {xs : List α} (hx : xs.Pairwise (fun a b => f a < f b)) {a b : α}
    (ha : a ∈ xs) (hb : b ∈ xs) (h : f a = f b) : a = b := by
  induction xs with
  | nil => cases ha
  | cons x xs ih =>
    obtain ⟨h1, h2⟩ := List.pairwise_cons.1 hx
    rcases List.mem_cons.1 ha with e1 | h3 <;> rcases List.mem_cons.1 hb with e2 | h4
    · rw [e1, e2]
    · have := h1 b h4; rw [← e1] at this; omega
    · have := h1 a h3; rw [← e2] at this; omega
    · exact ih h2 h3 h4

/-- The first of an ascending list that has this lowest element. -/
theorem head_of_lowest {xs : List Nat} (hx : xs.Pairwise (· < ·)) {a : Nat} (ha : a ∈ xs) (hl : ∀ k ∈ xs, a ≤ k) :
    xs.head? = some a := by
  cases xs with
  | nil => cases ha
  | cons x xs =>
    rcases List.mem_cons.1 ha with rfl | h
    · rfl
    · have h1 := (List.pairwise_cons.1 hx).1 a h
      have h2 := hl x (List.mem_cons_self ..)
      omega

theorem head_le {xs : List Nat} (hx : xs.Pairwise (· < ·)) {a k : Nat} (ha : xs.head? = some a) (hk : k ∈ xs) : a ≤ k := by
  cases xs with
  | nil => cases hk
  | cons x xs =>
    cases ha
    rcases List.mem_cons.1 hk with rfl | h
    · exact le_refl _
    · exact ((List.pairwise_cons.1 hx).1 k h).le

/-- A whole group of segments is given one anchor. -/
theorem foldl_setAnchor (ks : List Nat) (t : State) (x : Option Nat) :
    ∃ m, ks.foldl (fun v k => v.setAnchor k x) t = { t with hall := { t.hall with segmentMap := m } } ∧
      ∀ k, tget none m k = if k ∈ ks then x else t.anchorOf k := by
  induction ks generalizing t with
  | nil => exact ⟨t.hall.segmentMap, rfl, fun k => by simp [State.anchorOf]⟩
  | cons k ks ih =>
    obtain ⟨m, h1, h2⟩ := ih (t.setAnchor k x)
    refine ⟨m, h1, fun j => ?_⟩
    rw [h2, State.setAnchor_anchorOf]
    by_cases e1 : j ∈ ks <;> by_cases e2 : j = k <;> simp [e1, e2]

namespace Kept

variable {s t : State}

/-! ## Merges and splits -/

theorem holdCounts (h : Kept s t) : Kept s t.holdCounts := h.setCounts _

theorem releaseCounts (h : Kept s t) : Kept s t.releaseCounts := (h.setCounts _).settleCounts

theorem noteMergeStates (h : Kept s t) (p q : Room) : Kept s (t.noteMergeStates p q) := by
  unfold State.noteMergeStates; dsimp only
  split <;> split
  · exact h
  · exact h.note _
  · exact h.note _
  · exact (h.note _).note _

theorem trimQueue (h : Kept s t) (cut : List Entry) : Kept s (t.trimQueue cut) := h.fold _ (fun _ _ hv => hv.dropNow _ _) _

theorem mergeChannels (h : Kept s t) (p q : Room) (codes cut : List Nat) : Kept s (t.mergeChannels p q codes cut) :=
  ((h.fold _ (fun _ _ hv => hv.rekey _ _) _).removeChannels _).makeChannels _

theorem mergeOwners (h : Kept s t) (p q : Room) (codes cut kept : List Nat) :
    Kept s (t.mergeOwners p q codes cut kept) := by
  unfold State.mergeOwners; dsimp only
  refine Kept.fold (Kept.fold (Kept.fold h _ ?_ _) _ ?_ _) _ ?_ _
  · intro v x hv; split
    · exact hv
    · exact hv.displace _ _ _ _
  · intro v x hv; split
    · exact hv
    · exact hv.rekeyOwner _ _ fun k => by rw [owned_of_ownerOf k ‹_›]; rfl
  · intro v x hv; split
    · exact hv
    · exact hv.displace _ _ _ _

/-- The room table and the segment map after steps 1 to 4 of a merge. -/
theorem mergeTable (s : State) (a b : Nat) (p q : Room) (hab : a < b) (hp : s.room a = some p) (hq : s.room b = some q) :
    Kept s (q.segments.foldl (fun v k => v.setAnchor k (some p.anchor))
      ((s.holdCounts.setRoom q.anchor none).setRoom p.anchor (some (mergedRoom s p q)))) := by
  obtain ⟨m, h1, h2⟩ := foldl_setAnchor q.segments
    ((s.holdCounts.setRoom q.anchor none).setRoom p.anchor (some (mergedRoom s p q))) (some p.anchor)
  rw [h1]
  have room : ∀ c x, tget none (tset none (tset none s.hall.rooms q.anchor none) p.anchor (some (mergedRoom s p q))) c = some x →
      (c = p.anchor ∧ x = mergedRoom s p q) ∨ (c ≠ p.anchor ∧ c ≠ q.anchor ∧ s.room c = some x) := by
    intro c x
    rw [tget_tset, tget_tset]
    split
    · exact fun e => .inl ⟨‹_›, (Option.some.inj e).symm⟩
    · split
      · nofun
      · exact fun e => .inr ⟨‹_›, ‹_›, e⟩
  refine ⟨rfl, rfl, rfl, ⟨[], rfl⟩, id, fun k => ⟨k.1, fun c x e => ?_⟩, id, fun k => ?_, fun x => ⟨x.1, x.2, x.3⟩,
    fun x => ⟨x.1, x.2, x.3, x.4, x.5, x.6⟩, fun k => ?_⟩
  · rcases room c x e with ⟨-, rfl⟩ | ⟨-, -, e⟩
    · exact mergedRoom_levelsOk q k (k.2 a p hp)
    · exact k.2 c x e
  · have pa := k.anchor a p hp
    have qb := k.anchor b q hq
    have mem : ∀ e ∈ (mergedRoom s p q).queue, e ∈ p.queue ∨ e ∈ q.queue := fun e he =>
      mem_mergeBy.1 (List.mem_of_mem_take he)
    have pq := k.apart a b p q (Nat.ne_of_lt hab) hp hq
    have other : ∀ c x, c ≠ p.anchor → c ≠ q.anchor → s.room c = some x → ∀ e ∈ (mergedRoom s p q).queue, ∀ f ∈ x.queue,
        e.stamp ≠ f.stamp := by
      intro c x c1 c2 hc e he f hf
      rcases mem e he with he | he
      · exact k.apart a c p x (fun h => c1 (by rw [pa, h])) hp hc e he f hf
      · exact k.apart b c q x (fun h => c2 (by rw [qb, h])) hq hc e he f hf
    constructor
    · intro c x e
      rcases room c x e with ⟨rfl, rfl⟩ | ⟨-, -, e⟩
      · rfl
      · exact k.anchor c x e
    · intro c x e
      rcases room c x e with ⟨-, rfl⟩ | ⟨-, -, e⟩
      · exact List.length_take_le _ _
      · exact k.bound c x e
    · intro c x e
      rcases room c x e with ⟨-, rfl⟩ | ⟨-, -, e⟩
      · exact (mergeBy_rising (k.rising a p hp) (k.rising b q hq) pq).sublist (List.take_sublist _ _)
      · exact k.rising c x e
    · intro c x e y hy
      rcases room c x e with ⟨-, rfl⟩ | ⟨-, -, e⟩
      · exact (mem y hy).elim (k.given a p hp y) (k.given b q hq y)
      · exact k.given c x e y hy
    · intro c d x z hcd e f y hy w hw
      rcases room c x e with ⟨rfl, rfl⟩ | ⟨c1, c2, e⟩ <;> rcases room d z f with ⟨rfl, rfl⟩ | ⟨d1, d2, f⟩
      · exact absurd rfl hcd
      · exact other d z d1 d2 f y hy w hw
      · exact (other c x c1 c2 e w hw y hy).symm
      · exact k.apart c d x z hcd e f y hy w hw
  · obtain ⟨pa, ph⟩ := k.anchor a p hp
    obtain ⟨qb, qh⟩ := k.anchor b q hq
    have inAll : ∀ k, 1 ≤ k → k ≤ 12 → k ∈ segmentNumbers := by
      intro k h1 h2; simp only [segmentNumbers]; interval_cases k <;> simp
    have mem : ∀ j, j ∈ (mergedRoom s p q).segments ↔ j ∈ p.segments ∨ j ∈ q.segments := by
      intro j
      show j ∈ segmentNumbers.filter (fun k => p.segments.contains k || q.segments.contains k) ↔ _
      simp only [List.mem_filter, List.contains_eq_mem, Bool.or_eq_true, decide_eq_true_eq]
      refine ⟨And.right, fun h => ⟨?_, h⟩⟩
      have := h.elim (k.numbers a p hp j) (k.numbers b q hq j)
      exact inAll j this.1 this.2
    have rise : (mergedRoom s p q).segments.Pairwise (· < ·) := List.Pairwise.filter _ (by decide)
    have h2' : ∀ j, tget none m j = if j ∈ q.segments then some p.anchor else s.anchorOf j := h2
    constructor
    · intro c x e
      rcases room c x e with ⟨rfl, rfl⟩ | ⟨-, -, e⟩
      · refine ⟨rfl, ?_⟩
        rw [pa]
        refine head_of_lowest rise ((mem a).2 (.inl (List.mem_of_head? ph))) fun j hj => ?_
        rcases (mem j).1 hj with hj | hj
        · exact head_le (k.rising a p hp) ph hj
        · exact hab.le.trans (head_le (k.rising b q hq) qh hj)
      · exact k.anchor c x e
    · intro c x e
      rcases room c x e with ⟨-, rfl⟩ | ⟨-, -, e⟩
      · exact rise
      · exact k.rising c x e
    · intro c x e j hj
      rcases room c x e with ⟨-, rfl⟩ | ⟨-, -, e⟩
      · exact ((mem j).1 hj).elim (k.numbers a p hp j) (k.numbers b q hq j)
      · exact k.numbers c x e j hj
    · intro c x e j
      show _ ↔ tget none m j = some c
      rw [h2']
      have hjq := k.map b q hq j
      rcases room c x e with ⟨rfl, rfl⟩ | ⟨c1, c2, e⟩
      · rw [mem j, pa]
        have hjp := k.map a p hp j
        by_cases hq' : j ∈ q.segments <;> simp [hq', hjp]
      · rw [k.map c x e j]
        by_cases hq' : j ∈ q.segments
        · rw [if_pos hq', hjq.1 hq']
          constructor
          · intro h; exact absurd (Option.some.inj h).symm (fun h => c2 (by rw [qb]; exact h))
          · intro h; exact absurd (Option.some.inj h).symm c1
        · rw [if_neg hq']
    · intro j c e
      show (tget none (tset none (tset none s.hall.rooms q.anchor none) p.anchor (some (mergedRoom s p q))) c).isSome = true
      have e' : tget none m j = some c := e
      rw [h2'] at e'
      rw [tget_tset, tget_tset]
      split
      · rfl
      · split at e'
        · exact absurd (Option.some.inj e').symm ‹_›
        · rename_i hj
          have := k.rooms j c e'
          split
          · rename_i hc
            rw [hc, qb] at e'
            exact absurd ((k.map b q hq j).2 e') hj
          · exact this

theorem mergeRooms (s : State) (a b : Nat) (p q : Room) (hab : a < b) (hp : s.room a = some p) (hq : s.room b = some q) :
    Kept s (s.mergeRooms p q (mergedRoom s p q)) := by
  unfold State.mergeRooms; dsimp only
  exact ((((mergeTable s a b p q hab hp hq).keepAnchors).queueMaps _).noteMergeStates p q).reformAll _

theorem mergeFloor (h : Kept s t) (a : Nat) (m : Room) (cut : List Entry) : Kept s (t.mergeFloor a m cut) := by
  unfold State.mergeFloor; split
  · exact (h.trimQueue cut).muteAll a
  · exact h.trimQueue cut

theorem mergeLanguages (h : Kept s t) (p q m : Room) (kept : List Nat) : Kept s (t.mergeLanguages p q m kept) := by
  unfold State.mergeLanguages; dsimp only; split
  · exact (h.mergeChannels _ _ _ _).mergeOwners _ _ _ _ _
  · exact h

theorem mergeEnd (h : Kept s t) (a : Nat) (m : Room) : Kept s (t.mergeEnd a m) :=
  (((h.queueMaps _).boothWork _).promote _).releaseCounts

theorem mergePriority (h : Kept s t) (a : Nat) (p q m : Room) : Kept s (t.mergePriority a p q m) := by
  unfold State.mergePriority; split
  · exact h.activate _ _
  · exact h

theorem mergeFrom (s : State) (a b : Nat) (hab : a < b) : Kept s (s.merge a b) := by
  unfold State.merge; split
  · exact ((((mergeRooms s a b _ _ hab ‹_› ‹_›).mergeFloor _ _ _).mergeLanguages _ _ _ _).mergeEnd _ _).mergePriority _ _ _ _
  · exact Kept.refl s

theorem merge (h : Kept s t) (a b : Nat) (hab : a < b) : Kept s (t.merge a b) := h.trans (mergeFrom t a b hab)

theorem splitPriority (h : Kept s t) (a : Nat) : Kept s (t.splitPriority a) := by
  unfold State.splitPriority; split
  · exact h
  · split
    · exact h.endPriority _
    · exact h

theorem splitOwners (h : Kept s t) (a c : Nat) (ks : List Nat) : Kept s (t.splitOwners a c ks) := by
  unfold State.splitOwners
  refine h.fold _ ?_ _
  intro v x hv; split
  · exact hv
  · rename_i hx
    split
    · exact (hv.rekeyOwner _ _ fun _ => by rw [hx]; rfl).noteConsole _ _ _ _
    · exact hv

/-- How a room is cut in two: `keep` holds the anchor `a`, and `go`, with the lowest segment `c`, is the rest. -/
structure Cut (r : Room) (a c : Nat) (keep go : List Nat) : Prop where
  sub : keep.Sublist r.segments
  anchor : a ∈ r.segments → a ∈ keep
  rest : go = r.segments.filter (fun k => !(keep.contains k))
  head : go.head? = some c

/-- The room table and the segment map after step 2 of a split. -/
theorem splitTable (s : State) (a c : Nat) (r : Room) (keep go : List Nat) (hr : s.room a = some r) (hc : Cut r a c keep go) :
    Kept s (go.foldl (fun v k => v.setAnchor k (some c))
      ((s.holdCounts.setRoom r.anchor (some (halfRoom s r r.anchor keep))).setRoom c (some (halfRoom s r c go)))) := by
  obtain ⟨m, h1, h2⟩ := foldl_setAnchor go
    ((s.holdCounts.setRoom r.anchor (some (halfRoom s r r.anchor keep))).setRoom c (some (halfRoom s r c go))) (some c)
  rw [h1]
  have room : ∀ d x, tget none (tset none (tset none s.hall.rooms r.anchor (some (halfRoom s r r.anchor keep))) c
      (some (halfRoom s r c go))) d = some x → (d = c ∧ x = halfRoom s r c go) ∨
      (d ≠ c ∧ d = r.anchor ∧ x = halfRoom s r r.anchor keep) ∨ (d ≠ c ∧ d ≠ r.anchor ∧ s.room d = some x) := by
    intro d x
    rw [tget_tset, tget_tset]
    split
    · exact fun e => .inl ⟨‹_›, (Option.some.inj e).symm⟩
    · split
      · exact fun e => .inr (.inl ⟨‹_›, ‹_›, (Option.some.inj e).symm⟩)
      · exact fun e => .inr (.inr ⟨‹_›, ‹_›, e⟩)
  have goMem : ∀ j, j ∈ go ↔ j ∈ r.segments ∧ j ∉ keep := by
    intro j; rw [hc.rest]; simp
  refine ⟨rfl, rfl, rfl, ⟨[], rfl⟩, id, fun k => ⟨k.1, fun d x e => ?_⟩, id, fun k => ?_, fun x => ⟨x.1, x.2, x.3⟩,
    fun x => ⟨x.1, x.2, x.3, x.4, x.5, x.6⟩, fun k => ?_⟩
  · rcases room d x e with ⟨-, rfl⟩ | ⟨-, -, rfl⟩ | ⟨-, -, e⟩
    · exact halfRoom_levelsOk _ _ k (k.2 a r hr)
    · exact halfRoom_levelsOk _ _ k (k.2 a r hr)
    · exact k.2 d x e
  · have ra := k.anchor a r hr
    have sub : ∀ b ks, (halfRoom s r b ks).queue.Sublist r.queue := fun _ _ => List.filter_sublist
    have seg : ∀ b ks e, e ∈ (halfRoom s r b ks).queue → (s.seat e.seat).segment ∈ ks := by
      intro b ks e he
      have := (List.mem_filter.1 he).2
      simpa using this
    -- entries of one queue with one stamp are one entry
    have same : ∀ e ∈ r.queue, ∀ f ∈ r.queue, e.stamp = f.stamp → e = f := fun e he f hf h =>
      eq_of_rising (k.rising a r hr) he hf h
    have halves : ∀ e ∈ (halfRoom s r c go).queue, ∀ f ∈ (halfRoom s r r.anchor keep).queue, e.stamp ≠ f.stamp := by
      intro e he f hf h
      have h' := same e ((sub _ _).subset he) f ((sub _ _).subset hf) h
      subst h'
      exact ((goMem _).1 (seg _ _ e he)).2 (seg _ _ e hf)
    have other : ∀ d x, d ≠ r.anchor → s.room d = some x → ∀ b ks, ∀ e ∈ (halfRoom s r b ks).queue, ∀ f ∈ x.queue,
        e.stamp ≠ f.stamp := fun d x hd hx b ks e he f hf =>
      k.apart a d r x (fun h => hd (by rw [ra, h])) hr hx e ((sub _ _).subset he) f hf
    constructor
    · intro d x e
      rcases room d x e with ⟨rfl, rfl⟩ | ⟨-, rfl, rfl⟩ | ⟨-, -, e⟩
      · rfl
      · rfl
      · exact k.anchor d x e
    · intro d x e
      rcases room d x e with ⟨-, rfl⟩ | ⟨-, -, rfl⟩ | ⟨-, -, e⟩
      · exact (sub _ _).length_le.trans (k.bound a r hr)
      · exact (sub _ _).length_le.trans (k.bound a r hr)
      · exact k.bound d x e
    · intro d x e
      rcases room d x e with ⟨-, rfl⟩ | ⟨-, -, rfl⟩ | ⟨-, -, e⟩
      · exact (k.rising a r hr).sublist (sub _ _)
      · exact (k.rising a r hr).sublist (sub _ _)
      · exact k.rising d x e
    · intro d x e y hy
      rcases room d x e with ⟨-, rfl⟩ | ⟨-, -, rfl⟩ | ⟨-, -, e⟩
      · exact k.given a r hr y ((sub _ _).subset hy)
      · exact k.given a r hr y ((sub _ _).subset hy)
      · exact k.given d x e y hy
    · intro d b x z hdb e f y hy w hw
      rcases room d x e with ⟨rfl, rfl⟩ | ⟨d1, rfl, rfl⟩ | ⟨d1, d2, e'⟩ <;>
        rcases room b z f with ⟨rfl, rfl⟩ | ⟨b1, rfl, rfl⟩ | ⟨b1, b2, f'⟩
      · exact absurd rfl hdb
      · exact halves y hy w hw
      · exact other b z b2 f' _ _ y hy w hw
      · exact (halves w hw y hy).symm
      · exact absurd rfl hdb
      · exact other b z b2 f' _ _ y hy w hw
      · exact (other d x d2 e' _ _ w hw y hy).symm
      · exact (other d x d2 e' _ _ w hw y hy).symm
      · exact k.apart d b x z hdb e' f' y hy w hw
  · obtain ⟨ra, rh⟩ := k.anchor a r hr
    have rise := k.rising a r hr
    have aIn : a ∈ r.segments := List.mem_of_head? rh
    have aKeep : a ∈ keep := hc.anchor aIn
    have cGo : c ∈ go := List.mem_of_head? hc.head
    have cIn := ((goMem c).1 cGo).1
    have hca : c ≠ a := fun h => ((goMem c).1 cGo).2 (h ▸ aKeep)
    have keepRise : keep.Pairwise (· < ·) := rise.sublist hc.sub
    have goRise : go.Pairwise (· < ·) := by rw [hc.rest]; exact rise.filter _
    have h2' : ∀ j, tget none m j = if j ∈ go then some c else s.anchorOf j := h2
    -- no room stood under `c`
    have fresh : ∀ x, s.room c ≠ some x := by
      intro x hx
      have h1 := (k.map c x hx c).1 (List.mem_of_head? (k.anchor c x hx).2)
      have h2 := (k.map a r hr c).1 cIn
      rw [h1] at h2
      exact hca (Option.some.inj h2)
    constructor
    · intro d x e
      rcases room d x e with ⟨rfl, rfl⟩ | ⟨-, rfl, rfl⟩ | ⟨-, -, e⟩
      · exact ⟨rfl, hc.head⟩
      · refine ⟨rfl, ?_⟩
        rw [ra]
        exact head_of_lowest keepRise aKeep fun j hj => head_le rise rh (hc.sub.subset hj)
      · exact k.anchor d x e
    · intro d x e
      rcases room d x e with ⟨-, rfl⟩ | ⟨-, -, rfl⟩ | ⟨-, -, e⟩
      · exact goRise
      · exact keepRise
      · exact k.rising d x e
    · intro d x e j hj
      rcases room d x e with ⟨-, rfl⟩ | ⟨-, -, rfl⟩ | ⟨-, -, e⟩
      · exact k.numbers a r hr j ((goMem j).1 hj).1
      · exact k.numbers a r hr j (hc.sub.subset hj)
      · exact k.numbers d x e j hj
    · intro d x e j
      show _ ↔ tget none m j = some d
      rw [h2']
      have hj := k.map a r hr j
      rcases room d x e with ⟨rfl, rfl⟩ | ⟨d1, rfl, rfl⟩ | ⟨d1, d2, e⟩
      · show j ∈ go ↔ _
        by_cases hg : j ∈ go
        · simp [hg]
        · rw [if_neg hg]
          refine ⟨fun h => absurd h hg, fun h => ?_⟩
          obtain ⟨x, hx⟩ := Option.isSome_iff_exists.1 (k.rooms j _ h)
          exact absurd hx (fresh x)
      · show j ∈ keep ↔ _
        rw [ra]
        by_cases hg : j ∈ go
        · rw [if_pos hg]
          exact ⟨fun h => absurd h ((goMem j).1 hg).2, fun h => absurd (Option.some.inj h) hca⟩
        · rw [if_neg hg, ← hj]
          refine ⟨fun h => hc.sub.subset h, fun h => ?_⟩
          by_contra hk
          exact hg ((goMem j).2 ⟨h, hk⟩)
      · rw [k.map d x e j]
        by_cases hg : j ∈ go
        · rw [if_pos hg, hj.1 ((goMem j).1 hg).1]
          exact ⟨fun h => absurd (by rw [ra]; exact (Option.some.inj h).symm) d2, fun h => absurd (Option.some.inj h).symm d1⟩
        · rw [if_neg hg]
    · intro j d e
      show (tget none (tset none (tset none s.hall.rooms r.anchor (some (halfRoom s r r.anchor keep))) c
        (some (halfRoom s r c go))) d).isSome = true
      have e' : tget none m j = some d := e
      rw [h2'] at e'
      rw [tget_tset, tget_tset]
      split
      · rfl
      · split
        · rfl
        · split at e'
          · exact absurd (Option.some.inj e').symm ‹_›
          · exact k.rooms j d e'

theorem splitRooms (s : State) (a c : Nat) (r : Room) (keep go : List Nat) (hr : s.room a = some r) (hc : Cut r a c keep go) :
    Kept s (s.splitRooms r c keep go) := by
  unfold State.splitRooms; dsimp only
  exact (((splitTable s a c r keep go hr hc).keepAnchors).queueMaps _).note _

theorem splitChannels (h : Kept s t) (c : Nat) : Kept s (t.splitChannels c) := by
  unfold State.splitChannels; split
  · exact h
  · exact h.makeChannels _

theorem splitEnd (h : Kept s t) (a c : Nat) (ks : List Nat) : Kept s (t.splitEnd a c ks) :=
  (((((h.queueMaps _).relistenIn _).reconsoleIn _).promote _).promote _).releaseCounts

theorem splitInto (s : State) (a c : Nat) (r : Room) (keep go : List Nat) (hr : s.room a = some r) (hc : Cut r a c keep go) :
    Kept s (s.splitInto r c keep go) :=
  (((((((splitRooms s a c r keep go hr hc).splitPriority _).splitPriority _).passIfEmpty _).passIfEmpty _).splitChannels
    _).splitOwners _ _ _).splitEnd _ _ _

theorem split (h : Kept s t) (a c : Nat) (keep go : List Nat) (hc : ∀ r, t.room a = some r → Cut r a c keep go) :
    Kept s (t.split a c keep go) := by
  unfold State.split; split
  · exact h
  · exact h.trans (splitInto t a c _ keep go ‹_› (hc _ ‹_›))

/-- The group of a segment among others: some of these, in their order, and the segment itself if it is one of them. -/
theorem groupOf_sub (t : State) (among : List Nat) (k : Nat) :
    (t.groupOf among k).Sublist among ∧ (k ∈ among → k ∈ t.groupOf among k) := by
  unfold State.groupOf
  suffices ∀ (xs : List Nat) (g : List Nat), g.Sublist among → (k ∈ among → k ∈ g) →
      (xs.foldl (fun g _ => t.grow among g) g).Sublist among ∧ (k ∈ among → k ∈ xs.foldl (fun g _ => t.grow among g) g) by
    exact this _ _ List.filter_sublist (fun h => by simp [h])
  intro xs
  induction xs with
  | nil => exact fun g h1 h2 => ⟨h1, h2⟩
  | cons x xs ih =>
    intro g h1 h2
    refine ih _ List.filter_sublist fun h => ?_
    simp [State.grow, h, h2 h]

theorem partitionChanged (h : Kept s t) (p : Nat) : Kept s (t.partitionChanged p) := by
  unfold State.partitionChanged; dsimp only
  split
  · split
    · split
      · exact h.note _
      · exact (h.note _).merge _ _ (by omega)
    · exact h.note _
  · split
    · exact h.note _
    · rename_i a _
      split
      · exact h.note _
      · rename_i r hr
        split
        · exact h.note _
        · rename_i hgo
          refine (h.note _).split _ _ _ _ fun r' hr' => ?_
          obtain rfl := Option.some.inj (hr.symm.trans hr')
          have hs := groupOf_sub t r.segments a
          exact ⟨hs.1, hs.2, rfl, by cases e : r.segments.filter (fun k => !(t.groupOf r.segments a).contains k) with
            | nil => exact absurd e hgo
            | cons x xs => rfl⟩

theorem rederive (h : Kept s t) (p : Nat) : Kept s (t.rederive p) := by
  unfold State.rederive; dsimp only
  have k : ∀ v : State, Kept s v → ∀ (c d : Prop) [Decidable c] [Decidable d] (x y : Notice),
      Kept s (if c then v else if d then v.note x else v.note y) := by
    intro v hv c d _ _ x y
    split
    · exact hv
    · split
      · exact hv.note _
      · exact hv.note _
  split
  · exact Kept.partitionChanged (k _ (h.setPartition _ _) _ _ _ _) _
  · exact k _ (h.setPartition _ _) _ _ _ _

theorem settle (h : Kept s t) (p : Nat) : Kept s (t.settle p) := by
  unfold State.settle; dsimp only
  split
  · refine Kept.rederive (Kept.setPartition (h.setSettling _ _ ?_) _ _) _; exact fun k => k p
  · refine Kept.setPartition (h.setSettling _ _ ?_) _ _; exact fun k => k p

theorem settleIfDue (h : Kept s t) (p : Nat) : Kept s (t.settleIfDue p) := by
  unfold State.settleIfDue; split
  · exact h.settle _
  · exact h

/-! ## Buses -/

theorem carry (h : Kept s t) (i : Nat) (x : Option Exchange) : Kept s (t.carry i x) := h.setBus _ _

theorem poll (h : Kept s t) (i : Nat) : Kept s (t.poll i) := by
  unfold State.poll; split
  · exact h.carry _ _
  · exact (h.carry _ _).setBus _ _

theorem oweMaps (h : Kept s t) (i k : Nat) : Kept s (t.oweMaps i k) :=
  h.fold _ (fun v _ hv => by split <;> first | exact hv.setUnit _ _ _ | exact hv) _

theorem serve (h : Kept s t) (i : Nat) (it : Item) : Kept s (t.serve i it) := by
  unfold State.serve; dsimp only; split
  · exact (h.leave _ _).carry _ _
  · exact ((h.leave _ _).oweMaps _ _).carry _ _

theorem arbitrate (h : Kept s t) (i : Nat) : Kept s (t.arbitrate i) := by
  unfold State.arbitrate; split
  · exact h
  · split
    · exact h.poll _
    · split
      · exact h.poll _
      · exact h.serve _ _

theorem becomePresent (h : Kept s t) (i a : Nat) (c : UnitClass) : Kept s (t.becomePresent i a c) := by
  unfold State.becomePresent; dsimp only
  have k := (h.setUnit i a { t.unit i a with
    presence := .present, misses := 0, assigned := false, mapOwed := false, told := none, reported := some c }).note
      (.unitPresence i a (t.unit i a).presence .present (some c))
  by_cases hi : i < 4
  · simp only [hi, if_true]; exact ((k.seatFound _).check _ _).join _ _
  · simp only [hi, if_false]; exact (k.consoleFound _).check _ _

theorem becomeAbsent (h : Kept s t) (i a : Nat) : Kept s (t.becomeAbsent i a) := by
  unfold State.becomeAbsent; dsimp only
  have k := ((h.leave i (.unit a)).setUnit i a { t.unit i a with
    presence := .absent, assigned := false, mapOwed := false, told := none }).note
      (.unitPresence i a (t.unit i a).presence .absent none)
  by_cases hi : i < 4
  · simp only [hi, if_true]
    split
    · refine Kept.seatLost (Kept.recordHeld (k.setSeat (seatAt i a) _ ?_) _ _ _) _ _
      exact .inr (.inl rfl)
    · exact k
  · simp only [hi, if_false]
    split
    · exact (k.recordHeld _ _ _).consoleLost _
    · exact k

theorem applyStatus (h : Kept s t) (i a : Nat) (c : Command) : Kept s (t.applyStatus i a c) := by
  unfold State.applyStatus; dsimp only; split
  · split
    · exact (h.setUnit _ _ _).join _ _
    · exact h.setUnit _ _ _
  · exact h.setUnit _ _ _
  · exact h

theorem endExchange (h : Kept s t) (i : Nat) : Kept s (t.endExchange i) := by
  unfold State.endExchange; split
  · exact h
  · exact h.setBus _ _

theorem answered (h : Kept s t) (i : Nat) (x : Exchange) (acked : Option AckOf) (n : Nat) (b : Bool) (c : UnitClass) :
    Kept s (t.answered i x acked n b c) := by
  unfold State.answered; dsimp only
  split
  · refine Kept.check (Kept.recordHeld (Kept.presses n i x.address ?_) _ _ _) _ _
    have k := (h.endExchange i).setUnit i x.address { (t.endExchange i).unit i x.address with misses := 0, reported := some c }
    split
    · exact k.applyStatus _ _ _
    · split
      · exact k.acknowledge _ _ _
      · exact k
    · split
      · exact k.acknowledge _ _ _
      · exact k
  · exact (((h.endExchange i).becomePresent _ _ _).recordHeld _ _ _).check _ _

theorem countMiss (h : Kept s t) (i a : Nat) : Kept s (t.countMiss i a) := h.setUnit _ _ _

theorem requeueMissed (h : Kept s t) (i : Nat) (x : Exchange) : Kept s (t.requeueMissed i x) := by
  unfold State.requeueMissed; split
  · exact h
  · exact (h.join _ _).setBus _ _

theorem absentIfThird (h : Kept s t) (i a : Nat) : Kept s (t.absentIfThird i a) := by
  unfold State.absentIfThird; split
  · exact h.becomeAbsent _ _
  · exact h

theorem missExchange (h : Kept s t) (i : Nat) (x : Exchange) : Kept s (t.missExchange i x) :=
  (((h.endExchange i).countMiss i _).requeueMissed i x).absentIfThird i _

theorem lapse (h : Kept s t) (i : Nat) : Kept s (t.lapse i) := by
  unfold State.lapse; split
  · exact h
  · exact h.missExchange _ _

/-! ## The clock -/

theorem takeSecond (h : Kept s t) (c n : Nat) : Kept s (t.takeSecond c n) := by
  unfold State.takeSecond; dsimp only
  refine Kept.settleCounts ?_
  split
  · exact (h.addCounter _ _).setCounter _ _
  · exact h.addCounter _ _

theorem second (h : Kept s t) : Kept s t.second :=
  (h.fold _ (fun _ _ hv => hv.setCounter _ _) counterNumbers).fold _ (fun _ _ hv => hv.takeSecond _ _) _

theorem secondIfDue (h : Kept s t) : Kept s t.secondIfDue := by
  unfold State.secondIfDue; split
  · exact (h.setCounts _).second
  · exact h

theorem expireTimer (h : Kept s t) (a : Nat) : Kept s (t.expireTimer a) := by
  unfold State.expireTimer; split
  · exact h
  · dsimp only
    split
    · refine Kept.enterSession (h.modRoom _ _ ?_) _ _ _; exact fun _ => ⟨rfl, rfl, rfl, rfl, rfl, .refl _⟩
    · refine Kept.note (h.modRoom _ _ ?_) _; exact fun _ => ⟨rfl, rfl, rfl, rfl, rfl, .refl _⟩

theorem nextTimer (h : Kept s t) : Kept s t.nextTimer := by
  unfold State.nextTimer; split
  · exact h
  · exact h.expireTimer _

theorem endHoldOff (h : Kept s t) (n : Nat) : Kept s (t.endHoldOff n) := by
  unfold State.endHoldOff; dsimp only
  split
  · refine Kept.handlePress (Kept.reseat (Kept.noteMic (h.keepSeat n _ ?_) _ _ _) _) _; rfl
  · refine Kept.reseat (Kept.noteMic (h.keepSeat n _ ?_) _ _ _) _; rfl

theorem nextHoldOff (h : Kept s t) : Kept s t.nextHoldOff := by
  unfold State.nextHoldOff; split
  · exact h
  · exact h.endHoldOff _

theorem warnIfDue (h : Kept s t) (n c l : Nat) (r : Room) : Kept s (t.warnIfDue n c l r) := by
  unfold State.warnIfDue; split
  · refine Kept.note (Kept.reform (h.keepSeat n _ ?_) _) _; rfl
  · exact h

theorem limitIfDue (h : Kept s t) (n c l : Nat) (r : Room) : Kept s (t.limitIfDue n c l r) := by
  unfold State.limitIfDue; split
  · split
    · exact ((((h.enterClosing _ _).raiseSeat _ _).settleCounts)).promote _
    · split
      · exact h
      · refine Kept.note (Kept.reform (h.keepSeat n _ ?_) _) _; rfl
  · exact h

theorem clockSecond (h : Kept s t) (n : Nat) : Kept s (t.clockSecond n) := by
  unfold State.clockSecond; dsimp only
  have k : Kept s (t.setSeat n { t.seat n with secondDue := false }) := by refine h.keepSeat n _ ?_; rfl
  split
  · split
    · exact k
    · exact (k.warnIfDue _ _ _ _).limitIfDue _ _ _ _
  · exact k

theorem nextClock (h : Kept s t) : Kept s t.nextClock := by
  unfold State.nextClock; split
  · exact h
  · exact h.clockSecond _

theorem settleRamp (h : Kept s t) (a : Nat) : Kept s (t.settleRamp a) := by
  unfold State.settleRamp; split
  · exact h
  · rename_i r hr
    exact (h.keepRoom a r { r with ramp := .settled, settleDue := false } hr ⟨rfl, rfl, rfl, rfl, rfl, .refl _⟩).note _

theorem nextRamp (h : Kept s t) : Kept s t.nextRamp := by
  unfold State.nextRamp; split
  · exact h
  · exact h.settleRamp _

theorem switchTables (h : Kept s t) : Kept s t.switchTables := (h.setCurrent _).setPlan _

theorem switchIfDue (h : Kept s t) : Kept s t.switchIfDue := by
  unfold State.switchIfDue; split
  · exact (h.setSwitch _).switchTables
  · exact h

theorem closeInstant (h : Kept s t) : Kept s t.closeInstant :=
  Kept.switchIfDue (h.fold (fun u _ => u.nextRamp) (fun _ _ hv => hv.nextRamp) (t.roomsWith Room.settleDue))

end Kept

end Sys2Proof.Machine
end

