-- ==== Sys2Proof/Laws/Requests.lean ====
section
/-! SUPPORT. What a command finds where nothing is due; and how a request that the link controller takes is worked and answered: one lemma for the taking, and one for each way a
request names what it acts on. -/

namespace Sys2Proof.Machine

variable {s : State} {f : Frame} {k a n : Nat} {r : Room}

/-! ## Nothing due -/

theorem foldl_of_fixed {α : Type} (f : State → α → State) (xs : List α) (h : ∀ x ∈ xs, f s x = s) : xs.foldl f s = s := by
  induction xs with
  | nil => rfl
  | cons x xs ih =>
    rw [List.foldl_cons, h x (List.mem_cons_self ..)]
    exact ih fun y hy => h y (List.mem_cons_of_mem _ hy)

theorem State.closeInstant_of_boundaryDone (h : s.BoundaryDone) : s.closeInstant = s := by
  simp [State.closeInstant, timesOf, h.ramps, State.switchIfDue, h.switch]

theorem State.timeout_of_not_overdue (h : s.link.receiver.overdue = false) : s.timeout = s := by
  unfold State.timeout
  split
  · rfl
  · rename_i e
    simp only [e, Receiver.overdue, decide_eq_false_iff_not] at h
    simp [h]

theorem State.completeStop_of_waiting
    (h : s.link.stopping = none ∨ [0, 1, 2, 3, 4].all (fun i => (s.bus i).offSent) = false) : s.completeStop = s := by
  unfold State.completeStop
  split
  · rfl
  · rename_i e
    rcases h with h | h
    · rw [h] at e; cases e
    · rw [h]; rfl

/-- Where nothing is due there is nothing to catch up with. -/
theorem State.catchUp_of_nothingDue (h : s.NothingDue) : s.catchUp = s := by
  have inputs : inputNumbers.foldl State.settleIfDue s = s := foldl_of_fixed _ _ fun p hp => by
    simp [State.settleIfDue, h.inputs p hp]
  have seats : ∀ p : Nat → Seat → Bool, (∀ x ∈ s.floor.seats, p x.1 x.2 = false) → tkeys p s.floor.seats = [] := by
    intro p hp
    simp only [tkeys, List.map_eq_nil_iff, List.filter_eq_nil_iff]
    exact fun x hx => by simp [hp x hx]
  have e1 := seats (fun _ x => x.holdOffDue) fun x hx => (h.seats x hx).1
  have e2 := seats (fun _ x => x.secondDue) fun x hx => (h.seats x hx).2
  unfold State.catchUp
  simp only [State.closeInstant_of_boundaryDone h.toBoundaryDone, State.timeout_of_not_overdue h.receiver, inputs,
    State.restartIfDue, h.restart, if_true, timesOf, h.timers, e1, e2, List.foldl_nil, State.secondIfDue, h.counters]
  exact State.completeStop_of_waiting h.stopping

theorem State.upToDate_of_nothingDue (hp : s.resetLow = false) (h : s.NothingDue) (work : State → State) :
    s.upToDate work = work s := by
  simp [State.upToDate, State.whileUp, hp, State.catchUp_of_nothingDue h]

theorem State.whenDue_of_boundaryDone (hp : s.resetLow = false) (h : s.BoundaryDone) (work : State → State) :
    s.whenDue work = work s := by
  simp [State.whenDue, State.whileUp, hp, State.closeInstant_of_boundaryDone h]

/-! ## Requests -/

theorem State.takes_of_canTake (h : s.CanTake f) : s.takes f = true := by
  have h3 : s.link.placesTaken < Config.replyLimit := h.place
  rcases h.first with h4 | h4
  · simp [State.takes, LinkUnit.hasPlace, h.complete, h3, h4]
  · cases hi : s.link.input with
    | nil => simp [hi] at h4
    | cons g gs =>
      simp only [hi, List.head?_cons, Option.some.injEq] at h4
      simp [State.takes, LinkUnit.hasPlace, h.complete, h3, hi, h4]

/-- A request that can be taken is worked on the state whose input queue it has left. -/
theorem State.taking_of_canTake (h : s.CanTake f) (work : State → State) : s.taking f work = work s.popInput := by
  rw [State.taking, State.upToDate_of_nothingDue h.up h.due]
  simp [State.takeFrame, State.takes_of_canTake h]

/-- A request in a phase that allows it is answered by its handler. -/
theorem State.request_of_permits {kind tag : Byte} {body : List Byte} {p : Allowed} {handle : List Byte → State → State × Answer}
    (h : s.CanTake ⟨kind, tag, body⟩) (hp : p.permits s.link.phase = true) :
    s.request kind tag body p handle = State.answerWith (handle body s.popInput) kind tag := by
  have e : s.popInput.link.phase = s.link.phase := rfl
  simp [State.request, State.taking_of_canTake h, e, hp]

/-- A request in a phase that does not allow it is answered WRONG_PHASE. -/
theorem State.request_of_not_permits {kind tag : Byte} {body : List Byte} {p : Allowed}
    {handle : List Byte → State → State × Answer} (h : s.CanTake ⟨kind, tag, body⟩)
    (hp : p.permits s.link.phase = false) :
    s.request kind tag body p handle = s.served ⟨kind, tag, .refuse .wrongPhase⟩ := by
  have e : s.popInput.link.phase = s.link.phase := rfl
  simp [State.request, State.taking_of_canTake h, e, hp]
  rfl

/-- A refusal by the handler leaves everything but the link controller as it was. -/
theorem State.answerWith_refuse (kind tag : Byte) (x : Status) :
    State.answerWith (refuse s.popInput x) kind tag = s.served ⟨kind, tag, .refuse x⟩ := rfl

/-- A segment that names a room reaches that room. -/
theorem State.inRoom_of_roomAt (h : s.RoomAt k a r) (g : Room → State × Answer) : s.popInput.inRoom k g = g r := by
  have h1 : segmentOk k = true := by simp [segmentOk, h.number]
  have h2 : (s.popInput.segment k).installed = true := h.installed
  have h3 : s.popInput.roomOf k = some r := by
    have := h.room
    simp only [State.roomOf, State.anchorOf, State.popInput]
    have hm := h.map
    simp only [State.anchorOf] at hm
    rw [hm]
    exact this
  simp [State.inRoom, h1, h2, h3]

/-- An installed seat is reached by its number. -/
theorem State.onSeat_of_installed (h1 : seatNumberOk n = true) (h2 : (s.seat n).installed = true)
    (g : Seat → State × Answer) : s.popInput.onSeat n g = g (s.seat n) := by
  have h3 : (s.popInput.seat n).installed = true := h2
  simp [State.onSeat, h1, h3]
  rfl

/-- An installed booth is reached by its number. -/
theorem State.onBooth_of_installed {b : Nat} (h1 : 1 ≤ b) (h2 : b ≤ 24) (h3 : (s.boothAt b).installed = true)
    (g : Booth → State × Answer) : s.popInput.onBooth b g = g (s.boothAt b) := by
  have h4 : (s.popInput.boothAt b).installed = true := h3
  simp [State.onBooth, boothOk, h1, h2, h4]
  rfl

/-- The room of a seat that stands in a room. -/
theorem State.seatRoom_of_seatAt (h : s.SeatAt n a r) : s.seatRoom n = some r := by
  have hm := h.map
  simp only [State.seatAnchor] at hm
  simp only [State.seatRoom, State.roomOf, hm]
  exact h.room

theorem clampInt_eq (lo hi x : Int) (h : lo ≤ hi) : clampInt lo hi x = max lo (min hi x) := by
  unfold clampInt; split <;> [skip; split] <;> omega

theorem clampNat_eq (lo hi x : Nat) (h : lo ≤ hi) : clampNat lo hi x = max lo (min hi x) := by
  unfold clampNat; split <;> [skip; split] <;> omega

end Sys2Proof.Machine
end

