-- ==== Sys2Proof/WellFormed.lean ====
section
/-! DEFINITION. Well-formed commands: those whose operands the signals of the part can carry. `exec` has a meaning for every
command; this says which ones the surroundings can send. -/

namespace Sys2Proof

/-- The upstream slots of a bus (R61, R63). -/
def BusId.slots : BusId → Nat
  | .b => 48
  | _ => 12

/-- The upstream audio of one slot of one block (R61, R63). -/
def Upstream.wellFormed (u : Upstream) : Bool := u.slot < u.bus.slots && u.samples.length = 48

/-- No slot is given twice. -/
def slotsDistinct : List Upstream → Bool
  | [] => true
  | u :: us => us.all (fun v => v.bus ≠ u.bus || v.slot ≠ u.slot) && slotsDistinct us

/-- A frame body (11.6.1): at most 240 bytes. -/
def bodyFits (body : List Byte) : Bool := body.length ≤ 240

/-- The number of bytes received at a discard (R193): 2 for a length byte, 6 to 246 for a whole frame, and 2 to 246 for a
character. -/
def DiscardCause.countFits : DiscardCause → Nat → Bool
  | .badLength, n => n = 2
  | .badCheck, n => 6 ≤ n && n ≤ 246
  | .badCharacter, n => 2 ≤ n && n ≤ 246

/-- A well-formed command. -/
def Instr.wellFormed : Instr → Bool
  | .powerOn _ _ => true
  | .resetAssert => true
  | .resetRelease _ _ => true
  | .segmentSet _ body => bodyFits body
  | .partitionSet _ body => bodyFits body
  | .seatSet _ body => bodyFits body
  | .boothSet _ body => bodyFits body
  | .start _ body => bodyFits body
  | .stop _ body => bodyFits body
  | .stopComplete => true
  | .restart _ body => bodyFits body
  | .restartTakesEffect => true
  | .partitionDeclare _ body => bodyFits body
  | .roomSet _ body => bodyFits body
  | .levelSet _ body => bodyFits body
  | .languagesSet _ body => bodyFits body
  | .sessionOpen _ body => bodyFits body
  | .sessionArm _ body => bodyFits body
  | .sessionDisarm _ body => bodyFits body
  | .sessionEnd _ body => bodyFits body
  | .roomQuery _ body => bodyFits body
  | .micOpen _ body => bodyFits body
  | .micClose _ body => bodyFits body
  | .requestAdd _ body => bodyFits body
  | .requestCancel _ body => bodyFits body
  | .nextCandidate _ body => bodyFits body
  | .queueClear _ body => bodyFits body
  | .seatTrim _ body => bodyFits body
  | .seatQuery _ body => bodyFits body
  | .queueQuery _ body => bodyFits body
  | .boothSource _ body => bodyFits body
  | .boothTrim _ body => bodyFits body
  | .boothOff _ body => bodyFits body
  | .boothQuery _ body => bodyFits body
  | .slotQuery _ body => bodyFits body
  | .groupSet _ body => bodyFits body
  | .counterSet _ body => bodyFits body
  | .counterRead _ body => bodyFits body
  | .identify _ body => bodyFits body
  | .unknownKind kind _ body => !(Machine.kindNamesRequest kind) && bodyFits body
  | .inputFull _ _ body => bodyFits body
  | .linkFrameDiscard cause received => cause.countFits received
  | .linkFrameTimeout => true
  | .frameSent => true
  | .settlingEvent input => 1 ≤ input && input ≤ 16
  | .blockBoundary _ audio => audio.all Upstream.wellFormed && slotsDistinct audio
  | .tableSwitch => true
  | .roomTimerExpiry => true
  | .holdOffEnd => true
  | .speakingClockSecond => true
  | .rampSettle => true
  | .secondBoundary => true
  | .busExchange _ => true
  | .unitReplyStatus _ _ _ _ => true
  | .unitReplyAck _ _ _ _ _ => true
  | .exchangeMissed _ => true
  | .linkCharacterReceived _ _ => true
  | .requestFrameQueued _ _ body => bodyFits body

end Sys2Proof
end

