-- ==== Sys2Proof/Tests/Slice0.lean ====
section
/-! SUPPORT. The model's own tests: ill-formed commands that the checks refuse, worked values of the spec, and for every statement
with hypotheses a state and operands that meet them. -/

namespace Sys2Proof.Tests

set_option Elab.async false

open Sys2Proof.Machine

/-! ## Ill-formed commands -/

theorem test_ill_formed_body : Instr.wellFormed (.identify 0 (List.replicate 241 0)) = false := by decide +kernel
theorem test_ill_formed_kind : Instr.wellFormed (.unknownKind 0x22 0 []) = false := by decide +kernel
theorem test_ill_formed_input : Instr.wellFormed (.settlingEvent 17) = false := by decide +kernel
theorem test_ill_formed_input_zero : Instr.wellFormed (.settlingEvent 0) = false := by decide +kernel
theorem test_ill_formed_slot : Instr.wellFormed (.blockBoundary 0 [⟨.d0, 12, List.replicate 48 0⟩]) = false := by decide +kernel
theorem test_ill_formed_samples : Instr.wellFormed (.blockBoundary 0 [⟨.b, 47, List.replicate 47 0⟩]) = false := by decide +kernel
theorem test_ill_formed_twice :
    Instr.wellFormed (.blockBoundary 0 [⟨.b, 1, List.replicate 48 0⟩, ⟨.b, 1, List.replicate 48 0⟩]) = false := by decide +kernel
theorem test_ill_formed_discard : Instr.wellFormed (.linkFrameDiscard .badLength 3) = false := by decide +kernel
theorem test_well_formed_boundary : Instr.wellFormed (.blockBoundary 0 [⟨.d3, 11, List.replicate 48 0⟩]) = true := by decide +kernel

/-! ## Worked values of the spec -/

/-- The factors of R175's table. -/
theorem test_factors : [12, 0, -6, -12, -24, -40, -120].map factor = [130762, 65536, 46396, 32846, 16462, 6554, 66] := by
  decide +kernel

/-- 2.5 becomes 3 and -2.5 becomes -3 (R176). -/
theorem test_halves : scale 5 32768 = 3 ∧ scale (-5) 32768 = -3 := by decide +kernel

/-- 10 log10 N dB to the nearest step (R166). -/
theorem test_attenuation : (List.range 17).map attenuation =
    [0, 0, 6, 10, 12, 14, 16, 17, 18, 19, 20, 21, 22, 22, 23, 24, 24] := by decide +kernel

/-- A mask of 1008 takes the run of 16 seats of its base (R123). -/
theorem test_mask : (List.range 1024).filter (groupTakes ⟨true, 529, 1008, 0, false⟩) = (List.range 16).map (· + 528) := by
  decide +kernel

/-- A pointer of 6 in a room of segments 2, 3 and 7 starts the walk at 7 (R119 (1)). -/
theorem test_walk (r : Room) (h1 : r.segments = [2, 3, 7]) (h2 : r.rotation = some 6) : r.walk = [7, 2, 3] := by
  simp [Room.walk, h1, h2]

/-- The table of R9. -/
theorem test_walls : [(Wall.opened, Sensed.retracted), (.opened, .deployed), (.opened, .unknown), (.closed, .retracted),
      (.closed, .deployed), (.closed, .unknown)].map
      (fun x => let p : Partition := { Partition.initial with installed := true, fitted := true, declared := x.1, sensed := x.2 }
        (effectiveOf p, mismatchOf p)) =
    [(.opened, false), (.closed, true), (.closed, false), (.closed, true), (.closed, false), (.closed, false)] := by decide +kernel

/-- The characters of every turn sum to 0 (11.6.5). -/
theorem test_turn : turnPasses ((Exchange.turn ⟨17, .open_ 3, true⟩).map Prod.snd) = true ∧
    turnPasses (statusBytes 2 true .chair) = true ∧ turnPasses (ackBytes .ofClose 0 false .console) = true := by decide +kernel

/-- A seat record reply has 31 bytes (11.6.3). -/
theorem test_seat_record (r : SeatReport) : r.bytes.length = 31 := by
  obtain ⟨_, _, _, _, _, _, _, _, _, _, o, st, c, _, _, _, _, _, _, _, _, _⟩ := r
  cases o <;> cases st <;> cases c <;> rfl

/-- The defaults of R20 in the coding of R205. -/
theorem test_profile_bytes : Profile.defaults.bytes.take 16 = [1, 4, 2, 0, 1, 1, 0, 0, 0, 0, 30, 0, 0xF4, 0xF4, 0, 0] := by
  decide +kernel

/-- The start byte on the line, least significant bit first (R192). -/
theorem test_character : characterBits 0xA5 true = [false, true, false, true, false, false, true, false, true, true] := by
  decide +kernel

/-- The check of the bytes "123456789" with this polynomial and initial value. -/
theorem test_crc : crc16 [0x31, 0x32, 0x33, 0x34, 0x35, 0x36, 0x37, 0x38, 0x39] = 0x29B1#16 := by decide +kernel

/-! ## Small states -/

/-- CONFIG: three segments, an unfitted wall between 1 and 2, a fitted one between 2 and 3, three seats and two booths. -/
def config : State :=
  (((((((((State.reset.setSegment 1 { Segment.initial with installed := true }).setSegment 2
    { Segment.initial with installed := true, maximum := -20 }).setSegment 3
    { Segment.initial with installed := true }).setPartition 1 { Partition.initial with installed := true }).setPartition 2
    { Partition.initial with installed := true, a := 2, b := 3, fitted := true }).setSeat 17
    { Seat.initial with installed := true }).setSeat 18 { Seat.initial with installed := true, cls := .chair }).setSeat 273
    { Seat.initial with installed := true, segment := 2 }).setBooth 1
    { Booth.initial with installed := true, language := 7, count := 2 }).setBooth 2
    { Booth.initial with installed := true, language := 9, source := .relay 7, listen := .fallback }

/-- RUN, right after START. -/
def run : State := config.enterRun

/-- A unit that answers, assigned and told `told`. -/
def present (told : Indication) (cls : UnitClass) : UnitRecord :=
  { UnitRecord.initial with presence := .present, assigned := true, told := some told, reported := some cls }

/-- A seat of a unit that answers, in this state. -/
def State.withMic (s : State) (n : Nat) (m : Mic) : State :=
  s.setSeat n { s.seat n with mic := m, indication := some .idle }

/-- RUN, room 1 IN_SESSION with the languages 7 and 9, its units present and idle. -/
def hall : State :=
  let s := ((run.modRoom 1 (fun r =>
    { r with session := .inSession, profile := { r.profile with languages := [7, 9] } })).makeChannels [⟨1, 7⟩, ⟨1, 9⟩])
  let t := ((s.setUnit 0 17 (present .idle .delegate)).setUnit 0 18 (present .idle .chair)).setUnit 4 1 (present .ready .console)
  (State.withMic (State.withMic t 17 .idle) 18 .idle).setConsole 1 { Console.initial with state := .ready, indication := some .ready }

/-- The room with this anchor. -/
def roomOf (s : State) (a : Nat) : Room := (s.room a).getD (s.freshRoom a [])

/-- Room 1 changed. -/
def hallWith (f : Room → Room) : State := hall.modRoom 1 f

/-- Seat 17 waits in room 1's queue. -/
def waiting : State :=
  (hallWith (fun r => { r with queue := [⟨17, 0, 1⟩] })).setSeat 17
    { hall.seat 17 with mic := .queued, stamp := some 0, indication := some .waiting }

/-- Seat 17 is on the floor of room 1 in this state, with slot 0. -/
def speaking (m : Mic) : State :=
  (hallWith (fun r => { r with live := [17] })).setSeat 17
    { hall.seat 17 with mic := m, slot := some 0, openingNumber := some 0, indication := some .speaking,
                        clock := if m = .live then some ⟨69, 999⟩ else none }

/-- Seat 17's unit is being sent this command. -/
def asking (s : State) (c : Command) : State := s.carry 0 (some ⟨17, c, true⟩)

/-- What `State.NothingDue`, `State.CanTake` and `State.Calm` ask of a state, as one check. -/
def quiet (s : State) : Bool :=
  !s.resetLow && s.roomsWith Room.settleDue = [] && !s.dist.switchDue && !s.link.receiver.overdue &&
    inputNumbers.all (fun p => !(s.settling p).due) && s.link.restartDue = 0 && s.roomsWith Room.timerDue = [] &&
    s.floor.seats.all (fun x => !x.2.holdOffDue && !x.2.secondDue) && !s.counts.secondDue && s.link.stopping = none

theorem boundaryDone_of_quiet {s : State} (h : quiet s = true) : s.BoundaryDone := by
  simp only [quiet, Bool.and_eq_true, Bool.not_eq_true', decide_eq_true_eq] at h
  exact ⟨by tauto, by tauto⟩

theorem nothingDue_of_quiet {s : State} (h : quiet s = true) : s.NothingDue := by
  have b := boundaryDone_of_quiet h
  simp only [quiet, Bool.and_eq_true, Bool.not_eq_true', decide_eq_true_eq, List.all_eq_true] at h
  exact ⟨b, by tauto, by tauto, by tauto, by tauto, fun x hx => by have := h.1.1.2 x hx; tauto, by tauto, by tauto⟩

/-- A quiet state with an empty input queue and a free place on the reply list takes any request. -/
def takesAny (s : State) : Bool := quiet s && s.link.placesTaken < Config.replyLimit && s.link.input = []

theorem canTake_of {s : State} (f : Frame) (h : takesAny s = true) : s.CanTake f := by
  simp only [takesAny, Bool.and_eq_true, decide_eq_true_eq] at h
  have d := nothingDue_of_quiet h.1.1
  have q := h.1.1
  simp only [quiet, Bool.and_eq_true, Bool.not_eq_true', decide_eq_true_eq] at q
  exact ⟨by tauto, d, by tauto, h.1.2, .inl h.2⟩

theorem canTake_config (f : Frame) : config.CanTake f := canTake_of f (by decide +kernel)
theorem canTake_hall (f : Frame) : hall.CanTake f := canTake_of f (by decide +kernel)
theorem roomAt_hall : hall.RoomAt 1 1 (roomOf hall 1) := by constructor <;> decide +kernel
theorem countersOff_hall : hall.CountersOff := by constructor <;> decide +kernel

theorem calm_of {s : State} (h : quiet s = true) (hr : s.link.receiver = .hunting)
    (hb : busNumbers.all (fun i => s.awaited i = none) = true) : s.Calm := by
  have d := nothingDue_of_quiet h
  simp only [quiet, Bool.and_eq_true, Bool.not_eq_true', decide_eq_true_eq] at h
  simp only [List.all_eq_true, decide_eq_true_eq] at hb
  exact ⟨by tauto, d, hr, by tauto, hb⟩

/-! ## Every statement's hypotheses are met -/

theorem witness_StepRunsTheCommandInFront :
    (hall.setPending [.frameSent]).pending = [.frameSent] ∧ hall.pending = [] := by decide +kernel

theorem witness_PinsStartAndHoldThePart :
    hall.resetLow = false ∧ ({ hall with resetLow := true } : State).resetLow = true ∧ Instr.frameSent ≠ .resetAssert ∧
    (∀ r1 r0, Instr.frameSent ≠ .powerOn r1 r0) ∧ ∀ r1 r0, Instr.frameSent ≠ .resetRelease r1 r0 := by decide +kernel

/-- A body of SEGMENT_SET for this segment, with M and u below their ranges. -/
def segmentBody (k : Byte) : List Byte :=
  k :: 1 :: 0x80 :: 0x80 :: [1, 9, 2, 0, 1, 1, 0, 0, 0, 5, 30, 0, 0xF4, 0xF4, 0, 2, 7, 9, 0, 0, 0, 0, 0, 0]

theorem witness_SegmentSetWritesTheRecordWhole :
    config.CanTake ⟨0x01, 0, segmentBody 1⟩ ∧ config.CanTake ⟨0x01, 0, segmentBody 13⟩ ∧ hall.CanTake ⟨0x01, 0, []⟩ ∧
    hall.link.phase = .run ∧ config.link.phase = .config ∧
    [segmentBody 0, segmentBody 1, segmentBody 12, segmentBody 13].all (fun b => b.length = 28 && byteAt b 1 ≤ 1 &&
      (profileFrom (fun _ => true) Profile.defaults (b.drop 4)).isSome) = true ∧
    (readSegmentSet (segmentBody 1)).map (fun x => (x.1, x.2.1.maximum, x.2.1.trim, x.2.1.profile.speakingLimit, x.2.2)) =
      some (1, -120, -24, 10, true) :=
  ⟨canTake_config _, canTake_config _, canTake_hall _, by decide +kernel⟩

/-- A language code twice, a code 0, a code 64, and nine codes, in right bytes otherwise. -/
theorem witness_SegmentSetWritesTheRecordWhole_refused :
    (∀ body, config.CanTake ⟨0x01, 0, body⟩) ∧ config.link.phase = .config ∧
    ([[2, 7, 7, 0, 0, 0, 0, 0, 0], [1, 0, 0, 0, 0, 0, 0, 0, 0], [1, 64, 0, 0, 0, 0, 0, 0, 0], [9, 1, 2, 3, 4, 5, 6, 7, 8]] :
      List (List Byte)).all (fun ls =>
        profileFrom (fun _ => true) Profile.defaults (((segmentBody 1).take 19 ++ ls).drop 4) = none) = true :=
  ⟨fun _ => canTake_config _, by decide +kernel⟩

theorem witness_SegmentSetWritesTheRecordWhole_profile :
    (profileFrom allFields Profile.defaults (List.replicate 24 0)).isSome = true ∧
    profileFrom allFields Profile.defaults (3 :: List.replicate 23 0) = none := by decide +kernel

theorem witness_PartitionSetDerivesTheWall :
    config.CanTake ⟨0x02, 0, [3, 1, 1, 3, 1]⟩ ∧ hall.CanTake ⟨0x02, 0, []⟩ ∧ hall.link.phase = .run ∧
    config.link.phase = .config ∧ readPartitionSet [3, 1, 1, 3, 1] = some ⟨3, true, 1, 3, true⟩ ∧
    config.partitionFits ⟨3, true, 1, 3, true⟩ = true :=
  ⟨canTake_config _, canTake_hall _, by decide +kernel⟩

/-- The four refusals: a number of 17, equal ends, and the pair of partition 1, in either order. -/
theorem witness_PartitionSetDerivesTheWall_refused :
    (∀ body, config.CanTake ⟨0x02, 0, body⟩) ∧
    [[17, 1, 1, 3, 1], [3, 1, 2, 2, 0], [3, 1, 1, 2, 0], [3, 1, 2, 1, 0]].map readPartitionSet =
      [some ⟨17, true, 1, 3, true⟩, some ⟨3, true, 2, 2, false⟩, some ⟨3, true, 1, 2, false⟩, some ⟨3, true, 2, 1, false⟩] ∧
    (config.partition 1).installed = true ∧ (config.partition 1).a = 1 ∧ (config.partition 1).b = 2 :=
  ⟨fun _ => canTake_config _, by decide +kernel⟩

theorem witness_PartitionDeclareStoresTheState :
    (∀ body, hall.CanTake ⟨0x08, 0, body⟩) ∧ (hall.partition 2).installed = true ∧ (hall.partition 2).declared = .closed ∧
    effectiveOf { hall.partition 2 with declared := .opened } = (hall.partition 2).effective :=
  ⟨fun _ => canTake_hall _, by decide +kernel⟩

/-- Input 2 has read high at 100 boundaries. -/
def settled (s : State) : State := s.setSettling 2 { candidate := some .opened, hold := 100, stable := none }

theorem witness_SettlingEventSetsTheSensedState :
    (settled hall).BoundaryDone ∧ (settled hall).resetLow = false ∧ ((settled hall).settling 2).hold = 100 ∧
    ((settled hall).settling 2).candidate = some .opened ∧ ((settled hall).settling 2).stable ≠ some .opened ∧
    ((settled hall).partition 2).installed = true ∧ ((settled hall).partition 2).fitted = true ∧
    effectiveOf { (settled hall).partition 2 with sensed := .retracted } = ((settled hall).partition 2).effective := by
  refine ⟨?_, ?_⟩
  · constructor <;> decide +kernel
  · decide +kernel

theorem witness_SettlingEventSetsTheSensedState_unfitted :
    (config.setSettling 1 { candidate := some .closed, hold := 100, stable := some .opened }).BoundaryDone ∧
    (config.partition 1).fitted = false := ⟨by constructor <;> decide +kernel, by decide +kernel⟩

/-- Wall 1 is declared open, and rooms 1 and 2 are one. -/
def joined : State :=
  (hall.setPartition 1 { hall.partition 1 with declared := .opened, effective := .opened }).merge 1 2

/-- Wall 2 opens between rooms 2 and 3 at either command, and wall 1 closes within room 1. -/
theorem witness_ChangedWallsMergeOrSplit :
    let s := settled (hall.setPartition 2 { hall.partition 2 with declared := .opened })
    (hall.CanTake ⟨0x08, 0, [1, 0]⟩ ∧ joined.CanTake ⟨0x08, 0, [1, 1]⟩ ∧ s.BoundaryDone) ∧
    (hall.link.phase = .run ∧ effectiveOf { hall.partition 1 with declared := .opened } = .opened ∧
      (hall.partition 1).effective = .closed ∧ hall.anchorOf 1 = some 1 ∧ hall.anchorOf 2 = some 2 ∧
      (hall.room 1).isSome = true) ∧
    (joined.link.phase = .run ∧ effectiveOf { joined.partition 1 with declared := .closed } = .closed ∧
      (joined.partition 1).effective = .opened ∧ joined.anchorOf 1 = some 1 ∧ joined.anchorOf 2 = some 1) ∧
    s.resetLow = false ∧ s.link.phase = .run ∧ (s.settling 2).hold = 100 ∧ (s.partition 2).fitted = true ∧
      effectiveOf { s.partition 2 with sensed := .retracted } = .opened ∧ (s.partition 2).effective = .closed ∧
      s.anchorOf 2 = some 2 ∧ s.anchorOf 3 = some 3 := by
  refine ⟨⟨canTake_hall _, canTake_of _ ?_, ?_⟩, ?_, ?_, ?_⟩
  on_goal 2 => constructor
  all_goals decide +kernel

theorem witness_StepKeepsWallsAndLevels_walls : (State.reset.setPending [.partitionDeclare 0 [1, 0]]).wallsOk ∧
    (State.reset.setPending [.settlingEvent 1]).settlingOk ∧
    (∃ t, step (State.reset.setPending [.partitionDeclare 0 [1, 0]]) = .next t) ∧
    ∃ t, step (State.reset.setPending [.settlingEvent 1]) = .next t :=
  ⟨fun _ => rfl, fun _ => Nat.zero_le _, ⟨_, rfl⟩, _, rfl⟩

theorem witness_RoomsAreTheConnectedGroups :
    1 ∈ hall.installedSegments ∧ (hall.setPartition 1 { hall.partition 1 with effective := .opened }).groupOf [1, 2, 3] 1 = [1, 2] := by decide +kernel

/-- A body of ROOM_SET for segment 1 with this selection word and 24 zeros. -/
def roomBody (high low : Byte) : List Byte := 1 :: high :: low :: List.replicate 24 0

theorem witness_RoomAndLevelSetStoreTheirFields :
    (∀ body, hall.CanTake ⟨0x09, 0, body⟩) ∧ hall.RoomAt 1 1 (roomOf hall 1) ∧ hall.link.phase = .run ∧
    readRoomSet (roomBody 0x00 0x02) = some (1, 2, List.replicate 24 0) ∧ selectionRefused 2 = true ∧
    readRoomSet (roomBody 0x00 0x40) = some (1, 64, List.replicate 24 0) ∧ selectionRefused 64 = false ∧
    profileFrom (selection 64) (roomOf hall 1).profile (List.replicate 24 0) =
      some { (roomOf hall 1).profile with warningLead := 0 } := ⟨fun _ => canTake_hall _, roomAt_hall, by decide +kernel⟩

/-- The floor mode is selected and changes. -/
theorem witness_RoomAndLevelSetStoreTheirFields_promoting :
    readRoomSet (roomBody 0x80 0x00) = some (1, 32768, List.replicate 24 0) ∧ selectionRefused 32768 = false ∧
    profileFrom (selection 32768) (roomOf hall 1).profile (List.replicate 24 0) =
      some { (roomOf hall 1).profile with floorMode := .openFloor } ∧ (roomOf hall 1).profile.floorMode ≠ .openFloor := by
  decide +kernel

theorem witness_RoomAndLevelSetStoreTheirFields_level :
    hall.CanTake ⟨0x0A, 0, [1, 0x80]⟩ ∧ hall.RoomAt (1 : Byte).toNat 1 (roomOf hall 1) ∧ hall.link.phase = .run ∧
    -120 = max (-120) (min 0 (0x80 : Byte).toInt) := ⟨canTake_hall _, roomAt_hall, by decide +kernel⟩

/-- Room 1 of `hall` in this session state. -/
def inState (x : Session) : State := hallWith (fun r => { r with session := x })

/-- For a room request: every session state of room 1 is met, with an empty queue, no chair that holds PRIORITY and no counter
enabled, in a state that takes any request. -/
theorem witness_SessionRequests (x : Session) :
    ((∀ f, (inState x).CanTake f) ∧ (inState x).RoomAt (1 : Byte).toNat 1 { roomOf hall 1 with session := x } ∧
      (inState x).CountersOff) ∧ (inState x).link.phase = .run ∧ (roomOf hall 1).queue = [] ∧
      (inState x).chairsHolding [1] = [] := by
  refine ⟨⟨fun f => canTake_of f ?_, ?_, ?_⟩, ?_⟩
  on_goal 2 => constructor
  on_goal 7 => constructor
  all_goals (cases x <;> decide +kernel)

/-- Console 1 is on air in the channel (1, 7). -/
def onAir : State := hall.setConsole 1 { hall.console 1 with state := .onAir, owned := some ⟨1, 7⟩, indication := some .onAir }

/-- In session the channels and the owners are in order, and the code 7, which has an owner, is removed. -/
theorem witness_LanguagesSetReplacesTheSet :
    (∀ x, (inState x).CanTake ⟨0x0B, 0, [1, 2, 9, 63]⟩ ∧
      (inState x).RoomAt (1 : Byte).toNat 1 { roomOf hall 1 with session := x }) ∧
    onAir.CanTake ⟨0x0B, 0, [1, 2, 9, 63]⟩ ∧ (roomOf onAir 1).session = .inSession ∧
    ([9, 63] : List Byte).map BitVec.toNat = [9, 63] ∧ [9, 63].Nodup ∧ (∀ c ∈ [9, 63], 1 ≤ c ∧ c ≤ 63) ∧
    7 ∈ (roomOf onAir 1).profile.languages ∧ onAir.ownerOf ⟨1, 7⟩ = some 1 ∧ onAir.service ⟨1, 9⟩ = .served 13 :=
  ⟨fun x => ⟨(witness_SessionRequests x).1.1 _, (witness_SessionRequests x).1.2.1⟩, canTake_of _ (by decide +kernel),
    by decide +kernel⟩

/-- Nine codes, a code 0, a code 64 and a code twice, in every session state. -/
theorem witness_LanguagesSetReplacesTheSet_refused :
    (∀ x body, (inState x).CanTake ⟨0x0B, 0, body⟩ ∧
      (inState x).RoomAt (1 : Byte).toNat 1 { roomOf hall 1 with session := x }) ∧
    ([[1, 2, 3, 4, 5, 6, 7, 8, 9], [0], [64], [7, 7]] : List (List Byte)).all (fun bs =>
      8 < bs.length || (bs.map BitVec.toNat).any (fun c => c = 0 || 63 < c) || !decide (bs.map BitVec.toNat).Nodup) = true :=
  ⟨fun x _ => ⟨(witness_SessionRequests x).1.1 _, (witness_SessionRequests x).1.2.1⟩, by decide +kernel⟩

theorem witness_SessionOpenEntersTheSession : (inState .armed).CanTake ⟨0x0C, 0, [1]⟩ ∧
    (inState .armed).RoomAt (1 : Byte).toNat 1 { roomOf hall 1 with session := .armed } :=
  ⟨(witness_SessionRequests _).1.1 _, (witness_SessionRequests _).1.2.1⟩

theorem witness_SessionArmAndDisarm :
    (∀ x body, (inState x).CanTake ⟨0x0D, 0, body⟩ ∧ (inState x).CanTake ⟨0x0E, 0, body⟩ ∧
      (inState x).RoomAt (1 : Byte).toNat 1 { roomOf hall 1 with session := x }) ∧
    (∀ i, 4 ≤ i → i < 8 → (15 : Byte).getLsbD i = false) ∧ word32 0 0 0 0 ≠ 4294967295 ∧
    ((16 : Byte).getLsbD 4 = true ∧ (128 : Byte).getLsbD 7 = true) ∧ (8 : Byte).getLsbD 3 = true ∧
    word32 255 255 255 255 = 4294967295 :=
  ⟨fun x _ => ⟨(witness_SessionRequests x).1.1 _, (witness_SessionRequests x).1.1 _, (witness_SessionRequests x).1.2.1⟩,
    by decide⟩

theorem canTake_waiting (f : Frame) : waiting.CanTake f := canTake_of f (by decide +kernel)
theorem seatAt_waiting : waiting.SeatAt 17 1 (roomOf waiting 1) := by constructor <;> decide +kernel
theorem roomAt_waiting : waiting.RoomAt (1 : Byte).toNat 1 (roomOf waiting 1) := by constructor <;> decide +kernel
theorem countersOff_waiting : waiting.CountersOff := by constructor <;> decide +kernel

theorem witness_SessionEndLeavesTheSession :
    (waiting.CanTake ⟨0x0F, 0, [1]⟩ ∧ waiting.RoomAt (1 : Byte).toNat 1 (roomOf waiting 1) ∧
      (inState .ending).CanTake ⟨0x0F, 0, [1]⟩) ∧ waiting.link.phase = .run ∧ (roomOf waiting 1).session = .inSession ∧
    (roomOf waiting 1).queue ≠ [] ∧ ∀ e ∈ (roomOf waiting 1).queue, waiting.seatAnchor e.seat = some 1 :=
  ⟨⟨canTake_waiting _, roomAt_waiting, (witness_SessionRequests _).1.1 _⟩, by decide +kernel⟩

theorem witness_QueriesAnswerAndChangeNothing :
    (∀ f, hall.CanTake f) ∧ hall.RoomAt (1 : Byte).toNat 1 (roomOf hall 1) ∧ hall.link.phase = .run ∧
    seatNumberOk (word16 3 240) = true ∧ seatNumberOk (word16 0 1) = true := ⟨canTake_hall, roomAt_hall, by decide +kernel⟩

/-- A record that differs from the initial one is listed, so that a table can be checked on its list. -/
theorem tget_listed {α : Type} {d v : α} {k : Nat} : ∀ {t : Table α}, tget d t k = v → v ≠ d → (k, v) ∈ t
  | [], h, n => absurd h.symm n
  | (j, w) :: t, h, n => by
    rw [tget] at h
    split at h
    · rename_i e; subst e; subst h; exact List.mem_cons_self
    · exact List.mem_cons_of_mem _ (tget_listed h n)

theorem entriesRight_of {s : State} (h : s.hall.rooms.all (fun x => x.2.all (fun r => r.queue.all (fun e =>
    s.seatAnchor e.seat = some x.1 && (s.seat e.seat).mic = .queued))) = true) : s.EntriesRight := by
  intro a r hr e he
  simp only [List.all_eq_true] at h
  have := h _ (tget_listed hr (by simp))
  simp only [Option.all_some, List.all_eq_true, Bool.and_eq_true, decide_eq_true_eq] at this
  exact this e he

theorem roomsOk_of {s : State} (h1 : s.hall.rooms.all (fun x => x.2.all (fun r => r.anchor = x.1 && r.segments.head? = some x.1 &&
      decide (r.segments.Pairwise (· < ·)) && r.segments.all (fun k => 1 ≤ k && k ≤ 12 && s.anchorOf k = some x.1))) = true)
    (h2 : s.hall.segmentMap.all (fun x => x.2.all (fun a => (s.room a).any (fun r => r.segments.contains x.1))) = true) :
    s.RoomsOk := by
  simp only [List.all_eq_true] at h1 h2
  have g : ∀ a r, s.room a = some r → _ := fun a r hr => h1 _ (tget_listed hr (by simp))
  simp only [Option.all_some, Bool.and_eq_true, decide_eq_true_eq, List.all_eq_true] at g
  have m : ∀ k a, s.anchorOf k = some a → _ := fun k a hk => h2 _ (tget_listed hk (by simp))
  simp only [Option.all_some, Option.any_eq_true, List.contains_iff_mem] at m
  refine ⟨fun a r hr => (g a r hr).1.1, fun a r hr => (g a r hr).1.2, fun a r hr k hk => ((g a r hr).2 k hk).1,
    fun a r hr k => ⟨fun hk => ((g a r hr).2 k hk).2, fun hk => ?_⟩, fun k a hk => ?_⟩
  · obtain ⟨q, hq, hm⟩ := m k a hk
    rw [hr] at hq; cases hq; exact hm
  · obtain ⟨q, hq, _⟩ := m k a hk; rw [hq]; rfl

theorem queuesOk_of {s : State} (h1 : s.hall.rooms.all (fun x => x.2.all (fun r => r.anchor = x.1 && r.queue.length ≤ 32 &&
      decide (r.queue.Pairwise (fun x y => x.stamp < y.stamp)) && r.queue.all (fun e => e.stamp < s.floor.stampCount))) = true)
    (h2 : s.hall.rooms.all (fun x => s.hall.rooms.all (fun y => x.1 = y.1 || x.2.all (fun r => y.2.all (fun q =>
      r.queue.all (fun e => q.queue.all (fun f => e.stamp ≠ f.stamp)))))) = true) : s.QueuesOk := by
  simp only [List.all_eq_true] at h1 h2
  have l : ∀ a r, s.room a = some r → (a, some r) ∈ s.hall.rooms := fun a r hr => tget_listed hr (by simp)
  have g : ∀ a r, s.room a = some r → _ := fun a r hr => h1 _ (l a r hr)
  simp only [Option.all_some, Bool.and_eq_true, decide_eq_true_eq, List.all_eq_true] at g
  refine ⟨fun a r hr => (g a r hr).1.1.1, fun a r hr => (g a r hr).1.1.2, fun a r hr => (g a r hr).1.2,
    fun a r hr => (g a r hr).2, fun a b r q hab hr hq => ?_⟩
  have := h2 _ (l a r hr) _ (l b q hq)
  simpa [hab] using this

/-- Seats 20 to 51 wait in room 1 and seat 273 in room 2, in mode CHAIR, behind a delegate on each floor. -/
def crowd : State :=
  let s := (List.range 32).foldl (fun s k => s.setSeat (20 + k)
    { Seat.initial with installed := true, mic := .queued, stamp := some k, indication := some .waiting }) hall
  let t := (s.setSeat 19 { Seat.initial with installed := true, mic := .live, openingNumber := some 1 }).setSeat 274
    { Seat.initial with installed := true, segment := 2, mic := .live, openingNumber := some 0 }
  let u := t.setSeat 273 { t.seat 273 with mic := .queued, stamp := some 32 }
  let v := u.modRoom 1 (fun r => { r with
    queue := (List.range 32).map (fun k => ⟨20 + k, k, 1⟩), live := [19], priority := true
    profile := { r.profile with floorMode := .chair } })
  let w := v.modRoom 2 (fun r => { r with session := .inSession, queue := [⟨273, 32, 2⟩], live := [274] })
  { w with floor := { w.floor with stampCount := 33, openingCount := 2 } }

/-- The entry of seat 273 is the 33rd. -/
theorem witness_MergeLeavesOneRoom :
    (crowd.CountersOff ∧ crowd.RoomsOk ∧ crowd.QueuesOk ∧ crowd.EntriesRight ∧
      JoinedBy crowd.openingOf (roomOf crowd 1).live (roomOf crowd 2).live [274, 19]) ∧
    crowd.room 1 = some (roomOf crowd 1) ∧ crowd.room 2 = some (roomOf crowd 2) ∧ (roomOf crowd 1).anchor = 1 ∧
    (roomOf crowd 2).anchor = 2 ∧ ((roomOf crowd 1).queue ++ (roomOf crowd 2).queue).length = 33 ∧
    ((roomOf crowd 1).queue ++ (roomOf crowd 2).queue).Pairwise (fun x y => x.seat ≠ y.seat) ∧
    (roomOf crowd 1).profile.floorMode = .chair ∧ (roomOf crowd 1).priority = true := by
  refine ⟨⟨by constructor <;> decide +kernel, roomsOk_of ?_ ?_, queuesOk_of ?_ ?_, entriesRight_of ?_, ?_, ?_⟩, ?_⟩
  all_goals decide +kernel

/-- Rooms 1 and 2 ARMED with timers of these remains; the level of room 1 stands above, at or below the new ceiling of -20 steps. -/
def bothArmed (x y : Option RoomTimer) (level request : Int) : State :=
  (hallWith (fun r => { r with session := .armed, wake := ⟨true, false, false, false⟩, timer := x, level := level
                               profile := { r.profile with level := request } })).modRoom 2 (fun r =>
    { r with session := .armed, wake := ⟨false, false, false, true⟩, timer := y })

/-- The timer of either room is the shorter, or one has none; the level drops to a ceiling that meets the request, and not. -/
theorem witness_MergeLeavesOneRoom_armed :
    [(some ⟨2, 999⟩, some ⟨1, 0⟩), (some ⟨1, 0⟩, some ⟨1, 1⟩), (none, some ⟨3, 0⟩), (some ⟨3, 0⟩, none)].all (fun x =>
      let s := bothArmed x.1 x.2 (-12) (-12)
      s.room 1 = some (roomOf s 1) && s.room 2 = some (roomOf s 2) && (roomOf s 1).anchor = 1 && (roomOf s 2).anchor = 2 &&
        (roomOf (s.merge 1 2) 1).session = .armed && (roomOf (s.merge 1 2) 1).ceiling = -20 && -20 ≤ (roomOf s 1).profile.level)
      = true ∧
    ((1 : Int) * 1000 - 0 < 2 * 1000 - 999 ∨ (1 : Int) * 1000 - 1 < 1 * 1000 - 0) ∧
    (roomOf (bothArmed none none (-30) (-40)) 1).level ≤ (roomOf ((bothArmed none none (-30) (-40)).merge 1 2) 1).ceiling := by
  decide +kernel

/-- A merge of the two drops seat 273, keeps the order of opening, and mutes both LIVE delegates (R43, R44 (2), R45 (1)). -/
theorem test_merge : let t := crowd.merge 1 2
    (t.seat 273).mic = .idle ∧ (roomOf t 1).queue.length = 32 ∧ (roomOf t 1).live = [274, 19] ∧ (t.seat 274).muted = true ∧
    (t.seat 19).muted = true := by decide +kernel

theorem witness_SplitLeavesTwoRooms :
    (joined.CountersOff ∧ (hallWith (fun r => { r with session := .ending })).link.phase = .run) ∧
    joined.room 1 = some (roomOf joined 1) ∧ (roomOf joined 1).anchor = 1 ∧ (roomOf joined 1).segments = [1] ++ [2] ∧
    twf Seat.initial joined.floor.seats = true ∧
    ((joined.modRoom 1 (fun r => { r with profile := { r.profile with floorMode := .chair } })).room 1).map
      (fun r => r.profile.floorMode) = some .chair := by
  refine ⟨⟨by constructor <;> decide +kernel, ?_⟩, ?_⟩ <;> decide +kernel

/-- An ARMED room with conditions and a timer, an ENDING one without seats, and a ramp under way; its level is within both ceilings. -/
theorem witness_SplitLeavesTwoRooms_kept :
    [Session.armed, .ending].all (fun x =>
      let s := joined.modRoom 1 (fun r => { r with
        session := x, wake := ⟨true, false, false, true⟩, timer := some ⟨5, 10⟩, rotation := some 2, ramp := .ramping
        level := -40, live := [] })
      s.room 1 = some (roomOf s 1) && (roomOf s 1).anchor = 1 && s.seatsIn [1] (roomOf s 1).live = [] &&
        (roomOf s 1).level ≤ s.ceilingOf [1] && (roomOf s 1).level ≤ s.ceilingOf [2]) = true := by decide +kernel

theorem hasChannel_listed {s : State} {key : Key} (h : s.hasChannel key = true) :
    (∃ k, (k, some key) ∈ s.dist.allocation.slots) ∨ s.dist.unserved ≠ [] := by
  by_cases hu : s.dist.unserved = []
  · refine .inl ?_
    simp only [State.hasChannel, State.service, hu, positionOf] at h
    split at h
    · rename_i k hk
      have := List.mem_of_mem_head? hk
      simp only [tkeys, List.mem_map, List.mem_filter, decide_eq_true_eq] at this
      obtain ⟨x, ⟨hx, e⟩, rfl⟩ := this
      exact ⟨x.1, by rw [← e]; exact hx⟩
    · simp at h
  · exact .inr hu

theorem channelsOf_of {s : State} {r : Room} (hu : s.dist.unserved = []) (h : s.dist.allocation.slots.all (fun x =>
      x.2.all (fun key => key.anchor ≠ r.anchor || (r.session.hasChannels && r.profile.languages.contains key.code))) = true)
    (hr : (!r.session.hasChannels || r.profile.languages.all (fun c => s.hasChannel ⟨r.anchor, c⟩)) = true) : s.ChannelsOf r := by
  refine fun c => ⟨fun hc => ?_, fun ⟨h1, h2⟩ => ?_⟩
  · obtain ⟨k, hk⟩ | hn := hasChannel_listed hc
    · simpa using List.all_eq_true.1 h _ hk
    · exact absurd hu hn
  · simp only [h1, Bool.not_true, Bool.false_or, List.all_eq_true] at hr
    exact hr c h2

theorem noChannel_of {s : State} {a : Nat} (hu : s.dist.unserved = [])
    (h : s.dist.allocation.slots.all (fun x => x.2.all (fun y => y.anchor ≠ a)) = true) (l : Nat) : s.hasChannel ⟨a, l⟩ = false :=
  Bool.eq_false_iff.2 fun hc => by
    obtain ⟨k, hk⟩ | hn := hasChannel_listed hc
    · simpa using List.all_eq_true.1 h _ hk
    · exact hn hu

theorem channelsOk_of {s : State} (hu : s.dist.unserved = []) (h : (twf none s.dist.allocation.slots &&
      s.dist.allocation.slots.all (fun x => 12 ≤ x.1 && x.1 ≤ 63 &&
        s.dist.allocation.slots.all (fun y => x.2 ≠ y.2 || x.1 = y.1))) = true) : s.ChannelsOk := by
  simp only [Bool.and_eq_true, List.all_eq_true, decide_eq_true_eq, Bool.or_eq_true] at h
  have l : ∀ k key, tget none s.dist.allocation.slots k = some key → (k, some key) ∈ s.dist.allocation.slots :=
    fun k key hk => tget_listed hk (by simp)
  refine ⟨h.1, fun k key hk => (h.2 _ (l k key hk)).1, fun j k key hj hk => ?_, by simp [hu], by simp [hu], by simp [hu]⟩
  have := (h.2 _ (l j key hj)).2 _ (l k key hk)
  simpa using this

theorem ownersOk_of {s : State} (h : (twf Console.initial s.booth.consoles && s.booth.consoles.all (fun x =>
      x.2.owned.isSome = (x.2.state = .cueing || x.2.state = .onAir) && x.2.owned.all (fun key => s.hasChannel key) &&
        s.booth.consoles.all (fun y => x.2.owned.isNone || x.2.owned ≠ y.2.owned || x.1 = y.1))) = true) :
    s.OwnersOk ∧ s.OwnersHaveChannels := by
  simp only [Bool.and_eq_true, List.all_eq_true, decide_eq_true_eq, Bool.or_eq_true] at h
  have l : ∀ c key, (s.console c).owned = some key → (c, s.console c) ∈ s.booth.consoles :=
    fun c key hk => tget_listed rfl (fun e => by rw [e] at hk; simp [Console.initial] at hk)
  refine ⟨⟨h.1, fun c => ?_, fun c d key hc hd => ?_⟩, fun o key ho => ?_⟩
  · by_cases e : s.console c = Console.initial
    · simp [e, Console.initial]
    · have := (h.2 _ (tget_listed (v := s.console c) rfl e)).1.1
      simp [this]
  · have := (h.2 _ (l c key hc)).2 _ (l d key hd)
    simpa [hc, hd] using this
  · have := (h.2 _ (l o key ho)).1.2
    simpa [ho] using this

/-- Room 2 is in session too, with the languages 7 and 3; console 1 is on air in (1, 7), console 3 in (2, 7) and console 5 in
(2, 3). -/
def twoOnAir : State :=
  let s := (onAir.modRoom 2 (fun r =>
    { r with session := .inSession, profile := { r.profile with languages := [7, 3] } })).makeChannels [⟨2, 7⟩, ⟨2, 3⟩]
  let t := (s.setBooth 2 { Booth.initial with installed := true, home := 2, language := 7 }).setBooth 3
    { Booth.initial with installed := true, home := 2, language := 3 }
  (t.setConsole 3 { Console.initial with state := .onAir, owned := some ⟨2, 7⟩, indication := some .onAir }).setConsole 5
    { Console.initial with state := .cueing, owned := some ⟨2, 3⟩, indication := some .cueing }

/-- In a merge one owner is displaced and one keeps its re-keyed channel. In a split of the merged room one owner of two goes. -/
theorem witness_ChannelsAndOwnersFollowTheirRooms :
    let s := twoOnAir
    let m := twoOnAir.merge 1 2
    (s.ChannelsOk ∧ (s.OwnersOk ∧ s.OwnersHaveChannels) ∧ s.ChannelsOf (roomOf s 1) ∧ s.ChannelsOf (roomOf s 2)) ∧
    (m.ChannelsOk ∧ (m.OwnersOk ∧ m.OwnersHaveChannels) ∧ m.ChannelsOf (roomOf m 1) ∧ ∀ l, m.hasChannel ⟨2, l⟩ = false) ∧
    (s.room 1 = some (roomOf s 1) ∧ s.room 2 = some (roomOf s 2) ∧ (roomOf s 1).anchor = 1 ∧ (roomOf s 2).anchor = 2 ∧
      (roomOf s 1).profile.languages = [7, 9] ∧ (roomOf s 2).profile.languages = [7, 3]) ∧
    (m.room 1 = some (roomOf m 1) ∧ (roomOf m 1).anchor = 1) ∧
    (m.console 3).state = .releasing ∧ (m.console 5).owned = some ⟨1, 3⟩ ∧ (m.console 1).owned = some ⟨1, 7⟩ ∧
    m.consoleInUse 5 = true ∧ ((m.split 1 2 [1] [2]).console 5).owned = some ⟨2, 3⟩ ∧
    ((m.split 1 2 [1] [2]).console 1).owned = some ⟨1, 7⟩ := by
  refine ⟨⟨channelsOk_of ?_ ?_, ownersOk_of ?_, channelsOf_of ?_ ?_ ?_, channelsOf_of ?_ ?_ ?_⟩,
    ⟨channelsOk_of ?_ ?_, ownersOk_of ?_, channelsOf_of ?_ ?_ ?_, noChannel_of ?_ ?_⟩, ?_⟩ <;> decide +kernel

theorem witness_SeatSetAndTrimsStoreTheirFields :
    ((∀ f, config.CanTake f) ∧ ∀ f, hall.CanTake f) ∧ config.link.phase = .config ∧ hall.link.phase = .run ∧
    word16 3 240 ≤ 1023 ∧ word16 3 240 % 256 = 240 ∧ 240 < word16 3 241 % 256 :=
  ⟨⟨canTake_config, canTake_hall⟩, by decide +kernel⟩

theorem witness_SeatSetAndTrimsStoreTheirFields_trims :
    ((∀ f, hall.CanTake f) ∧ ∀ f, config.CanTake f) ∧ hall.link.phase = .run ∧ config.link.phase = .config ∧
    word16 0 17 % 256 = 17 ∧ (hall.seat (word16 0 17)).installed = true ∧ (hall.seat (word16 0 240)).installed = false ∧
    (hall.boothAt (2 : Byte).toNat).installed = true ∧ (hall.boothAt (24 : Byte).toNat).installed = false :=
  ⟨⟨canTake_hall, canTake_config⟩, by decide +kernel⟩

theorem seatAt_hall (n : Nat) (h : n = 17 ∨ n = 18) : hall.SeatAt n 1 (roomOf hall 1) := by
  rcases h with rfl | rfl <;> constructor <;> decide +kernel

theorem takesAny_speaking (m : Mic) : takesAny (speaking m) = true := by cases m <;> decide +kernel

theorem seatAt_speaking (m : Mic) : (speaking m).SeatAt 17 1 { roomOf hall 1 with live := [17] } := by
  constructor <;> cases m <;> decide +kernel

theorem witness_MicOpenAndClose :
    ((∀ f, hall.CanTake f) ∧ hall.SeatAt (word16 0 17) 1 (roomOf hall 1) ∧ hall.SeatAt (word16 0 18) 1 (roomOf hall 1) ∧
      (∀ m f, (speaking m).CanTake f) ∧ (∀ m, (speaking m).SeatAt (word16 0 17) 1 { roomOf hall 1 with live := [17] }) ∧
      (∀ f, waiting.CanTake f) ∧ waiting.SeatAt (word16 0 17) 1 (roomOf waiting 1)) ∧
    hall.link.phase = .run ∧ (roomOf hall 1).session = .inSession ∧ (hall.seat 17).mic = .idle ∧
    (hall.seat 18).mic = .idle ∧ (hall.seat 17).cls = .delegate ∧ (hall.seat 18).cls = .chair ∧
    (roomOf hall 1).closing = false ∧ hall.delegateCount (roomOf hall 1) < (roomOf hall 1).profile.openLimit ∧
    hall.chairCount (roomOf hall 1) < (roomOf hall 1).profile.chairLimit ∧ hall.freeSlot 0 = some 0 ∧
    hall.floor.openingCount ≠ 4294967295 ∧ (hall.seat (word16 0 240)).installed = false ∧ (roomOf hall 1).queue = [] ∧
    ([Mic.absent, .closing, .holdOff, .live].map (fun m => ((speaking m).seat 17).mic)) = [.absent, .closing, .holdOff, .live] ∧
    (waiting.seat 17).mic = .queued :=
  ⟨⟨canTake_hall, seatAt_hall 17 (.inl rfl), seatAt_hall 18 (.inr rfl), fun m f => canTake_of f (takesAny_speaking m),
    seatAt_speaking, canTake_waiting, seatAt_waiting⟩, by decide +kernel⟩

/-- Seat 19 is on the floor of room 1 in this state, the one delegate there, with this open limit; seat 17 waits. -/
def fullFloor (m : Mic) (limit : Nat) : State :=
  (waiting.setSeat 19 { Seat.initial with
    installed := true, mic := m, slot := some 0, openingNumber := some 4, liveNumber := some 3 }).modRoom 1 (fun r =>
      { r with live := [19], profile := { r.profile with openLimit := limit } })

/-- Seat 17 waits and passes the open test; seat 19 is on the floor while it waits, and its close lets promotion take seat 17. -/
theorem witness_MicOpenAndClose_waiting :
    ((∀ f, waiting.CanTake f) ∧ waiting.SeatAt (word16 0 17) 1 (roomOf waiting 1) ∧ (fullFloor .live 1).CanTake ⟨0x12, 0, [0, 19]⟩ ∧
      (fullFloor .live 1).SeatAt (word16 0 19) 1 (roomOf (fullFloor .live 1) 1)) ∧
    (roomOf waiting 1).session = .inSession ∧ (waiting.seat 17).mic = .queued ∧ (waiting.seat 17).cls = .delegate ∧
    (roomOf waiting 1).closing = false ∧ waiting.delegateCount (roomOf waiting 1) < (roomOf waiting 1).profile.openLimit ∧
    waiting.freeSlot 0 = some 0 ∧ waiting.floor.openingCount ≠ 4294967295 ∧ ((fullFloor .live 1).seat 19).mic = .live ∧
    (roomOf (fullFloor .live 1) 1).queue ≠ [] ∧
    ({ hall with floor := { hall.floor with openingCount := 4294967295 } } : State).freeSlot 0 ≠ none := by
  refine ⟨⟨canTake_waiting, seatAt_waiting, canTake_of _ ?_, ?_⟩, ?_⟩
  on_goal 2 => constructor
  all_goals decide +kernel

/-- At the limit of room 1, and with every upstream slot of D0 held. -/
theorem witness_MicOpenAndClose_refused :
    (hallWith (fun r => { r with profile := { r.profile with openLimit := 0, chairLimit := 0 } })).delegateCount
      (roomOf hall 1) = 0 ∧
    ((List.range 12).foldl (fun s k => s.setSeat (100 + k) { Seat.initial with slot := some k }) hall).freeSlot 0 = none := by
  decide +kernel

/-- Room 1 in this mode. -/
def inMode (m : FloorMode) : State := hallWith (fun r => { r with profile := { r.profile with floorMode := m } })

theorem seatAt_inMode (m : FloorMode) : (inMode m).SeatAt 17 1 (roomOf (inMode m) 1) := by
  constructor <;> cases m <;> decide +kernel

theorem witness_RequestsJoinAndLeaveTheQueue :
    ((inMode .chair).CanTake ⟨0x13, 0, [0, 17]⟩ ∧ (inMode .chair).SeatAt (word16 0 17) 1 (roomOf (inMode .chair) 1) ∧
      (inMode .chair).CountersOff ∧ waiting.CanTake ⟨0x14, 0, [0, 17]⟩) ∧
    (roomOf (inMode .chair) 1).session = .inSession ∧ ((inMode .chair).seat 17).mic = .idle ∧
    ((inMode .chair).seat 17).cls = .delegate ∧ (inMode .chair).blocked 17 = false ∧
    (roomOf (inMode .chair) 1).queue.length < 32 ∧ (inMode .chair).floor.stampCount ≠ 4294967295 ∧
    (roomOf (inMode .chair) 1).profile.floorMode = .chair ∧ (waiting.seat 17).cls = .delegate ∧
    (waiting.seat 17).mic = .queued :=
  ⟨⟨canTake_of _ (by decide +kernel), seatAt_inMode _, by constructor <;> decide +kernel, canTake_waiting _⟩, by decide +kernel⟩

/-- A chair; a room out of session and a seat in another state; a seat of a blocked group; 32 entries, and no stamp to give. -/
theorem witness_RequestsJoinAndLeaveTheQueue_refused :
    ((∀ f, hall.CanTake f) ∧ hall.SeatAt (word16 0 18) 1 (roomOf hall 1) ∧ hall.SeatAt (word16 0 17) 1 (roomOf hall 1) ∧
      (inState .armed).CanTake ⟨0x13, 0, [0, 17]⟩ ∧ (inState .armed).SeatAt (word16 0 17) 1 (roomOf (inState .armed) 1) ∧
      (∀ f, waiting.CanTake f) ∧ waiting.SeatAt (word16 0 17) 1 (roomOf waiting 1)) ∧
    (hall.seat 18).cls = .chair ∧ (roomOf (inState .armed) 1).session ≠ .inSession ∧ (waiting.seat 17).mic ≠ .idle ∧
    (hall.seat 17).mic ≠ .queued ∧
    [hall.setGroup 5 ⟨true, 17, 1023, 0, true⟩,
      hallWith (fun r => { r with queue := (List.range 32).map (fun k => ⟨20 + k, k, 1⟩) }),
      { hall with floor := { hall.floor with stampCount := 4294967295 } }].map (fun s =>
        (takesAny s && (s.seat 17).mic = .idle && (s.seat 17).cls = .delegate && s.seatAnchor 17 = some 1, s.blocked 17,
          (roomOf s 1).queue.length, s.floor.stampCount)) =
      [(true, true, 0, 0), (true, false, 32, 0), (true, false, 0, 4294967295)] := by
  refine ⟨⟨canTake_hall, ?_, ?_, canTake_of _ ?_, ?_, canTake_waiting, seatAt_waiting⟩, ?_⟩
  on_goal 1 => constructor
  on_goal 6 => constructor
  on_goal 12 => constructor
  all_goals decide +kernel

/-- Out of session; under an active CLOSE action; with an empty queue; with every slot of D0 held; at the end of the opening count. -/
def turnedAway : List State :=
  [inState .ending, hallWith (fun r => { r with priority := true, profile := { r.profile with action := .closeAll } }), hall,
    (List.range 12).foldl (fun s k => s.setSeat (100 + k) { Seat.initial with slot := some k }) waiting,
    { waiting with floor := { waiting.floor with openingCount := 4294967295 } }]

theorem witness_NextAndQueueClear_refused :
    turnedAway.all (fun s => takesAny s && s.anchorOf 1 = some 1 && (s.segment 1).installed &&
      (s.room 1).map Room.anchor = some 1) = true ∧
    turnedAway.map (fun s => ((roomOf s 1).session, (roomOf s 1).closing, (roomOf s 1).queue.map Entry.seat)) =
      [(.ending, false, []), (.inSession, true, []), (.inSession, false, []), (.inSession, false, [17]),
        (.inSession, false, [17])] ∧
    turnedAway.map (fun s => (s.freeSlot 0, s.floor.openingCount)) =
      [(some 0, 0), (some 0, 0), (some 0, 0), (none, 0), (some 0, 4294967295)] ∧
    seatBus 17 = 0 ∧ (roomOf waiting 1).queue = [⟨17, 0, 1⟩] ∧ 1 ∈ (roomOf waiting 1).segments := by decide +kernel

theorem witness_NextAndQueueClear :
    (waiting.CanTake ⟨0x15, 0, [1, 0]⟩ ∧ waiting.CanTake ⟨0x16, 0, [1]⟩ ∧
      waiting.RoomAt (1 : Byte).toNat 1 (roomOf waiting 1) ∧ waiting.CountersOff) ∧
    (roomOf waiting 1).session = .inSession ∧ (roomOf waiting 1).closing = false ∧ (roomOf waiting 1).queue ≠ [] ∧
    waiting.candidate (roomOf waiting 1) = some ⟨17, 0, 1⟩ ∧
    waiting.delegateCount (roomOf waiting 1) < (roomOf waiting 1).profile.openLimit ∧
    waiting.floor.openingCount ≠ 4294967295 ∧ waiting.seatAnchor 17 = some 1 ∧ (waiting.seat 17).mic = .queued :=
  ⟨⟨canTake_waiting _, canTake_waiting _, roomAt_waiting, countersOff_waiting⟩, by decide +kernel⟩

theorem replaced_fullFloor (m : Mic) (h : m = .live ∨ m = .opening) :
    (fullFloor m 1).Replaced (roomOf (fullFloor m 1) 1) 19 := by
  have l : (roomOf (fullFloor m 1) 1).live = [19] := by rcases h with rfl | rfl <;> decide +kernel
  refine ⟨by simp [l], by rcases h with rfl | rfl <;> decide +kernel, ?_⟩
  rcases h with rfl | rfl
  · exact .inl ⟨by decide +kernel, 3, by decide +kernel, by simp [l]⟩
  · refine .inr ⟨by decide +kernel, ?_, 4, by decide +kernel, by simp [l]⟩
    simp only [l]; decide +kernel

/-- At the limit, with a LIVE delegate and with an OPENING one, and above it. -/
theorem witness_NextAndQueueClear_replace (m : Mic) (h : m = .live ∨ m = .opening) :
    ((fullFloor m 1).CanTake ⟨0x15, 0, [1, 1]⟩ ∧ (fullFloor m 1).CanTake ⟨0x15, 0, [1, 0]⟩ ∧
      (fullFloor m 0).CanTake ⟨0x15, 0, [1, 1]⟩) ∧
    ((fullFloor m 1).RoomAt (1 : Byte).toNat 1 (roomOf (fullFloor m 1) 1) ∧
      (fullFloor m 0).RoomAt (1 : Byte).toNat 1 (roomOf (fullFloor m 0) 1) ∧
      (fullFloor m 1).Replaced (roomOf (fullFloor m 1) 1) 19) ∧
    (roomOf (fullFloor m 1) 1).session = .inSession ∧ (roomOf (fullFloor m 1) 1).closing = false ∧
    (fullFloor m 1).candidate (roomOf (fullFloor m 1) 1) = some ⟨17, 0, 1⟩ ∧
    (fullFloor m 1).delegateCount (roomOf (fullFloor m 1) 1) = (roomOf (fullFloor m 1) 1).profile.openLimit ∧
    (fullFloor m 1).seatAnchor 17 = some 1 ∧ ((fullFloor m 1).seat 17).mic = .queued ∧ (fullFloor m 1).seatAnchor 19 = some 1 ∧
    (roomOf (fullFloor m 0) 1).profile.openLimit < (fullFloor m 0).delegateCount (roomOf (fullFloor m 0) 1) := by
  refine ⟨⟨canTake_of _ ?_, canTake_of _ ?_, canTake_of _ ?_⟩, ⟨?_, ?_, replaced_fullFloor m h⟩, ?_⟩
  on_goal 4 => constructor
  on_goal 9 => constructor
  all_goals (rcases h with rfl | rfl <;> decide +kernel)

theorem witness_TheCandidateFollowsTheServiceOrder :
    (∃ top : Entry → Prop, ∀ e, top e ↔ e ∈ (roomOf waiting 1).queue ∧ waiting.eligible e = true ∧
      ∀ x ∈ (roomOf waiting 1).queue, waiting.eligible x = true → waiting.rank x.seat ≤ waiting.rank e.seat) ∧
    (roomOf waiting 1).profile.service = .arrival ∧
    (roomOf waiting 1).queue.Pairwise (fun x y => x.stamp < y.stamp) ∧ (roomOf waiting 1).queue ≠ [] ∧
    ∀ e ∈ (roomOf waiting 1).queue, e.segment ∈ (roomOf waiting 1).segments := ⟨⟨_, fun _ => .rfl⟩, by decide +kernel⟩

theorem entriesRight_waiting : waiting.EntriesRight := entriesRight_of (by decide +kernel)

theorem witness_PromotionTakesCandidateAfterCandidate :
    (waiting.EntriesRight ∧ hall.CanTake ⟨0x13, 0, [0, 17]⟩ ∧ hall.SeatAt (word16 0 17) 1 (roomOf hall 1) ∧ hall.CountersOff) ∧
    (roomOf waiting 1).anchor = 1 ∧ waiting.room 1 = some (roomOf waiting 1) ∧
    (roomOf waiting 1).profile.floorMode = .request ∧ (roomOf waiting 1).session = .inSession ∧
    waiting.candidate (roomOf waiting 1) = some ⟨17, 0, 1⟩ ∧ waiting.openTest 17 = none ∧
    (roomOf hall 1).queue = [] ∧ (hall.seat 17).segment ∈ (roomOf hall 1).segments ∧ hall.freeSlot 0 = some 0 :=
  ⟨⟨entriesRight_waiting, canTake_hall _, seatAt_hall 17 (.inl rfl), countersOff_hall⟩, by decide +kernel⟩

/-- A number below every listed one that satisfies `p` is below every number that satisfies it. -/
theorem listed_le {α : Type} {d : α} {t : Table α} {n : Nat} (p : α → Bool) (h : t.all (fun x => !p x.2 || decide (n ≤ x.1)) = true)
    (hd : p d = false) (k : Nat) (hk : p (tget d t k) = true) : n ≤ k := by
  have := List.all_eq_true.1 h _ (tget_listed (v := tget d t k) rfl (fun e => by rw [e, hd] at hk; cases hk))
  simpa [hk] using this

/-- What every listed record and the record of an unlisted number satisfy, every record satisfies. -/
theorem tget_all {α : Type} {d : α} {t : Table α} (p : Nat → α → Bool) (h : t.all (fun x => p x.1 x.2) = true)
    (hd : ∀ k, p k d = true) (k : Nat) : p k (tget d t k) = true := by
  by_cases e : tget d t k = d
  · rw [e]; exact hd k
  · exact List.all_eq_true.1 h _ (tget_listed (v := tget d t k) rfl e)

/-- Seat 17 is being closed, and all twelve slots of D0 are held. -/
def allHeld : State := (List.range 11).foldl (fun s k => s.setSeat (100 + k)
  { Seat.initial with installed := true, segment := 3, slot := some (k + 1) }) (speaking .closing)

/-- Seat `n` of this segment waits in its room, which is in session. -/
def withWaiting (s : State) (a n k : Nat) : State :=
  (s.modRoom a (fun r => { r with session := .inSession, queue := [⟨n, k, a⟩] })).setSeat n
    { Seat.initial with installed := true, segment := a, mic := .queued, stamp := some k }

theorem slotsOk_of {s : State} (h1 : twf Seat.initial s.floor.seats = true)
    (h2 : s.floor.seats.all (fun x => x.2.slot.all (fun k => k < 12 &&
      s.floor.seats.all (fun y => x.1 = y.1 || seatBus x.1 ≠ seatBus y.1 || y.2.slot ≠ some k))) = true) : s.slotsOk := by
  have l : ∀ n k, (s.seat n).slot = some k → (n, s.seat n) ∈ s.floor.seats := fun n k h =>
    tget_listed rfl (fun e => by rw [e] at h; simp [Seat.initial] at h)
  simp only [List.all_eq_true] at h2
  refine ⟨h1, fun n k h => ?_, fun n m k hn hb h h' => ?_⟩
  · have := h2 _ (l n k h)
    simp only [h, Option.all_some, Bool.and_eq_true, decide_eq_true_eq] at this
    exact this.1
  · have := h2 _ (l n k h)
    simp only [h, Option.all_some, Bool.and_eq_true, List.all_eq_true] at this
    simpa [hn, hb, h'] using this.2 _ (l m k h')

/-- An exchange of this seat of D0 awaits its answer in this state. -/
theorem awaitsSeat_of {s : State} {x : Exchange} {r : Room} (hq : quiet s = true) (hx : s.awaited 0 = some x)
    (hs : x.address < 256) (hp : (s.unit 0 x.address).presence = .present) (h : s.SeatAt (0 * 256 + x.address) 1 r)
    (hc : s.CountersOff) : s.AwaitsSeat .d0 0 (0 * 256 + x.address) 1 x r := by
  have up : s.resetLow = false := by
    simp only [quiet, Bool.and_eq_true, Bool.not_eq_true', decide_eq_true_eq] at hq; tauto
  exact ⟨⟨rfl, up, nothingDue_of_quiet hq, hx⟩, ⟨by decide, hs⟩, rfl, hp, h, hc⟩

/-- Seat 17 is being polled on the floor in this state of its microphone. -/
theorem awaits_speaking (m : Mic) : (asking (speaking m) .poll).AwaitsSeat .d0 0 (0 * 256 + 17) 1 ⟨17, .poll, true⟩
    { roomOf hall 1 with live := [17] } := by
  refine awaitsSeat_of (x := ⟨17, .poll, true⟩) ?_ ?_ ?_ ?_ ?_ ?_
  on_goal 5 => constructor
  on_goal 10 => constructor
  all_goals (cases m <;> decide +kernel)

/-- Rooms 1 and 2 may promote, or room 2 alone, or none; each entry waits for D0. -/
theorem witness_PromotionTakesCandidateAfterCandidate_returned :
    let s1 := asking (withWaiting (withWaiting allHeld 1 30 0) 2 32 2) .close
    let s2 := asking (withWaiting allHeld 2 32 2) .close
    let s3 := asking allHeld .close
    ((s1.AwaitsSeat .d0 0 (0 * 256 + 17) 1 ⟨17, .close, true⟩ (roomOf s1 1) ∧ s1.slotsOk ∧ s1.EntriesRight) ∧
      (s2.AwaitsSeat .d0 0 (0 * 256 + 17) 1 ⟨17, .close, true⟩ (roomOf s2 1) ∧ s2.slotsOk ∧ s2.EntriesRight) ∧
      s3.AwaitsSeat .d0 0 (0 * 256 + 17) 1 ⟨17, .close, true⟩ (roomOf s3 1) ∧ s3.slotsOk ∧ s3.EntriesRight) ∧
    [s1, s2, s3].all (fun s => (s.seat 17).mic = .closing && (s.seat 17).slot = some 0 && s.freeSlot 0 = none &&
      twf none s.hall.rooms && s.floor.openingCount ≠ 4294967295 && s.hall.rooms.all (fun x => x.2.all (fun q =>
        q.queue.all (fun e => seatBus e.seat = 0 && (s.seat e.seat).cls = .delegate && q.segments.contains e.segment)))) = true ∧
    [s1, s2, s3].map (fun s => [1, 2, 3].map (fun a => (roomOf s a).queue ≠ [] && s.promotes (roomOf s a))) =
      [[true, true, false], [false, true, false], [false, false, false]] := by
  refine ⟨⟨⟨awaitsSeat_of (x := ⟨17, .close, true⟩) ?_ ?_ ?_ ?_ ?_ ?_, slotsOk_of ?_ ?_, entriesRight_of ?_⟩,
    ⟨awaitsSeat_of (x := ⟨17, .close, true⟩) ?_ ?_ ?_ ?_ ?_ ?_, slotsOk_of ?_ ?_, entriesRight_of ?_⟩,
    awaitsSeat_of (x := ⟨17, .close, true⟩) ?_ ?_ ?_ ?_ ?_ ?_, slotsOk_of ?_ ?_, entriesRight_of ?_⟩, ?_⟩
  on_goal 5 => constructor
  on_goal 10 => constructor
  on_goal 20 => constructor
  on_goal 25 => constructor
  on_goal 35 => constructor
  on_goal 40 => constructor
  all_goals decide +kernel

theorem awaits_hall (n : Nat) (h : n = 17 ∨ n = 18) :
    (hall.carry 0 (some ⟨n, .poll, true⟩)).AwaitsSeat .d0 0 (0 * 256 + n) 1 ⟨n, .poll, true⟩ (roomOf hall 1) := by
  rcases h with rfl | rfl
  all_goals
    refine awaitsSeat_of (x := ⟨_, .poll, true⟩) ?_ ?_ ?_ ?_ ?_ ?_
    on_goal 5 => constructor
    on_goal 10 => constructor
    all_goals decide +kernel

theorem witness_PressesOnADelegate :
    ((hall.carry 0 (some ⟨17, .poll, true⟩)).AwaitsSeat .d0 0 (0 * 256 + 17) 1 ⟨17, .poll, true⟩ (roomOf hall 1) ∧
      ∀ m, (asking (speaking m) .poll).AwaitsSeat .d0 0 (0 * 256 + 17) 1 ⟨17, .poll, true⟩
        { roomOf hall 1 with live := [17] }) ∧
    (roomOf hall 1).session = .inSession ∧ (hall.seat 17).cls = .delegate ∧ (hall.seat 17).mic = .idle ∧
    hall.blocked 17 = false ∧ (roomOf hall 1).profile.mayClose = true ∧ (roomOf hall 1).queue = [] :=
  ⟨⟨awaits_hall 17 (.inl rfl), awaits_speaking⟩, by decide +kernel⟩

/-- Seat 17 is being polled in IDLE, in room 1 changed by `f`, with every slot of D0 held or not. -/
def pressing (held : Bool) (f : Room → Room) : State :=
  ((if held then (List.range 12).foldl (fun s k => s.setSeat (100 + k)
    { Seat.initial with installed := true, segment := 3, slot := some k }) hall else hall).modRoom 1 f).carry 0
      (some ⟨17, .poll, true⟩)

/-- Room 1 in this mode, with this overflow, open limit and number of entries. -/
def busyRoom (m : FloorMode) (o : Overflow) (limit n : Nat) (r : Room) : Room :=
  { r with queue := (List.range n).map (fun k => ⟨30 + k, k, 1⟩)
           profile := { r.profile with floorMode := m, overflow := o, openLimit := limit } }

theorem awaits_pressing (held : Bool) (f : Room → Room) (ha : (f (roomOf hall 1)).anchor = 1)
    (hq : quiet (pressing held f) = true) : (pressing held f).AwaitsSeat .d0 0 (0 * 256 + 17) 1 ⟨17, .poll, true⟩
      (f (roomOf hall 1)) := by
  refine awaitsSeat_of (x := ⟨17, .poll, true⟩) hq ?_ (by decide) ?_ ?_ ?_
  on_goal 3 => constructor
  on_goal 7 => exact ha
  on_goal 7 => constructor
  all_goals (cases held; all_goals (first | rfl | exact countersOff_hall.off))

/-- A press that is refused at the limit, for want of a slot and by a full queue, and one that joins the queue. -/
theorem witness_PressesOnADelegate_refused :
    [(false, busyRoom .openFloor .refuse 0 0), (true, busyRoom .openFloor .refuse 4 0), (false, busyRoom .chair .queue 4 32),
      (true, busyRoom .openFloor .queue 4 32), (false, busyRoom .chair .queue 4 31), (true, busyRoom .request .queue 4 0),
      (false, busyRoom .openFloor .queue 0 0), (false, busyRoom .request .queue 4 0)].all (fun x =>
        let s := pressing x.1 x.2
        quiet s && (x.2 (roomOf hall 1)).anchor = 1 && (x.2 (roomOf hall 1)).session = .inSession && (s.seat 17).mic = .idle &&
        !s.blocked 17 && s.freeSlot 0 = (if x.1 then none else some 0) && s.floor.stampCount ≠ 4294967295 &&
        s.delegateCount (x.2 (roomOf hall 1)) = 0 && !(x.2 (roomOf hall 1)).closing) = true := by decide +kernel

theorem witness_ChairsPressAndHoldPriority :
    (hall.carry 0 (some ⟨18, .poll, true⟩)).AwaitsSeat .d0 0 (0 * 256 + 18) 1 ⟨18, .poll, true⟩ (roomOf hall 1) ∧
    (roomOf hall 1).session = .inSession ∧ (hall.seat 18).cls = .chair ∧ (hall.seat 18).mic = .idle ∧
    (hall.unit 0 18).held = false ∧ (roomOf hall 1).priority = false ∧ (roomOf hall 1).profile.action = .muteAll ∧
    hall.chairCount (roomOf hall 1) < (roomOf hall 1).profile.chairLimit ∧ hall.freeSlot (seatBus 18) = some 0 ∧
    (let s := hall.setUnit 0 18 { hall.unit 0 18 with held := true }
     (s.unit 0 18).held = true ∧ s.chairsHolding [1] = [18]) := ⟨awaits_hall 18 (.inr rfl), by decide +kernel⟩

/-- Seat 40 is LIVE in room 1 and seat 50 waits, under this action, priority and chair limit; chair 18 is being polled. -/
def takingFloor (x : PriorityAction) (active : Bool) (limit : Nat) : State :=
  let s := (hall.setSeat 40 { Seat.initial with installed := true, mic := .live, slot := some 1, openingNumber := some 0 }).setSeat 50
    { Seat.initial with installed := true, mic := .queued, stamp := some 0 }
  (s.modRoom 1 (fun r => { r with live := [40], queue := [⟨50, 0, 1⟩], priority := active
                                  profile := { r.profile with action := x, chairLimit := limit } })).carry 0
    (some ⟨18, .poll, true⟩)

/-- PRIORITY becomes held under every action, not active yet and active, with a place for a chair and without one. -/
theorem witness_ChairsPressAndHoldPriority_actions (x : PriorityAction) (active : Bool) (limit : Nat) (h : limit = 0 ∨ limit = 2) :
    (takingFloor x active limit).AwaitsSeat .d0 0 (0 * 256 + 18) 1 ⟨18, .poll, true⟩ (roomOf (takingFloor x active limit) 1) ∧
    (let s := takingFloor x active limit
     (roomOf s 1).session = .inSession ∧ (roomOf s 1).priority = active ∧ (roomOf s 1).profile.action = x ∧
     (roomOf s 1).profile.chairLimit = limit ∧ s.chairCount (roomOf s 1) = 0 ∧ s.freeSlot 0 = some 0 ∧
     s.floor.openingCount ≠ 4294967295 ∧ (s.seat 18).cls = .chair ∧ (s.seat 18).mic = .idle ∧ (s.unit 0 18).held = false ∧
     ∀ e ∈ (roomOf s 1).queue, s.seatAnchor e.seat = some 1 ∧ e.seat ∉ (roomOf s 1).live ∧ e.seat ≠ 18) := by
  refine ⟨awaitsSeat_of (x := ⟨18, .poll, true⟩) ?_ ?_ ?_ ?_ ?_ ?_, ?_⟩
  on_goal 5 => constructor
  on_goal 10 => constructor
  all_goals (rcases h with rfl | rfl <;> cases active <;> cases x <;> decide +kernel)

theorem countersReady_of {s : State} (h : (s.counts.raised = [] && !s.counts.deferring &&
    counterNumbers.all (fun c => (s.counter c).value < 4294967295)) = true) : s.CountersReady := by
  simp only [Bool.and_eq_true, List.all_eq_true, decide_eq_true_eq, Bool.not_eq_true'] at h
  exact ⟨h.1.1, h.1.2, h.2⟩

/-- Room 1 is ARMED with the three press conditions or none, in mode OPEN; no channel exists yet. -/
def asleep (w : Bool) : State :=
  let s := hallWith (fun r => { r with session := .armed, wake := ⟨w, w, w, false⟩
                                       profile := { r.profile with floorMode := .openFloor } })
  { s with dist := run.dist }

/-- A delegate, a chair and a console that wake room 1, and the two seats in a room that they do not wake. -/
theorem witness_PressesOutOfSession :
    (((asleep true).carry 0 (some ⟨17, .poll, true⟩)).AwaitsSeat .d0 0 (0 * 256 + 17) 1 ⟨17, .poll, true⟩ (roomOf (asleep true) 1) ∧
      ((asleep true).carry 0 (some ⟨18, .poll, true⟩)).AwaitsSeat .d0 0 (0 * 256 + 18) 1 ⟨18, .poll, true⟩ (roomOf (asleep true) 1)) ∧
    (((asleep false).carry 0 (some ⟨17, .poll, true⟩)).AwaitsSeat .d0 0 (0 * 256 + 17) 1 ⟨17, .poll, true⟩ (roomOf (asleep false) 1) ∧
      ((asleep false).carry 0 (some ⟨18, .poll, true⟩)).AwaitsSeat .d0 0 (0 * 256 + 18) 1 ⟨18, .poll, true⟩
        (roomOf (asleep false) 1)) ∧
    [true, false].all (fun w =>
      let s := asleep w
      (roomOf s 1).session = .armed && (roomOf s 1).wake.chairPress = w && (roomOf s 1).wake.delegatePress = w &&
      (roomOf s 1).wake.consolePress = w && (s.seat 17).mic = .idle && (s.seat 18).mic = .idle && (roomOf s 1).queue = [] &&
      s.chairsHolding (roomOf s 1).segments = [] && (s.seat 17).cls = .delegate && (s.seat 18).cls = .chair && !s.blocked 17 &&
      !(roomOf s 1).closing && s.delegateCount (roomOf s 1) < (roomOf s 1).profile.openLimit &&
      s.chairCount (roomOf s 1) < (roomOf s 1).profile.chairLimit && s.freeSlot 0 = some 0 &&
      s.floor.openingCount ≠ 4294967295 && !(s.unit 0 18).held && twf Seat.initial s.floor.seats &&
      (roomOf s 1).segments.contains (s.seat 18).segment) = true := by
  refine ⟨⟨awaitsSeat_of (x := ⟨17, .poll, true⟩) ?_ ?_ ?_ ?_ ?_ ?_, awaitsSeat_of (x := ⟨18, .poll, true⟩) ?_ ?_ ?_ ?_ ?_ ?_⟩,
    ⟨awaitsSeat_of (x := ⟨17, .poll, true⟩) ?_ ?_ ?_ ?_ ?_ ?_, awaitsSeat_of (x := ⟨18, .poll, true⟩) ?_ ?_ ?_ ?_ ?_ ?_⟩, ?_⟩
  on_goal 5 => constructor
  on_goal 10 => constructor
  on_goal 17 => constructor
  on_goal 22 => constructor
  on_goal 29 => constructor
  on_goal 34 => constructor
  on_goal 41 => constructor
  on_goal 46 => constructor
  all_goals decide +kernel

/-- A delegate and a chair are woken into OPENING, and a chair's PRIORITY becomes active at the wake (R30, R101). -/
theorem test_wakes :
    let s := (asleep true).carry 0 (some ⟨17, .poll, true⟩)
    let t := (asleep true).carry 0 (some ⟨18, .poll, true⟩)
    ((s.hear 0 none 1 false .delegate).seat 17).mic = .opening ∧ ((t.hear 0 none 1 false .chair).seat 18).mic = .opening ∧
    (roomOf (t.hear 0 none 0 true .chair) 1).priority = true := by decide +kernel

/-- Seat 17 in CLOSING and HOLD_OFF, in a room that is ENDING. -/
theorem witness_PressesOutOfSession_toggle (m : Mic) (h : m = .closing ∨ m = .holdOff) :
    let s := asking ((speaking m).modRoom 1 (fun r => { r with session := .ending })) .poll
    s.AwaitsSeat .d0 0 (0 * 256 + 17) 1 ⟨17, .poll, true⟩ (roomOf s 1) ∧ (roomOf s 1).session = .ending ∧ (s.seat 17).mic = m := by
  refine ⟨awaitsSeat_of (x := ⟨17, .poll, true⟩) ?_ ?_ ?_ ?_ ?_ ?_, ?_⟩
  on_goal 5 => constructor
  on_goal 10 => constructor
  all_goals (rcases h with rfl | rfl <;> decide +kernel)

/-- A number or a coded byte outside its check, and a blocking that comes into force in CONFIG. -/
theorem witness_GroupSetStoresTheRecord_checks :
    (∀ f, config.CanTake f) ∧
    [[0, 1, 0, 0, 0, 0, 0, 0], [17, 1, 0, 0, 0, 0, 0, 0], [1, 1, 4, 0, 0, 0, 0, 0], [1, 1, 0, 0, 4, 0, 0, 0], [1, 1, 0, 0, 0, 0, 4, 0]].map
      (fun b => (readGroupSet b).map (fun x => (x.1, x.2.base, x.2.mask, x.2.rank))) =
      [some (0, 0, 0, 0), some (17, 0, 0, 0), some (1, 1024, 0, 0), some (1, 0, 1024, 0), some (1, 0, 0, 4)] ∧
    1 < byteAt [1, 2, 0, 0, 0, 0, 0, 0] 1 ∧ 1 < byteAt [1, 1, 0, 0, 0, 0, 0, 2] 7 ∧ config.link.phase = .config ∧
    readGroupSet [3, 1, 0, 16, 3, 240, 0, 1] = some (3, ⟨true, 16, 1008, 0, true⟩) ∧ (config.group 3).inForce = false ∧
    Group.inForce ⟨true, 16, 1008, 0, true⟩ = true := ⟨canTake_config, by decide +kernel⟩

theorem witness_GroupSetStoresTheRecord :
    ((∀ f, config.CanTake f) ∧ (∀ f, hall.CanTake f) ∧ hall.CountersOff) ∧ config.link.phase = .config ∧ hall.link.phase = .run ∧
    readGroupSet [16, 1, 3, 255, 3, 255, 3, 0] = some (16, ⟨true, 1023, 1023, 3, false⟩) :=
  ⟨⟨canTake_config, canTake_hall, countersOff_hall⟩, by decide +kernel⟩

/-- Group 3 takes seats 16 to 31 of D0: seat 17, which waits, and seat 18, which is IDLE. -/
theorem witness_BlockingDropsTheNewlyBlocked :
    (waiting.CanTake ⟨0x1F, 0, [3, 1, 0, 16, 3, 240, 0, 1]⟩ ∧ waiting.CountersOff ∧ waiting.EntriesRight) ∧
    waiting.link.phase = .run ∧ twf Seat.initial waiting.floor.seats = true ∧
    readGroupSet [3, 1, 0, 16, 3, 240, 0, 1] = some (3, ⟨true, 16, 1008, 0, true⟩) ∧
    (waiting.group 3).inForce = false ∧ Group.inForce ⟨true, 16, 1008, 0, true⟩ = true ∧
    [17, 18].all (fun n => (waiting.seat n).installed && !waiting.blocked n && groupTakes ⟨true, 16, 1008, 0, true⟩ n &&
      waiting.seatInSession n) = true ∧ (waiting.seat 17).mic = .queued ∧ (waiting.seat 18).mic = .idle :=
  ⟨⟨canTake_waiting _, countersOff_waiting, entriesRight_waiting⟩, by decide +kernel⟩

/-- A newly blocked seat in ABSENT keeps the NO_SESSION of its START (R110, R125). -/
theorem test_absent_kept :
    ((hall.setSeat 20 { Seat.initial with installed := true }).setGroup 3 ⟨true, 16, 1008, 0, true⟩).reform 20 =
      (hall.setSeat 20 { Seat.initial with installed := true }).setGroup 3 ⟨true, 16, 1008, 0, true⟩ := by decide +kernel

/-- The same group is in force and nobody waits; the request ends its blocking. -/
theorem witness_BlockingDropsTheNewlyBlocked_freed :
    let s := hall.setGroup 3 ⟨true, 16, 1008, 0, true⟩
    (s.CanTake ⟨0x1F, 0, [3, 1, 0, 16, 3, 240, 0, 0]⟩ ∧ s.CountersOff) ∧ (s.group 3).inForce = true ∧
    Group.inForce ⟨true, 16, 1008, 0, false⟩ = false ∧ s.hall.rooms.all (fun x => x.2.all (fun r => r.queue = [])) = true ∧
    s.blocked 17 = true ∧ (s.setGroup 3 ⟨true, 16, 1008, 0, false⟩).blocked 17 = false ∧ (s.seat 17).mic = .idle := by
  refine ⟨⟨canTake_of _ ?_, ?_⟩, ?_⟩
  on_goal 2 => constructor
  all_goals decide +kernel

theorem witness_BoothRequestsStoreAndRelease :
    ((∀ f, config.CanTake f) ∧ ∀ f, hall.CanTake f) ∧ config.link.phase = .config ∧ hall.link.phase = .run ∧
    (62 : Byte) ≠ 63 := ⟨⟨canTake_config, canTake_hall⟩, by decide +kernel⟩

theorem witness_BoothRequestsStoreAndRelease_sourceAndOff :
    (hall.CanTake ⟨0x1A, 0, [1, 1, 9]⟩ ∧ hall.RoomAt (hall.boothAt (1 : Byte).toNat).home 1 (roomOf hall 1) ∧
      onAir.CanTake ⟨0x1C, 0, [1]⟩ ∧ onAir.CountersOff) ∧
    hall.link.phase = .run ∧ (hall.boothAt (1 : Byte).toNat).installed = true ∧
    (hall.boothAt 1).home ∈ (roomOf hall 1).segments ∧ (9 : Byte).toNat ≠ (hall.boothAt (1 : Byte).toNat).language ∧
    onAir.link.phase = .run ∧ (onAir.boothAt (1 : Byte).toNat).installed = true ∧ onAir.boothOwner (1 : Byte).toNat = some 1 := by
  refine ⟨⟨canTake_hall _, ?_, canTake_of _ ?_, ?_⟩, ?_⟩
  on_goal 1 => constructor
  on_goal 7 => constructor
  all_goals decide +kernel

/-- Console 1 is exchanged with in this state, and room 1 is its room. -/
theorem awaitsConsole_of {s : State} {x : Exchange} {r : Room} (hq : quiet s = true) (hx : s.awaited 4 = some x)
    (hp : (s.unit 4 x.address).presence = .present) (hm : s.boothAnchor (consoleBooth x.address) = some 1)
    (hr : s.room 1 = some r) (ha : r.anchor = 1) (hc : s.CountersOff) : s.AwaitsConsole x 1 r := by
  have up : s.resetLow = false := by
    simp only [quiet, Bool.and_eq_true, Bool.not_eq_true', decide_eq_true_eq] at hq; tauto
  exact ⟨⟨rfl, up, nothingDue_of_quiet hq, hx⟩, hp, hm, hr, ha, hc⟩

theorem awaitsConsole_hall (c : Command) (f : Console → Console) :
    ((hall.setConsole 1 (f (hall.console 1))).carry 4 (some ⟨1, c, true⟩)).AwaitsConsole ⟨1, c, true⟩ 1 (roomOf hall 1) := by
  have base : (hall.carry 4 (some ⟨1, .poll, true⟩)).AwaitsConsole ⟨1, .poll, true⟩ 1 (roomOf hall 1) := by
    refine awaitsConsole_of ?_ ?_ ?_ ?_ ?_ ?_ ?_
    on_goal 7 => constructor
    all_goals decide +kernel
  exact ⟨⟨rfl, rfl, ⟨⟨base.due.ramps, rfl⟩, rfl, base.due.inputs, rfl, base.due.timers, base.due.seats, rfl, .inl rfl⟩, rfl⟩,
    base.present, base.map, base.room, base.anchor, ⟨base.counters.off, rfl, rfl⟩⟩

/-- Console 2, of the same booth, owns the channel (1, 7). -/
def rival : State :=
  ((hall.setUnit 4 2 (present .onAir .console)).setConsole 2
    { Console.initial with state := .onAir, owned := some ⟨1, 7⟩, indication := some .onAir }).carry 4 (some ⟨1, .poll, true⟩)

theorem awaitsConsole_rival : rival.AwaitsConsole ⟨1, .poll, true⟩ 1 (roomOf hall 1) := by
  refine awaitsConsole_of ?_ ?_ ?_ ?_ ?_ ?_ ?_
  on_goal 7 => constructor
  all_goals decide +kernel

theorem witness_PressesOnAConsole :
    ((∀ f : Console → Console, ((hall.setConsole 1 (f (hall.console 1))).carry 4 (some ⟨1, .poll, true⟩)).AwaitsConsole ⟨1, .poll, true⟩ 1
        (roomOf hall 1)) ∧ rival.AwaitsConsole ⟨1, .poll, true⟩ 1 (roomOf hall 1)) ∧
    (roomOf hall 1).session = .inSession ∧ (hall.boothAt (consoleBooth 1)).language = 7 ∧
    7 ∈ (roomOf hall 1).profile.languages ∧ (hall.console 1).state = .ready ∧ (rival.console 1).state = .ready ∧
    hall.ownerOf ⟨1, 7⟩ = none ∧ rival.ownerOf ⟨1, 7⟩ = some 2 :=
  ⟨⟨awaitsConsole_hall .poll, awaitsConsole_rival⟩, by decide +kernel⟩

/-- A press in an ARMED room that CONSOLE_PRESS does not wake, and a COUGH with a channel and without one. -/
theorem witness_PressesOnAConsole_cough :
    ((asleep false).carry 4 (some ⟨1, .poll, true⟩)).AwaitsConsole ⟨1, .poll, true⟩ 1 (roomOf (asleep false) 1) ∧
    ((asleep true).carry 4 (some ⟨1, .poll, true⟩)).AwaitsConsole ⟨1, .poll, true⟩ 1 (roomOf (asleep true) 1) ∧
    (∀ f : Console → Console, ((hall.setConsole 1 (f (hall.console 1))).carry 4 (some ⟨1, .poll, true⟩)).AwaitsConsole ⟨1, .poll, true⟩ 1
      (roomOf hall 1)) ∧
    (roomOf (asleep false) 1).wake.consolePress = false ∧ (roomOf (asleep true) 1).wake.consolePress = true ∧
    ((asleep true).console 1).state = .ready ∧ (asleep true).ownerOf ⟨1, 7⟩ = none ∧
    ((asleep true).boothAt (consoleBooth 1)).language = 7 ∧ 7 ∈ (roomOf (asleep true) 1).profile.languages ∧
    (hall.unit 4 1).held = false ∧ (onAir.console 1).owned = some ⟨1, 7⟩ ∧ (hall.console 1).owned = none := by
  refine ⟨awaitsConsole_of ?_ ?_ ?_ ?_ ?_ ?_ ?_, awaitsConsole_of ?_ ?_ ?_ ?_ ?_ ?_ ?_, awaitsConsole_hall .poll, ?_⟩
  on_goal 7 => constructor
  on_goal 16 => constructor
  all_goals decide +kernel

/-- Every language slot is taken. -/
def crowded : State := languageSlots.foldl (fun s k => s.setSlot k (some ⟨3, k⟩)) hall

theorem witness_ChannelsTakeSlotsAndTheTableSwitches :
    (hall.hasChannel ⟨1, 30⟩ = false ∧ tget none hall.dist.allocation.slots 14 = none ∧
      tget none hall.dist.allocation.slots 12 ≠ none ∧ tget none hall.dist.allocation.slots 13 ≠ none) ∧
    crowded.hasChannel ⟨1, 30⟩ = false ∧ languageSlots.all (fun k => tget none crowded.dist.allocation.slots k ≠ none) = true := by
  decide +kernel

/-- The switch is due, and the ramp of room 1 has ended. -/
def atSwitch : State :=
  { hallWith (fun r => { r with ramp := .ramping, settleDue := true }) with dist := { hall.dist with switchDue := true } }

theorem witness_ChannelsTakeSlotsAndTheTableSwitches_switch :
    atSwitch.resetLow = false ∧ atSwitch.dist.switchDue = true ∧ twf none atSwitch.hall.rooms = true ∧
    atSwitch.dist.allocation ≠ atSwitch.dist.current ∧ atSwitch.roomsWith Room.settleDue = [1] := by decide +kernel

/-- Bus 0 in a window with this many exchanges begun and these items due. -/
def window (n : Nat) (q : List Item) : State := hall.setBus 0 { hall.bus 0 with begun := n, queue := q }

theorem witness_BusExchangeServesOrPolls :
    (∀ n q, (window n q).NothingDue) ∧
    [window 4 [], window 3 [.unit 17], window 0 [], window 2 [.unit 17], window 0 [.map 1]].all (fun s =>
      !s.resetLow && s.link.phase = .run && s.awaited 0 = none) = true ∧ (window 4 []).nextPoll 0 = some 17 ∧
    (hall.addresses 0).Pairwise (· < ·) ∧ hall.nextPoll 2 = none ∧
    ((window 2 [.unit 17]).bus 0).nextItem = some (.unit 17) ∧ ((window 0 [.map 1]).bus 0).nextItem = some (.map 1) ∧
    ((window 0 []).bus 0).nextItem = none :=
  ⟨fun _ _ => { (canTake_hall ⟨0, 0, []⟩).due with stopping := .inl rfl }, by decide +kernel⟩

/-- A unit that is not assigned, one that is to open, one to close and one to be told; a console of each kind; and the map of a room
with channels and of one without. -/
theorem witness_BusExchangeServesOrPolls_commands :
    hall.ChannelsOk ∧
    [Mic.opening, .closing, .idle].map (fun m => ((speaking m).seat 17).mic) = [.opening, .closing, .idle] ∧
    ((speaking .opening).seat 17).slot = some 0 ∧ ((speaking .idle).seat 17).indication = some .speaking ∧
    ((speaking .idle).unit 0 17).assigned = true ∧ ((speaking .idle).unit 0 273).assigned = false ∧
    (hall.unit 4 1).assigned = true ∧ (hall.unit 4 2).assigned = false ∧ (hall.console 1).indication = some .ready ∧
    (rival.console 2).state = .onAir ∧ (rival.console 2).indication = some .onAir ∧
    hall.anchorOf 1 = some 1 ∧ hall.room 1 = some (roomOf hall 1) ∧ (roomOf hall 1).session = .inSession ∧
    hall.anchorOf 2 = some 2 ∧ hall.room 2 = some (roomOf hall 2) ∧ (roomOf hall 2).session = .dormant :=
  ⟨channelsOk_of (by decide +kernel) (by decide +kernel), by decide +kernel⟩

/-- The map of segment 1 carries the floor slot 0 and the slots of the codes 7 and 9 in set order (R78). -/
theorem test_map : hall.mapContents 1 = .channelMap 1 0 [(7, some 12), (9, some 13)] := by decide +kernel

/-- Unit 17 of D0, in this state of presence and with this many misses, is being sent this command. -/
def missing (p : Presence) (m : Nat) (c : Command) : State :=
  asking (hall.setUnit 0 17 { hall.unit 0 17 with presence := p, misses := m }) c

theorem awaited_carry (s : State) (i : Nat) (a : Nat) (c : Command) :
    (s.carry i (some ⟨a, c, true⟩)).awaited i = some ⟨a, c, true⟩ := by simp [State.carry, State.awaited]

theorem awaits_missing (p : Presence) (m : Nat) (c : Command) : (missing p m c).Awaits .d0 0 ⟨17, c, true⟩ :=
  ⟨rfl, rfl, { (canTake_hall ⟨0, 0, []⟩).due with stopping := .inl rfl }, awaited_carry ..⟩

theorem witness_AnsweredAndMissedExchanges :
    (∀ p m c, (missing p m c).Awaits .d0 0 ⟨17, c, true⟩) ∧
    ((missing .present 2 .close).unit 0 17).misses = 2 ∧ ((missing .present 2 .close).unit 0 17).presence = .present ∧
    ((missing .present 1 .close).unit 0 17).misses < 2 ∧ ((missing .absent 3 .poll).unit 0 17).presence = .absent ∧
    hall.hall.rooms.all (fun x => x.2.all (fun r => r.queue = [])) = true := ⟨awaits_missing, by decide +kernel⟩

theorem listensRight_of {s : State} (h : s.booth.booths.all (fun x => x.2.listen = s.listenOf x.1) = true) : s.ListensRight := by
  intro b
  by_cases e : s.boothAt b = Booth.initial
  · simp [State.listenOf, e, Booth.initial]
  · simpa using List.all_eq_true.1 h _ (tget_listed (v := s.boothAt b) rfl e)

/-- The third miss of console 1, which owns no channel. -/
theorem witness_AnsweredAndMissedExchanges_console :
    let s := (hall.setUnit 4 1 { hall.unit 4 1 with misses := 2 }).carry 4 (some ⟨1, .poll, true⟩)
    (s.Awaits .b 4 ⟨1, .poll, true⟩ ∧ s.CountersOff ∧ s.OwnersOk ∧ s.ListensRight) ∧ (s.unit 4 1).misses = 2 ∧
    (s.unit 4 1).presence = .present ∧ (s.console 1).owned = none ∧ (s.unit 4 1).held = false := by
  refine ⟨⟨⟨rfl, rfl, nothingDue_of_quiet ?_, ?_⟩, ?_, (ownersOk_of ?_).1, listensRight_of ?_⟩, ?_⟩
  on_goal 3 => constructor
  all_goals decide +kernel

theorem witness_AnAnswerMakesTheUnitPresent :
    let s := State.withMic (missing .absent 3 .poll) 17 .absent
    let t := (asking ((hall.setUnit 4 1 UnitRecord.initial).setConsole 1 Console.initial) .poll).carry 4 (some ⟨1, .poll, true⟩)
    (s.Awaits .d0 0 ⟨17, .poll, true⟩ ∧ t.Awaits .b 4 ⟨1, .poll, true⟩ ∧ t.CountersOff) ∧
    (s.unit 0 17).presence ≠ .present ∧ s.inUse 0 17 = true ∧ (s.seat 17).mic = .absent ∧
    (t.unit 4 1).presence ≠ .present ∧ t.inUse 4 1 = true ∧ (t.console 1).state = .absent := by
  refine ⟨⟨⟨rfl, rfl, nothingDue_of_quiet ?_, ?_⟩, ⟨rfl, rfl, nothingDue_of_quiet ?_, ?_⟩, ?_⟩, ?_⟩
  on_goal 5 => constructor
  all_goals decide +kernel

theorem awaits_ack (m : Mic) (c : Command) : (asking (speaking m) c).AwaitsSeat .d0 0 (0 * 256 + 17) 1 ⟨17, c, true⟩
    { roomOf hall 1 with live := [17] } :=
  have b := awaits_speaking m
  ⟨⟨rfl, b.up, { b.due with stopping := .inl rfl }, awaited_carry ..⟩, b.small, rfl, b.present,
    ⟨b.seat.number, b.seat.installed, b.seat.map, b.seat.room, rfl⟩, ⟨b.counters.off, b.counters.none, b.counters.open_⟩⟩

theorem witness_AcknowledgementsOpenAndClose :
    (∀ m c, (asking (speaking m) c).AwaitsSeat .d0 0 (0 * 256 + 17) 1 ⟨17, c, true⟩ { roomOf hall 1 with live := [17] }) ∧
    (∀ c, ∀ f : Console → Console, ((hall.setConsole 1 (f (hall.console 1))).carry 4 (some ⟨1, c, true⟩)).AwaitsConsole ⟨1, c, true⟩ 1
      (roomOf hall 1)) ∧ (∀ m, ((speaking m).seat 17).mic = m) ∧
    (speaking .closing).hall.rooms.all (fun x => x.2.all (fun r => r.queue = [])) = true :=
  ⟨awaits_ack, awaitsConsole_hall, fun m => by cases m <;> decide +kernel, by decide +kernel⟩

/-- A room that ramps, an ARMED room with a timer, a LIVE seat and one in HOLD_OFF. -/
def busy : State :=
  ((((speaking .live).modRoom 1 (fun r => { r with ramp := .ramping, level := -20 })).modRoom 2 (fun r =>
    { r with session := .armed, timer := some ⟨1, 999⟩ })).setSeat 18
      { hall.seat 18 with mic := .holdOff, holdOff := some 249 })

theorem witness_BoundarySamplesAndCounts :
    (busy.Calm ∧ busy.CountersOff) ∧ busy.link.phase = .run ∧ twf Seat.initial busy.floor.seats = true ∧
    (roomOf busy 1).ramp = .ramping ∧ (roomOf busy 2).timer = some ⟨1, 999⟩ ∧ (roomOf busy 2).session = .armed ∧
    (busy.seat 17).mic = .live ∧ (busy.seat 17).clock = some ⟨69, 999⟩ ∧ (busy.seat 18).mic = .holdOff ∧
    (busy.seat 18).holdOff = some 249 ∧ busy.counts.blocks = some 0 ∧ (busy.settling 1).candidate = none := by
  refine ⟨⟨calm_of ?_ ?_ ?_, ?_⟩, ?_⟩
  on_goal 4 => constructor
  all_goals decide +kernel

/-- A ramp of one step ends at the next boundary, but not at one at which RESTART takes effect (R171, R180). -/
theorem test_ramp_abandoned (b : Bool) :
    let r : Room := { roomOf hall 1 with ramp := .ramping, level := (roomOf hall 1).target - 1 }
    (r.cross b).settleDue = !b ∧ (r.cross b).level = r.target := by cases b <;> decide +kernel

/-- Room 1 is ARMED with a timer that has run out, and wakes on it or not. -/
def timedOut (w : Bool) : State :=
  hallWith (fun r => { r with session := .armed, timer := some ⟨0, 0⟩, wake := { Wake.empty with timer := w } })

theorem witness_TimersHoldOffsAndRampsEnd :
    let s := hall.setSeat 18 { hall.seat 18 with mic := .holdOff, holdOff := some 249, holdOffDue := true }
    ((timedOut true).BoundaryDone ∧ (timedOut false).BoundaryDone ∧ s.BoundaryDone) ∧
    [true, false].all (fun w => !(timedOut w).resetLow && (timedOut w).roomsWith Room.timerDue = [1] &&
      (roomOf (timedOut w) 1).wake.timer = w && (roomOf (timedOut w) 1).anchor = 1) = true ∧
    (s.resetLow = false ∧ tkeys (fun _ x => x.mic = .holdOff && x.holdOffDue) s.floor.seats = [18] ∧
      (s.seat 18).pendingPress = false) ∧ atSwitch.roomsWith Room.settleDue = [1] := by
  refine ⟨⟨⟨?_, ?_⟩, ⟨?_, ?_⟩, ⟨?_, ?_⟩⟩, ?_⟩ <;> decide +kernel

/-- The hold-off of seat 17 ends with a press pending, in room 1 in this mode, for a seat of this class that is blocked or not. -/
def pressPending (x : SeatClass) (m : FloorMode) (blocked : Bool) : State :=
  ((inMode m).setGroup 5 ⟨true, 17, 1023, 0, blocked⟩).setSeat 17
    { hall.seat 17 with cls := x, mic := .holdOff, holdOff := some 249, holdOffDue := true, pendingPress := true }

theorem witness_TimersHoldOffsAndRampsEnd_pending (x : SeatClass) (m : FloorMode) (blocked : Bool) :
    let s := pressPending x m blocked
    (s.BoundaryDone ∧ s.SeatAt 17 1 (roomOf s 1) ∧ s.CountersOff) ∧ s.resetLow = false ∧
    tkeys (fun _ x => x.mic = .holdOff && x.holdOffDue) s.floor.seats = [17] ∧ (s.seat 17).pendingPress = true ∧
    (s.seat 17).cls = x ∧ s.blocked 17 = blocked ∧ (roomOf s 1).session = .inSession ∧ (roomOf s 1).profile.floorMode = m ∧
    (roomOf s 1).closing = false ∧ s.delegateCount (roomOf s 1) = 0 ∧ s.chairCount (roomOf s 1) = 0 ∧
    (roomOf s 1).profile.openLimit = 4 ∧ (roomOf s 1).profile.chairLimit = 2 ∧ s.freeSlot 0 = some 0 ∧
    s.floor.openingCount ≠ 4294967295 ∧ (roomOf s 1).queue.length < 32 ∧ s.floor.stampCount ≠ 4294967295 := by
  refine ⟨⟨?_, ?_, ?_⟩, ?_⟩
  on_goal 1 => constructor
  on_goal 3 => constructor
  on_goal 8 => constructor
  all_goals (cases x <;> cases m <;> cases blocked <;> decide +kernel)

/-- Seat 17 has spoken this many whole seconds, in a room with this speaking limit and limit action. -/
def atSecond (c limit : Nat) (x : LimitAction) : State :=
  ((speaking .live).modRoom 1 (fun r =>
    { r with profile := { r.profile with speakingLimit := limit, limitAction := x } })).setSeat 17
      { (speaking .live).seat 17 with clock := some ⟨c, 0⟩, secondDue := true }

/-- Below the warning point, at it, past it with the limit not reached, and at the limit with either action. -/
theorem witness_SpeakingClockWarnsAndLimits :
    ([(69, LimitAction.close), (70, .close), (99, .close), (100, .close), (100, .notify)].all (fun x =>
      let s := atSecond x.1 100 x.2
      !s.resetLow && s.roomsWith Room.settleDue = [] && !s.dist.switchDue &&
        tkeys (fun _ y => y.mic = .live && y.secondDue) s.floor.seats = [17] && (s.seat 17).clock = some ⟨x.1, 0⟩ &&
        seatNumberOk 17 && (s.seat 17).installed && s.seatAnchor 17 = some 1 && s.room 1 = some (roomOf s 1) &&
        (roomOf s 1).anchor = 1 && (s.seat 17).grant = none && (s.seat 17).cls = .delegate &&
        (roomOf s 1).profile.speakingLimit = 100 && (roomOf s 1).profile.warningLead = 30 && !(s.seat 17).warned &&
        !(s.seat 17).limitReported && (roomOf s 1).queue = [] && s.counts.raised = [] && !s.counts.deferring &&
        counterNumbers.all (fun c => !(s.counter c).enabled))) = true := by decide +kernel

/-- Counter 1 adds the speaking delegates of every second to this value, and a second is over; group 3 is the run of seats 16 to 31. -/
def atSecondBoundary (v : Nat) (x : OverflowAction) (g : Scope) : State :=
  (({ speaking .live with counts := { hall.counts with secondDue := true } } : State).setGroup 3 ⟨true, 16, 1008, 0, false⟩).setCounter 1
    { Counter.initial with enabled := true, event := .speaking, value := v, action := x, scope := g }

theorem boundaryDone_atSecondBoundary (v : Nat) (x : OverflowAction) (g : Scope) : (atSecondBoundary v x g).BoundaryDone :=
  ⟨(boundaryDone_of_quiet (s := speaking .live) (by decide +kernel)).ramps, rfl⟩

theorem witness_SecondBoundaryAddsToTheCounters :
    let s := atSecondBoundary 4294967294 .notice .all
    s.BoundaryDone ∧ s.resetLow = false ∧ s.counts.secondDue = true ∧ s.counts.raised = [] ∧ s.counts.deferring = false ∧
    ∀ c ∈ counterNumbers, (s.counter c).value + (s.counter c).addition (s.reading (s.counter c)) ≤ 4294967295 :=
  ⟨boundaryDone_atSecondBoundary _ _ _, by decide +kernel⟩

/-- The value passes the top with either action. -/
theorem witness_OverflowWrapsAndBlocks :
    (∀ v x g, (atSecondBoundary v x g).BoundaryDone) ∧
    [atSecondBoundary 4294967295 .notice .all, atSecondBoundary 4294967295 .noticeAndBlock (.group 3)].all (fun s =>
      !s.resetLow && s.link.phase = .run && s.counts.secondDue && s.counts.raised = [] && !s.counts.deferring &&
      (s.counter 1).enabled && counterNumbers.all (fun d => d = 1 || !(s.counter d).enabled) &&
      (s.counter 1).value = 4294967295 && (s.counter 1).addition (s.reading (s.counter 1)) = 1) = true :=
  ⟨boundaryDone_atSecondBoundary, by decide +kernel⟩

theorem source_floor {s : State} (h : s.booth.booths.all (fun x => x.2.source = .floor) = true) (b : Nat) :
    (s.boothAt b).source = .floor :=
  of_decide_eq_true (tget_all (d := Booth.initial) (fun _ x => decide (x.source = .floor)) h (fun _ => rfl) b)

/-- Counter 1 counts the event `e` of all scopes. -/
def counting (e : CountEvent) (s : State) : State := s.setCounter 1 { Counter.initial with enabled := true, event := e }

/-- Group 3 takes seats 16 to 31 and is the scope of counter 5, which stands at its top with this action; counter 2 counts drops. -/
def atTop (x : OverflowAction) (drops : Bool) : State :=
  ((waiting.setGroup 3 ⟨true, 16, 1008, 0, false⟩).setCounter 5 { Counter.initial with
    enabled := true, event := .micOpened, value := 4294967295, action := x, scope := .group 3 }).setCounter 2 { Counter.initial with
      enabled := drops, event := .requestDropped, value := 41 }

/-- The counters are ready; one is at its top with either action; two occurrences wait; and a merge cuts the entry of seat 273. -/
theorem witness_OccurrencesAreAddedInOrder :
    let o : Occurrence := ⟨.micOpened, 1, some 0, some 18⟩
    let s : State := { hall with counts := { hall.counts with raised := [o, o] } }
    let m := counting .requestDropped (crowd.setBooth 2 Booth.initial)
    ((counting .micOpened hall).CountersReady ∧ (∀ x b, (atTop x b).InScope o (.group 3)) ∧ (atTop .noticeAndBlock true).SeatAt 17 1
      (roomOf waiting 1) ∧ m.CountersReady ∧ m.RoomsOk ∧ m.QueuesOk ∧ m.EntriesRight ∧ (∀ k, (m.boothAt k).source = .floor) ∧
      JoinedBy Entry.stamp (roomOf m 1).queue (roomOf m 2).queue ((roomOf m 1).queue ++ (roomOf m 2).queue)) ∧
    (s.counts.raised = [o, o] ∧ s.counts.deferring = false ∧ ∀ c ∈ counterNumbers, (s.counter c).value < 4294967295) ∧
    [(atTop .notice false), (atTop .noticeAndBlock true)].all (fun t => t.counts.raised = [] && !t.counts.deferring &&
      (t.counter 5).enabled && (t.counter 5).event = .micOpened && (t.counter 5).mode = .count && (t.counter 5).value = 4294967295 &&
      counterNumbers.all (fun c => c = 5 || c = 2 || !(t.counter c).enabled) && t.link.phase = .run && !(t.group 3).blocked &&
      twf Seat.initial t.floor.seats && twf none t.hall.rooms && !t.blocked 17 && (roomOf t 2).queue = [] && (roomOf t 3).queue = [] &&
      (roomOf t 1).queue.filter (fun f => groupTakes (t.group 3) f.seat) = [⟨17, 0, 1⟩]) = true ∧
    ((atTop .notice false).counter 2).enabled = false ∧ ((atTop .noticeAndBlock true).counter 2).value = 41 ∧
    (m.room 1 = some (roomOf m 1) ∧ m.room 2 = some (roomOf m 2) ∧ (roomOf m 1).priority = true) ∧
    ((roomOf m 1).queue ++ (roomOf m 2).queue).drop 32 = [⟨273, 32, 2⟩] := by
  refine ⟨⟨countersReady_of ?_, fun x b => ⟨18, rfl, ?_, ?_⟩, ?_, countersReady_of ?_, roomsOk_of ?_ ?_, queuesOk_of ?_ ?_, entriesRight_of ?_,
    source_floor ?_, ?_, ?_⟩, ?_⟩
  on_goal 4 => constructor
  on_goal 2 => cases x <;> cases b
  on_goal 6 => cases x <;> cases b
  all_goals decide +kernel

/-- Booths without a relay, so that no fallback comes with the event. -/
def direct (s : State) : State := s.setBooth 2 Booth.initial

/-- Console 1 is polled under TAKEOVER, or misses for the third time, while console 2 owns the channel. -/
def overtaken (m : Nat) : State :=
  (direct (rival.modRoom 1 (fun r => { r with profile := { r.profile with contention := .takeover } }))).setUnit 4 1
    { rival.unit 4 1 with misses := m }

theorem awaitsCounted_of {s : State} {x : Exchange} {r : Room} (hq : quiet s = true) (hx : s.awaited 0 = some x)
    (hs : x.address < 256) (hp : (s.unit 0 x.address).presence = .present) (h : s.SeatAt (0 * 256 + x.address) 1 r)
    (hc : s.CountersReady) : s.AwaitsCounted .d0 0 (0 * 256 + x.address) 1 x r := by
  have up : s.resetLow = false := by
    simp only [quiet, Bool.and_eq_true, Bool.not_eq_true', decide_eq_true_eq] at hq; tauto
  exact ⟨⟨rfl, up, nothingDue_of_quiet hq, hx⟩, ⟨by decide, hs⟩, rfl, hp, h, hc⟩

/-- The exchanges of seat 17 whose answers raise an occurrence, each with a counter of its event. -/
theorem witness_EventsRaiseTheirOccurrences_answers :
    (let s := counting .micOpened (asking (speaking .opening) (.open_ 0))
     s.AwaitsCounted .d0 0 (0 * 256 + 17) 1 ⟨17, .open_ 0, true⟩ (roomOf s 1) ∧ (s.seat 17).mic = .opening) ∧
    (let s := counting .micClosed (asking (speaking .closing) .close)
     s.AwaitsCounted .d0 0 (0 * 256 + 17) 1 ⟨17, .close, true⟩ (roomOf s 1) ∧ (s.seat 17).mic = .closing ∧
       (roomOf s 1).session = .inSession) ∧
    (let s := counting .requestRefused (asking (hall.setGroup 5 ⟨true, 17, 1023, 0, true⟩) .poll)
     s.AwaitsCounted .d0 0 (0 * 256 + 17) 1 ⟨17, .poll, true⟩ (roomOf s 1) ∧ (s.seat 17).mic = .idle ∧
       (s.seat 17).cls = .delegate ∧ (roomOf s 1).session = .inSession ∧ s.blocked 17 = true) ∧
    let s := counting .unitLost (missing .present 2 .close)
    s.AwaitsCounted .d0 0 (0 * 256 + 17) 1 ⟨17, .close, true⟩ (roomOf s 1) ∧ (s.unit 0 17).misses = 2 ∧
      (roomOf s 1).session = .inSession := by
  refine ⟨⟨awaitsCounted_of (x := ⟨17, .open_ 0, true⟩) ?_ ?_ ?_ ?_ ?_ (countersReady_of ?_), ?_⟩,
    ⟨awaitsCounted_of (x := ⟨17, .close, true⟩) ?_ ?_ ?_ ?_ ?_ (countersReady_of ?_), ?_⟩,
    ⟨awaitsCounted_of (x := ⟨17, .poll, true⟩) ?_ ?_ ?_ ?_ ?_ (countersReady_of ?_), ?_⟩,
    awaitsCounted_of (x := ⟨17, .close, true⟩) ?_ ?_ ?_ ?_ ?_ (countersReady_of ?_), ?_⟩
  on_goal 5 => constructor
  on_goal 16 => constructor
  on_goal 27 => constructor
  on_goal 38 => constructor
  all_goals decide +kernel

/-- A join, a drop, a close at the limit, a takeover, a lost console, a fallback and a saturated floor. -/
theorem witness_EventsRaiseTheirOccurrences :
    (let s := counting .requestJoined hall
     (s.CanTake ⟨0x13, 0, [0, 17]⟩ ∧ s.CountersReady) ∧ s.SeatAt (word16 0 17) 1 (roomOf hall 1)) ∧
    (let s := counting .requestDropped waiting
     (s.CanTake ⟨0x16, 0, [1]⟩ ∧ s.CountersReady) ∧ s.RoomAt (1 : Byte).toNat 1 (roomOf waiting 1) ∧
       (roomOf s 1).queue = [⟨17, 0, 1⟩] ∧ s.seatAnchor 17 = some 1) ∧
    (let s := counting .limitClose ((atSecond 100 0 .close).setSeat 17 { (atSecond 100 0 .close).seat 17 with grant := some 100 })
     s.CountersReady ∧ s.BoundaryDone ∧ s.SeatAt 17 1 (roomOf s 1) ∧
       (tkeys (fun _ x => x.mic = .live && x.secondDue) s.floor.seats = [17] ∧ (s.seat 17).clock = some ⟨100, 0⟩ ∧
         (s.seat 17).grant = some 100 ∧ (s.seat 17).mic = .live ∧ (roomOf s 1).profile.limitAction = .close)) ∧
    (∀ m, m = 0 ∨ m = 2 →
      let s := counting .boothTakeover (overtaken m)
      s.Awaits .b 4 ⟨1, .poll, true⟩ ∧ s.CountersReady ∧ (∀ b, (s.boothAt b).source = .floor) ∧
        ((s.unit 4 1).presence = .present ∧ (s.unit 4 1).misses = m ∧ s.boothAnchor (consoleBooth 1) = some 1 ∧
          (s.console 1).state = .ready ∧ (roomOf s 1).profile.contention = .takeover ∧ s.ownerOf ⟨1, 7⟩ = some 2 ∧
          (s.boothAt (consoleBooth 1)).language = 7 ∧ 7 ∈ (roomOf s 1).profile.languages)) ∧
    (let s := counting .relayFallback (direct hall)
     (s.CanTake ⟨0x1A, 0, [1, 1, 9]⟩ ∧ s.CountersReady ∧ ∀ b, (s.boothAt b).source = .floor) ∧
       s.RoomAt (s.boothAt (1 : Byte).toNat).home 1 (roomOf hall 1) ∧
       ((s.boothAt 1).installed = true ∧ (s.boothAt 1).listen = .direct ∧ (s.boothAt 1).language = 7 ∧
         twf Booth.initial s.booth.booths = true ∧ s.ownerOf ⟨1, 9⟩ = none)) ∧
    let s := counting .clip { hall with mix := { hall.mix with plan := { Plan.silent with mics := [⟨17, 0, 0, 1, 24⟩] } } }
    (s.Calm ∧ s.CountersReady) ∧ 8388607 < route 24 (upstreamSample [⟨.d0, 0, List.replicate 48 0x7FFFFF⟩] 0 0 0) := by
  refine ⟨⟨⟨canTake_of _ ?_, countersReady_of ?_⟩, ?_⟩, ⟨⟨canTake_of _ ?_, countersReady_of ?_⟩, ?_, ?_⟩,
    ⟨countersReady_of ?_, ?_, ?_, ?_⟩, fun m hm => ⟨⟨rfl, ?_, nothingDue_of_quiet ?_, ?_⟩, countersReady_of ?_, source_floor ?_, ?_⟩,
    ⟨⟨canTake_of _ ?_, countersReady_of ?_, source_floor ?_⟩, ?_, ?_⟩, ⟨calm_of ?_ ?_ ?_, countersReady_of ?_⟩, ?_⟩
  on_goal 3 => constructor
  on_goal 10 => constructor
  on_goal 17 => constructor
  on_goal 19 => constructor
  on_goal 34 => constructor
  all_goals (first | decide +kernel | (rcases hm with rfl | rfl <;> decide +kernel))

/-- Two samples that add up beyond 24 bits, in two routes of room 1 at 0 steps, which floor slot 0 and the zone of segment 2 carry. -/
theorem witness_TheFloorIsTheScaledSum :
    let p : Plan := { Plan.silent with
      mics := [⟨17, 0, 0, 1, 0⟩, ⟨19, 0, 1, 1, 0⟩], slots := [(0, .floor 1)], zones := [⟨2, 1, -6⟩] }
    let h := mixBlock p [⟨.d0, 0, List.replicate 48 0x7FFFFF⟩, ⟨.d0, 1, List.replicate 48 1⟩]
    (h.floors.map Prod.fst = [1] ∧ h.floors.all (fun x => x.2 = List.replicate 48 0x7FFFFF) = true) ∧
    twf Seat.initial (speaking .live).floor.seats = true ∧ (speaking .live).formPlan.mics.map MicRoute.seat = [17] := by
  decide +kernel

/-- The zones of the joined room and of room 3, with the level of each and the trims of their segments (R172). -/
theorem test_zones : ((joined.setSegment 2 { joined.segment 2 with trim := -6 }).modRoom 1 (fun r =>
    { r with level := -20 })).formPlan.zones = [⟨1, 1, -20⟩, ⟨2, 1, -26⟩, ⟨3, 3, (roomOf joined 3).level⟩] := by decide +kernel

/-- A channel on the air, one muted by COUGH, one on fill at a level and one without; and the slots that name two of them. -/
theorem witness_SlotsCarryTheirRoomsAndChannels_samples :
    let p : Plan := { Plan.silent with
      channels := [(⟨1, 7⟩, .microphone 3 (-6)), (⟨1, 9⟩, .fill 1 (some (-12))), (⟨1, 5⟩, .silence), (⟨1, 4⟩, .fill 1 none)]
      slots := [(12, .channel ⟨1, 7⟩), (13, .channel ⟨1, 9⟩)], listens := [(0, .floor 1), (1, .channel ⟨1, 9⟩)] }
    let h := mixBlock p [⟨.b, 2, List.replicate 48 1000⟩]
    (h.slots.map (fun x => (x.1, (x.2.getD 47 0).toInt)) = [(12, 708), (13, 0)] ∧ h.listens.map Prod.fst = [0, 1]) ∧
    [(12, Carry.channel ⟨1, 7⟩), (13, .channel ⟨1, 9⟩)] = p.slots := by decide +kernel

/-- Console 1 is on the air in (1, 7), which booth 4 relays, console 5 is CUEING in (2, 3), and (1, 9) has no owner; the tables have
been switched. -/
def relayed : State :=
  let s := twoOnAir.setBooth 4 { Booth.initial with installed := true, source := .relay 7, language := 9, listen := .relay }
  { s with dist := { s.dist with current := s.dist.allocation } }

theorem witness_SlotsCarryTheirRoomsAndChannels :
    (relayed.OwnersOk ∧ relayed.RoomsOk ∧ relayed.ListensRight) ∧ twf none relayed.hall.rooms = true ∧
    twf Booth.initial relayed.booth.booths = true ∧ (relayed.boothAt 0).installed = false ∧ relayed.link.phase = .run ∧
    relayed.room 1 = some (roomOf relayed 1) ∧ (roomOf relayed 1).session = .inSession ∧
    (roomOf relayed 1).profile.languages = [7, 9] ∧ (relayed.console 1).owned = some ⟨1, 7⟩ ∧
    (relayed.console 1).state = .onAir ∧ (relayed.console 5).owned = some ⟨2, 3⟩ ∧ (relayed.console 5).state = .cueing ∧
    relayed.ownerOf ⟨1, 9⟩ = none ∧ (relayed.segment 1).installed = true ∧ 1 ∈ relayed.dist.current.anchors ∧
    relayed.anchorOf 1 = some 1 ∧ 12 ∉ relayed.dist.current.anchors ∧ (roomOf relayed 3).session = .dormant ∧
    3 ∈ relayed.dist.current.anchors ∧ tget none relayed.dist.current.slots 12 = some ⟨1, 7⟩ ∧
    tget none relayed.dist.current.slots 63 = none ∧ (relayed.boothAt 4).source = .relay 7 ∧ relayed.boothAnchor 4 = some 1 ∧
    relayed.hasChannel ⟨1, 7⟩ = true ∧ (relayed.boothAt (consoleBooth 1)).source = .floor := by
  refine ⟨⟨(ownersOk_of ?_).1, roomsOk_of ?_ ?_, listensRight_of ?_⟩, ?_⟩
  all_goals decide +kernel

/-- The slots of that state: the floors of rooms 1 and 2, the channels of both, and the relay of booth 4 (R144, R152, R161). -/
theorem test_slots : [0, 2, 12, 13, 14, 63].map (fun k => tget .silence relayed.formPlan.slots k) =
      [.floor 1, .silence, .channel ⟨1, 7⟩, .channel ⟨1, 9⟩, .channel ⟨2, 7⟩, .silence] ∧
    [0, 1, 3, 4].map (fun b => tget .silence relayed.formPlan.listens b) = [.floor 1, .floor 2, .channel ⟨1, 7⟩, .silence] := by
  decide +kernel

theorem witness_TheFloorIsTheScaledSum_factors :
    -144 ≤ (-144 : Int) ∧ (24 : Int) ≤ 24 ∧ 0 ≤ (5 : Int) ∧ (-121 : Int) < -120 ∧ -120 ≤ (-120 : Int) := by decide

theorem witness_CounterSetAndRead :
    (∀ f, hall.CanTake f) ∧
    (readCounterSet [8, 1, 10, 2, 16, 2, 1, 0, 1, 1, 0, 0, 0, 0, 7]).map (fun x => (x.1, x.2.1.scope, x.2.1.threshold, x.2.2)) =
      some (8, .group 16, 255, true) ∧
    (readCounterSet [8, 1, 10, 2, 17, 2, 1, 0, 1, 1, 0, 0, 0, 0, 7]).map (fun x => x.2.1.scope.inRange) = some false :=
  ⟨canTake_hall, by decide +kernel⟩

theorem witness_StartBuildsTheRooms :
    (config.CanTake ⟨0x05, 0, []⟩ ∧ State.reset.CanTake ⟨0x05, 0, []⟩) ∧ config.link.phase = .config ∧
    config.startFailure = none ∧ State.reset.startFailure = some .segment ∧ twf Seat.initial config.floor.seats = true ∧
    twf Booth.initial config.booth.booths = true := ⟨⟨canTake_config _, canTake_of _ (by decide +kernel)⟩, by decide +kernel⟩

/-- Booth 7 is at home in a segment that is not installed. -/
def badBooth : State := config.setBooth 7 { Booth.initial with installed := true, home := 9 }

/-- And seat 20 belongs to one. -/
def badSeat : State := badBooth.setSeat 20 { Seat.initial with installed := true, segment := 9 }

/-- And wall 5 separates one. -/
def badWall : State := badSeat.setPartition 5 { Partition.initial with installed := true, a := 7 }

/-- Each is the lowest of its check, and stands before what the next check would find. -/
theorem witness_StartBuildsTheRooms_refused :
    ([badBooth, badSeat, badWall].all (fun s => takesAny s && s.link.phase = .config && twf Partition.initial s.hall.partitions &&
      twf Seat.initial s.floor.seats && twf Booth.initial s.booth.booths && (s.segment 1).installed) = true ∧
      segmentNumbers.all (fun k => !(State.reset.segment k).installed) = true ∧
      (badWall.partition 5).installed = true ∧ (badWall.segment (badWall.partition 5).a).installed = false ∧
      (badSeat.seat 20).installed = true ∧ (badSeat.segment (badSeat.seat 20).segment).installed = false ∧
      (badBooth.boothAt 7).installed = true ∧ (badBooth.segment (badBooth.boothAt 7).home).installed = false) ∧
    (∀ q, (badWall.partition q).installed = true ∧ ((badWall.segment (badWall.partition q).a).installed = false ∨
      (badWall.segment (badWall.partition q).b).installed = false) → 5 ≤ q) ∧
    (∀ q, ¬ ((badSeat.partition q).installed = true ∧ ((badSeat.segment (badSeat.partition q).a).installed = false ∨
      (badSeat.segment (badSeat.partition q).b).installed = false))) ∧
    (∀ n, (badSeat.seat n).installed = true ∧ (badSeat.segment (badSeat.seat n).segment).installed = false → 20 ≤ n) ∧
    (∀ n, ¬ ((badBooth.seat n).installed = true ∧ (badBooth.segment (badBooth.seat n).segment).installed = false)) ∧
    ∀ b, (badBooth.boothAt b).installed = true ∧ (badBooth.segment (badBooth.boothAt b).home).installed = false → 7 ≤ b := by
  let pw (s : State) (x : Partition) : Bool := x.installed && (!(s.segment x.a).installed || !(s.segment x.b).installed)
  let ps (s : State) (x : Seat) : Bool := x.installed && !(s.segment x.segment).installed
  let pb (s : State) (x : Booth) : Bool := x.installed && !(s.segment x.home).installed
  refine ⟨by decide +kernel, fun q h => ?_, fun q h => ?_, fun n h => ?_, fun n h => ?_, fun b h => ?_⟩
  · exact listed_le (d := Partition.initial) (pw badWall) (t := badWall.hall.partitions) (by decide +kernel) (by decide +kernel) q
      (show pw badWall (badWall.partition q) = true by simpa [pw] using h)
  · have := tget_all (d := Partition.initial) (t := badSeat.hall.partitions) (fun _ x => !pw badSeat x) (by decide +kernel)
      (fun _ => by decide +kernel) q
    have e : pw badSeat (badSeat.partition q) = true := by simpa [pw] using h
    simp only [State.partition] at e; simp [e] at this
  · exact listed_le (d := Seat.initial) (ps badSeat) (t := badSeat.floor.seats) (by decide +kernel) (by decide +kernel) n
      (show ps badSeat (badSeat.seat n) = true by simpa [ps] using h)
  · have := tget_all (d := Seat.initial) (t := badBooth.floor.seats) (fun _ x => !ps badBooth x) (by decide +kernel)
      (fun _ => by decide +kernel) n
    have e : ps badBooth (badBooth.seat n) = true := by simpa [ps] using h
    simp only [State.seat] at e; simp [e] at this
  · exact listed_le (d := Booth.initial) (pb badBooth) (t := badBooth.booth.booths) (by decide +kernel) (by decide +kernel) b
      (show pb badBooth (badBooth.boothAt b) = true by simpa [pb] using h)

/-- CONFIG after STOP: the reply waits, and OFF has gone out on the buses below `n`. -/
def stopping (n : Nat) : State :=
  (List.range n).foldl (fun s i => s.setBus i { s.bus i with off := .sent })
    ({ config with link := { config.link with stopping := some 5 } } : State)

/-- OFF is due on bus 0. -/
def offDue : State := config.setBus 0 { config.bus 0 with off := .due }

theorem witness_StopClearsAndCompletes :
    (hall.CanTake ⟨0x06, 0, []⟩ ∧ offDue.NothingDue ∧ (stopping 5).BoundaryDone ∧ (stopping 4).NothingDue) ∧
    hall.link.phase = .run ∧ hall.link.restarts = [] ∧ (stopping 5).link.stopping = some 5 ∧
    (stopping 5).resetLow = false ∧ (∀ i, i < 5 → ((stopping 5).bus i).off = .sent ∨ ((stopping 5).bus i).off = .done) ∧
    (stopping 4).link.stopping = some 5 ∧ ((stopping 4).bus 4).off ≠ .sent ∧ ((stopping 4).bus 4).off ≠ .done ∧
    offDue.link.phase = .config ∧ offDue.awaited 0 = none ∧ (offDue.bus 0).off = .due := by
  refine ⟨⟨canTake_hall _, nothingDue_of_quiet ?_, ?_, ?_⟩, ?_⟩
  on_goal 2 => constructor
  on_goal 4 => exact { nothingDue_of_quiet (s := config) (by decide +kernel) with stopping := .inr (by decide +kernel) }
  all_goals decide +kernel

theorem witness_RestartWaitsAndTakesEffect :
    let s : State := { hall with link := { hall.link with restarts := [4, 5], restartDue := 1 } }
    (hall.CanTake ⟨0x07, 0, []⟩ ∧ s.BoundaryDone) ∧ hall.link.phase = .run ∧ s.resetLow = false ∧ s.link.restartDue ≠ 0 ∧
    twf Seat.initial s.floor.seats = true ∧ twf Booth.initial s.booth.booths = true :=
  ⟨⟨canTake_hall _, ⟨(canTake_hall ⟨0, 0, []⟩).due.ramps, rfl⟩⟩, by decide +kernel⟩

theorem witness_PhaseAndSegmentsChangeByTheirCommands :
    (∃ t, exec (.powerOn false false) hall = .next t ∧ t.link.phase ≠ hall.link.phase) ∧
      ∃ t, exec (.powerOn false false) hall = .next t ∧ t.hall.segments ≠ hall.hall.segments :=
  ⟨⟨_, rfl, by decide +kernel⟩, ⟨_, rfl, by decide +kernel⟩⟩

theorem witness_CharactersOfAFrameMakeTheFrame :
    hall.NothingDue ∧ (List.replicate 240 (0xA5 : Byte)).length ≤ 240 ∧ hall.resetLow = false ∧
    hall.link.receiver = .hunting := ⟨(canTake_hall ⟨0, 0, []⟩).due, by decide +kernel⟩

/-- This many frames wait in the input queue, and this many replies to be sent. -/
def queued (n m : Nat) : State := { hall with link := { hall.link with
  input := List.replicate n ⟨0x22, 0, []⟩, replies := List.replicate m ⟨0x22, 0, .ok .nothing⟩ } }

/-- A frame in reception has stood for this many boundaries. -/
def receiving (n : Nat) : State := hall.setReceiver (.inFrame [3] n)

theorem witness_FramesAreQueuedOrRefused :
    ((∀ f, hall.CanTake f) ∧ (∀ n m, (queued n m).NothingDue) ∧ ∀ n, (receiving n).BoundaryDone) ∧
    (queued 7 0).resetLow = false ∧ (queued 7 0).link.input.length < 8 ∧ 8 ≤ (queued 8 0).link.input.length ∧
    (queued 8 15).link.placesTaken < 16 ∧ 16 ≤ (queued 8 16).link.placesTaken ∧
    [19, 20].all (fun n => (receiving n).link.receiver = .inFrame [3] n) = true ∧ 0x22 < (0x23 : Byte).toNat := by
  have d := (canTake_hall ⟨0, 0, []⟩).due
  exact ⟨⟨canTake_hall, fun _ _ => { d with stopping := .inl rfl }, fun _ => ⟨d.ramps, d.switch⟩⟩, by decide +kernel⟩

/-- A request in the wrong phase, bodies of a wrong length and with a byte outside its coding, and names outside the hall. -/
theorem witness_SharedChecksRefuseRequests :
    ((∀ f, config.CanTake f) ∧ (∀ f, hall.CanTake f) ∧ hall.RoomAt 1 1 (roomOf hall 1)) ∧
    requestForms.map RequestForm.kind = (List.range 34).map (fun k => BitVec.ofNat 8 (k + 1)) ∧
    requestForms.all (fun f => f.allowed config = f.config && f.allowed hall = f.run && (f.config || f.run)) = true ∧
    (hall.segment 12).installed = false ∧ (hall.segment 1).installed = true ∧ (hall.seat 240).installed = false ∧
    (hall.boothAt 24).installed = false ∧ (hall.boothAt 1).installed = true ∧ (hall.boothAt 1).language = 7 ∧
    (hall.console 1).owned = none ∧ (hall.console 2).owned = none ∧ (hall.partition 16).installed = false ∧
    (word16At [1, 0x10, 0] 1).testBit (15 - 3) = true := ⟨⟨canTake_config, canTake_hall, roomAt_hall⟩, by decide +kernel⟩

theorem witness_TheTransmitterSendsRepliesFirst :
    hall.NothingDue ∧ hall.resetLow = false ∧ hall.link.sending.isSome = true ∧ hall.link.replies = [] ∧
    hall.link.notices = [] ∧ (hall.note (.groupBlocked 1 true .host 0)).link.notices = [.groupBlocked 1 true .host 0] ∧
    (hall.reply ⟨0x22, 7, .ok .nothing⟩).link.replies = [⟨0x22, 7, .ok .nothing⟩] :=
  ⟨(canTake_hall ⟨0, 0, []⟩).due, by decide +kernel⟩

/-- The reset state, with BLOCK_BOUNDARY in front of its queue. -/
def ticking : State := State.reset.setPending [.blockBoundary 0 []]

theorem no_room (a : Nat) (r : Room) : ticking.room a ≠ some r := nofun
theorem step_ticking : ∃ t, step ticking = .next t := ⟨_, rfl⟩

/-- The invariants hold there, and a step leads on from it. -/
theorem witness_StepKeepsWallsAndLevels : ticking.levelsOk ∧ ∃ t, step ticking = .next t :=
  ⟨⟨fun _ => show Segment.initial.levelsOk by constructor <;> decide, fun _ _ h => absurd h (no_room _ _)⟩, step_ticking⟩

theorem witness_StepKeepsUpstreamSlotsApart : ticking.slotsOk ∧ ∃ t, step ticking = .next t :=
  ⟨⟨rfl, nofun, nofun⟩, step_ticking⟩

theorem witness_StepKeepsRoomsAndQueues : (ticking.RoomsOk ∧ ticking.QueuesOk) ∧ ∃ t, step ticking = .next t := by
  refine ⟨⟨⟨?_, ?_, ?_, ?_, nofun⟩, ?_⟩, step_ticking⟩
  on_goal 5 => constructor
  all_goals (intros; exact absurd ‹ticking.room _ = some _› (no_room _ _))

theorem witness_StepKeepsOwnersAndChannels : (ticking.OwnersOk ∧ ticking.ChannelsOk) ∧ ∃ t, step ticking = .next t :=
  have owner : Console.initial.owned.isSome = true ↔
    Console.initial.state = .cueing ∨ Console.initial.state = .onAir := by decide
  ⟨⟨⟨rfl, fun _ => owner, nofun⟩, ⟨rfl, nofun, nofun, nofun, List.nodup_nil, fun h => absurd rfl h⟩⟩, step_ticking⟩

theorem witness_StepKeepsTheLinkQueuesBounded : hall.link.bounded ∧ ∃ t, step hall = .next t :=
  ⟨by simp only [LinkUnit.bounded]; decide +kernel, _, rfl⟩

end Sys2Proof.Tests
end

section
/-! SUPPORT. The partition table is written by the requests of chapter 1 and by a settling event only: one lemma for each other
operation of the blocks, that it leaves the table as it was. -/

namespace Sys2Proof.Machine

/-- Work on the elements of a list leaves the partitions alone where the work on each does. -/
@[simp] theorem foldl_partitions {α : Type} {f : State → α → State}
    (hf : ∀ v x, (f v x).hall.partitions = v.hall.partitions) (xs : List α) (s : State) :
    (xs.foldl f s).hall.partitions = s.hall.partitions := by
  induction xs generalizing s with
  | nil => rfl
  | cons x xs ih => exact (ih (f s x)).trans (hf s x)

namespace State

variable (s : State)

/-! ## Shared operations -/

@[simp] theorem setUnit_partitions (i a : Nat) (x : UnitRecord) :
    (s.setUnit i a x).hall.partitions = s.hall.partitions := rfl

@[simp] theorem countOpening_partitions : s.countOpening.hall.partitions = s.hall.partitions := rfl

@[simp] theorem countLive_partitions : s.countLive.hall.partitions = s.hall.partitions := rfl

@[simp] theorem countStamp_partitions : s.countStamp.hall.partitions = s.hall.partitions := rfl

@[simp] theorem raiseSeat_partitions (e : CountEvent) (n : Nat) :
    (s.raiseSeat e n).hall.partitions = s.hall.partitions := rfl

@[simp] theorem raiseBooth_partitions (e : CountEvent) (b : Nat) :
    (s.raiseBooth e b).hall.partitions = s.hall.partitions := rfl

@[simp] theorem noteMic_partitions (n : Nat) (old : Mic) (c : MicCause) :
    (s.noteMic n old c).hall.partitions = s.hall.partitions := rfl

@[simp] theorem noteConsole_partitions (c : Nat) (old : ConsoleState) (k : BoothCause) (x : Option Nat) :
    (s.noteConsole c old k x).hall.partitions = s.hall.partitions := rfl

@[simp] theorem modRoom_partitions (a : Nat) (f : Room → Room) :
    (s.modRoom a f).hall.partitions = s.hall.partitions := by
  unfold modRoom; split <;> rfl

@[simp] theorem modSeatRoom_partitions (n : Nat) (f : Room → Room) :
    (s.modSeatRoom n f).hall.partitions = s.hall.partitions := by
  unfold modSeatRoom; split <;> simp

@[simp] theorem join_partitions (i : Nat) (it : Item) : (s.join i it).hall.partitions = s.hall.partitions := by
  unfold join; split <;> rfl

@[simp] theorem leave_partitions (i : Nat) (it : Item) : (s.leave i it).hall.partitions = s.hall.partitions := rfl

@[simp] theorem check_partitions (i a : Nat) : (s.check i a).hall.partitions = s.hall.partitions := by
  unfold check; split <;> simp

@[simp] theorem queueMaps_partitions (ks : List Nat) : (s.queueMaps ks).hall.partitions = s.hall.partitions :=
  foldl_partitions (fun v i => by simp) _ s

@[simp] theorem queueRoomMaps_partitions (a : Nat) : (s.queueRoomMaps a).hall.partitions = s.hall.partitions := by
  unfold queueRoomMaps; split <;> simp

@[simp] theorem reseat_partitions (n : Nat) : (s.reseat n).hall.partitions = s.hall.partitions := by
  simp [reseat]

@[simp] theorem reform_partitions (n : Nat) : (s.reform n).hall.partitions = s.hall.partitions := by
  unfold reform; split <;> simp

@[simp] theorem reformAll_partitions (ns : List Nat) : (s.reformAll ns).hall.partitions = s.hall.partitions :=
  foldl_partitions reform_partitions ns s

@[simp] theorem showConsole_partitions (c : Nat) : (s.showConsole c).hall.partitions = s.hall.partitions := by
  simp [showConsole]

@[simp] theorem reconsole_partitions (c : Nat) : (s.reconsole c).hall.partitions = s.hall.partitions := by
  unfold reconsole; split <;> simp

/-! ## Drops, blocking and counters -/

@[simp] theorem unqueue_partitions (n : Nat) : (s.unqueue n).hall.partitions = s.hall.partitions := by
  simp [unqueue]

@[simp] theorem drop_partitions (n : Nat) (c : DropCause) : (s.drop n c).hall.partitions = s.hall.partitions := by
  simp [drop]

@[simp] theorem noteGroup_partitions (g : Nat) (b : Bool) (c : BlockCause) :
    (s.noteGroup g b c).hall.partitions = s.hall.partitions := rfl

@[simp] theorem counterBlocks_partitions (g : Nat) : (s.counterBlocks g).hall.partitions = s.hall.partitions := by
  unfold counterBlocks; dsimp only
  split
  · rfl
  · split
    · simp
    · split <;> simp

@[simp] theorem addCounter_partitions (c k : Nat) : (s.addCounter c k).hall.partitions = s.hall.partitions := by
  unfold addCounter; dsimp only
  split
  · simp
  · split <;> simp

@[simp] theorem takeOccurrence_partitions (o : Occurrence) (c : Nat) :
    (s.takeOccurrence o c).hall.partitions = s.hall.partitions := by
  unfold takeOccurrence; dsimp only
  split
  · split <;> simp
  · rfl

@[simp] theorem addOccurrences_partitions (n : Nat) : (addOccurrences n s).hall.partitions = s.hall.partitions := by
  induction n generalizing s with
  | zero => rfl
  | succ n ih =>
    unfold addOccurrences
    split
    · rfl
    · simp [ih]

@[simp] theorem settleCounts_partitions : s.settleCounts.hall.partitions = s.hall.partitions := by
  unfold settleCounts; split <;> simp

@[simp] theorem dropNow_partitions (n : Nat) (c : DropCause) : (s.dropNow n c).hall.partitions = s.hall.partitions := by
  simp [dropNow]

@[simp] theorem dropQueue_partitions (n a : Nat) (c : DropCause) :
    (dropQueue n a c s).hall.partitions = s.hall.partitions := by
  induction n generalizing s with
  | zero => rfl
  | succ n ih =>
    unfold dropQueue
    split
    · rfl
    · split
      · rfl
      · simp [ih]

@[simp] theorem emptyQueue_partitions (a : Nat) (c : DropCause) :
    (s.emptyQueue a c).hall.partitions = s.hall.partitions := by
  unfold emptyQueue; split <;> simp

/-! ## The floor -/

@[simp] theorem enterOpening_partitions (n : Nat) (c : MicCause) (g : Option Nat) :
    (s.enterOpening n c g).hall.partitions = s.hall.partitions := by
  simp only [enterOpening, reseat_partitions, noteMic_partitions, modSeatRoom_partitions, countOpening_partitions, setSeat_hall]
  split <;> simp

@[simp] theorem enterClosing_partitions (n : Nat) (c : MicCause) :
    (s.enterClosing n c).hall.partitions = s.hall.partitions := by
  simp [enterClosing]

@[simp] theorem withdraw_partitions (n : Nat) (c : MicCause) :
    (s.withdraw n c).hall.partitions = s.hall.partitions := by
  simp [withdraw]

@[simp] theorem refusePress_partitions (n : Nat) (c : RefusedCause) :
    (s.refusePress n c).hall.partitions = s.hall.partitions := by
  simp [refusePress]

@[simp] theorem joinQueue_partitions (n : Nat) (c : MicCause) :
    (s.joinQueue n c).hall.partitions = s.hall.partitions := by
  simp [joinQueue]

@[simp] theorem takeCandidate_partitions (a : Nat) (e : Entry) (c : MicCause) :
    (s.takeCandidate a e c).hall.partitions = s.hall.partitions := by
  simp [takeCandidate]

@[simp] theorem promoteRun_partitions (n a : Nat) : (promoteRun n a s).hall.partitions = s.hall.partitions := by
  induction n generalizing s with
  | zero => rfl
  | succ n ih =>
    unfold promoteRun
    split
    · rfl
    · split
      · split
        · rfl
        · split
          · rfl
          · simp [ih]
      · rfl

@[simp] theorem promote_partitions (a : Nat) : (s.promote a).hall.partitions = s.hall.partitions := by
  unfold promote; split <;> simp

@[simp] theorem promoteSeat_partitions (n : Nat) : (s.promoteSeat n).hall.partitions = s.hall.partitions := by
  unfold promoteSeat; split <;> simp

@[simp] theorem promoteAfterSlot_partitions (n : Nat) : (s.promoteAfterSlot n).hall.partitions = s.hall.partitions := by
  simp [promoteAfterSlot]

@[simp] theorem mute_partitions (n : Nat) : (s.mute n).hall.partitions = s.hall.partitions := rfl

@[simp] theorem muteAll_partitions (a : Nat) : (s.muteAll a).hall.partitions = s.hall.partitions := by
  unfold muteAll
  split
  · rfl
  · exact foldl_partitions mute_partitions _ s

@[simp] theorem closeAll_partitions (a : Nat) : (s.closeAll a).hall.partitions = s.hall.partitions := by
  unfold closeAll; split <;> simp

@[simp] theorem act_partitions (a : Nat) : (s.act a).hall.partitions = s.hall.partitions := by
  unfold act
  split
  · rfl
  · split <;> simp

@[simp] theorem openChair_partitions (n : Nat) (c : MicCause) :
    (s.openChair n c).hall.partitions = s.hall.partitions := by
  unfold openChair
  split
  · split <;> simp
  · rfl

@[simp] theorem activate_partitions (a : Nat) (cs : List Nat) :
    (s.activate a cs).hall.partitions = s.hall.partitions := by
  unfold activate
  split
  · rfl
  · simp only [openChair_partitions, implies_true, foldl_partitions]
    split <;> simp

@[simp] theorem unmuteAll_partitions (a : Nat) : (s.unmuteAll a).hall.partitions = s.hall.partitions := by
  unfold unmuteAll
  split
  · rfl
  · exact foldl_partitions (by intros; rfl) _ s

@[simp] theorem endPriority_partitions (a : Nat) : (s.endPriority a).hall.partitions = s.hall.partitions := by
  simp [endPriority]

/-! ## Channels and booths -/

@[simp] theorem makeChannel_partitions (key : Key) : (s.makeChannel key).hall.partitions = s.hall.partitions := by
  unfold makeChannel
  split
  · rfl
  · split <;> simp

@[simp] theorem makeChannels_partitions (keys : List Key) :
    (s.makeChannels keys).hall.partitions = s.hall.partitions :=
  foldl_partitions makeChannel_partitions keys s

@[simp] theorem giveSlot_partitions (k : Nat) : (s.giveSlot k).hall.partitions = s.hall.partitions := by
  unfold giveSlot; split <;> simp

@[simp] theorem removeUnserved_partitions (key : Key) : (s.removeUnserved key).hall.partitions = s.hall.partitions := by
  unfold removeUnserved; split <;> simp

@[simp] theorem removeServed_partitions (key : Key) : (s.removeServed key).hall.partitions = s.hall.partitions := by
  unfold removeServed; split <;> simp

@[simp] theorem removeChannels_partitions (keys : List Key) :
    (s.removeChannels keys).hall.partitions = s.hall.partitions := by
  simp [removeChannels]

@[simp] theorem rekey_partitions (old new : Key) : (s.rekey old new).hall.partitions = s.hall.partitions := by
  unfold rekey
  split
  · rfl
  · split <;> simp

@[simp] theorem keepAnchors_partitions : s.keepAnchors.hall.partitions = s.hall.partitions := rfl

@[simp] theorem relisten_partitions (b : Nat) : (s.relisten b).hall.partitions = s.hall.partitions := by
  unfold relisten; dsimp only
  split
  · rfl
  · split <;> simp

@[simp] theorem relistenIn_partitions (ks : List Nat) : (s.relistenIn ks).hall.partitions = s.hall.partitions :=
  foldl_partitions relisten_partitions _ s

@[simp] theorem reconsoleIn_partitions (ks : List Nat) : (s.reconsoleIn ks).hall.partitions = s.hall.partitions :=
  foldl_partitions reconsole_partitions _ s

@[simp] theorem boothWork_partitions (a : Nat) : (s.boothWork a).hall.partitions = s.hall.partitions := by
  simp [boothWork]

@[simp] theorem consoleWork_partitions (c : Nat) : (s.consoleWork c).hall.partitions = s.hall.partitions := by
  unfold consoleWork; split <;> simp

@[simp] theorem moveConsole_partitions (c : Nat) (x : ConsoleState) (k : Option Key) :
    (s.moveConsole c x k).hall.partitions = s.hall.partitions := by
  simp [moveConsole]

@[simp] theorem release_partitions (c : Nat) (k : BoothCause) (x : Option Nat) :
    (s.release c k x).hall.partitions = s.hall.partitions := by
  simp [release]

@[simp] theorem displace_partitions (c : Nat) (k : DisplacedCause) (a : Nat) (key : Key) :
    (s.displace c k a key).hall.partitions = s.hall.partitions := by
  simp [displace]

@[simp] theorem releaseOwners_partitions (keys : List Key) (k : BoothCause) :
    (s.releaseOwners keys k).hall.partitions = s.hall.partitions :=
  foldl_partitions (fun v key => by split <;> simp) keys s

/-! ## Sessions -/

@[simp] theorem enterSession_partitions (a : Nat) (c : SessionCause) (w : Option Waker) :
    (s.enterSession a c w).hall.partitions = s.hall.partitions := by
  unfold enterSession
  split
  · rfl
  · simp only [promote_partitions, boothWork_partitions]
    split <;> simp

@[simp] theorem wake_partitions (a : Nat) (p : Wake → Bool) (c : SessionCause) (w : Option Waker) :
    (s.wake a p c w).hall.partitions = s.hall.partitions := by
  unfold wake
  split
  · rfl
  · split <;> simp

@[simp] theorem passToDormant_partitions (a : Nat) : (s.passToDormant a).hall.partitions = s.hall.partitions := by
  unfold passToDormant; split <;> simp

@[simp] theorem passIfEmpty_partitions (a : Nat) : (s.passIfEmpty a).hall.partitions = s.hall.partitions := by
  unfold passIfEmpty
  split
  · rfl
  · split <;> simp

@[simp] theorem passSeatRoom_partitions (n : Nat) : (s.passSeatRoom n).hall.partitions = s.hall.partitions := by
  unfold passSeatRoom; split <;> simp

@[simp] theorem closeSession_partitions (a : Nat) : (s.closeSession a).hall.partitions = s.hall.partitions := by
  unfold closeSession; split <;> simp

@[simp] theorem endSession_partitions (a : Nat) : (s.endSession a).hall.partitions = s.hall.partitions := by
  unfold endSession
  split
  · rfl
  · simp only [passIfEmpty_partitions, boothWork_partitions, release_partitions, implies_true, foldl_partitions,
      closeSession_partitions]
    split <;> simp

/-! ## Presses and acknowledgements -/

@[simp] theorem pressIdleDelegate_partitions (n a : Nat) (r : Room) :
    (s.pressIdleDelegate n a r).hall.partitions = s.hall.partitions := by
  have join : (if s.queueFull r then s.refusePress n .queueFull
      else (s.joinQueue n .press).promote a).hall.partitions = s.hall.partitions := by
    split <;> simp
  unfold pressIdleDelegate; dsimp only
  split
  · simp
  · split
    · split
      · simp
      · split
        · exact join
        · simp
    · exact join

@[simp] theorem pressDelegate_partitions (n a : Nat) (r : Room) :
    (s.pressDelegate n a r).hall.partitions = s.hall.partitions := by
  unfold pressDelegate
  split
  · simp
  · split <;> simp
  · split <;> simp
  · split <;> simp
  · rfl

@[simp] theorem pressChair_partitions (n a : Nat) : (s.pressChair n a).hall.partitions = s.hall.partitions := by
  unfold pressChair; split <;> simp

@[simp] theorem togglePending_partitions (n : Nat) : (s.togglePending n).hall.partitions = s.hall.partitions := rfl

@[simp] theorem handlePress_partitions (n : Nat) : (s.handlePress n).hall.partitions = s.hall.partitions := by
  unfold handlePress
  split
  · rfl
  · split
    · rfl
    · split
      · rfl
      · split
        · split <;> simp
        · rfl

@[simp] theorem micPress_partitions (n : Nat) : (s.micPress n).hall.partitions = s.hall.partitions := by
  unfold micPress
  split
  · simp
  · split <;> simp

@[simp] theorem seatOpened_partitions (n : Nat) : (s.seatOpened n).hall.partitions = s.hall.partitions := by
  unfold seatOpened; dsimp only; split <;> simp

@[simp] theorem seatClosed_partitions (n : Nat) : (s.seatClosed n).hall.partitions = s.hall.partitions := by
  unfold seatClosed; dsimp only; split <;> simp

@[simp] theorem priorityReleased_partitions (a : Nat) : (s.priorityReleased a).hall.partitions = s.hall.partitions := by
  unfold priorityReleased
  split
  · rfl
  · split <;> simp

@[simp] theorem chairHeld_partitions (n : Nat) (b : Bool) : (s.chairHeld n b).hall.partitions = s.hall.partitions := by
  unfold chairHeld
  split
  · rfl
  · split
    · split <;> simp
    · simp

@[simp] theorem seatFound_partitions (n : Nat) : (s.seatFound n).hall.partitions = s.hall.partitions := by
  unfold seatFound; split <;> simp

@[simp] theorem seatLost_partitions (n : Nat) (b : Bool) : (s.seatLost n b).hall.partitions = s.hall.partitions := by
  unfold seatLost; dsimp only
  split
  · simp only [promoteAfterSlot_partitions, passSeatRoom_partitions, settleCounts_partitions, raiseSeat_partitions,
      reseat_partitions, noteMic_partitions, modSeatRoom_partitions, setSeat_hall]
    split <;> simp
  · simp only [promoteSeat_partitions, passSeatRoom_partitions, settleCounts_partitions, raiseSeat_partitions,
      reseat_partitions, noteMic_partitions, modSeatRoom_partitions, setSeat_hall]
    split <;> simp

@[simp] theorem takeChannel_partitions (c : Nat) (key : Key) :
    (s.takeChannel c key).hall.partitions = s.hall.partitions := by
  simp [takeChannel]

@[simp] theorem pressReady_partitions (c : Nat) : (s.pressReady c).hall.partitions = s.hall.partitions := by
  unfold pressReady; dsimp only
  split
  · rfl
  · split
    · rfl
    · split
      · rfl
      · split
        · simp
        · split <;> simp

@[simp] theorem handleOnAir_partitions (c : Nat) : (s.handleOnAir c).hall.partitions = s.hall.partitions := by
  unfold handleOnAir; split <;> simp

@[simp] theorem onAirPress_partitions (c : Nat) : (s.onAirPress c).hall.partitions = s.hall.partitions := by
  unfold onAirPress; split <;> simp

@[simp] theorem consoleOpened_partitions (c : Nat) : (s.consoleOpened c).hall.partitions = s.hall.partitions := by
  unfold consoleOpened; split <;> simp

@[simp] theorem consoleClosed_partitions (c : Nat) : (s.consoleClosed c).hall.partitions = s.hall.partitions := by
  unfold consoleClosed; split <;> simp

@[simp] theorem coughHeld_partitions (c : Nat) (b : Bool) : (s.coughHeld c b).hall.partitions = s.hall.partitions := by
  unfold coughHeld; dsimp only; split <;> simp

@[simp] theorem consoleFound_partitions (c : Nat) : (s.consoleFound c).hall.partitions = s.hall.partitions := by
  unfold consoleFound; split <;> simp

@[simp] theorem consoleLost_partitions (c : Nat) : (s.consoleLost c).hall.partitions = s.hall.partitions := by
  simp [consoleLost]

@[simp] theorem acknowledge_partitions (i a : Nat) (k : AckOf) :
    (s.acknowledge i a k).hall.partitions = s.hall.partitions := by
  unfold acknowledge
  split
  · split <;> simp
  · split <;> simp

@[simp] theorem presses_partitions (i a n : Nat) : (s.presses i a n).hall.partitions = s.hall.partitions := by
  induction n generalizing s with
  | zero => rfl
  | succ n ih =>
    rw [presses, ih]
    split <;> simp

@[simp] theorem heldChanged_partitions (i a : Nat) (b : Bool) :
    (s.heldChanged i a b).hall.partitions = s.hall.partitions := by
  unfold heldChanged
  split
  · split <;> simp
  · simp

@[simp] theorem recordHeld_partitions (i a : Nat) (b : Bool) :
    (s.recordHeld i a b).hall.partitions = s.hall.partitions := by
  unfold recordHeld; split <;> simp

/-! ## Merges and splits -/

@[simp] theorem holdCounts_partitions : s.holdCounts.hall.partitions = s.hall.partitions := rfl

@[simp] theorem releaseCounts_partitions : s.releaseCounts.hall.partitions = s.hall.partitions := by
  simp [releaseCounts]

@[simp] theorem noteMergeStates_partitions (p q : Room) :
    (s.noteMergeStates p q).hall.partitions = s.hall.partitions := by
  unfold noteMergeStates; dsimp only
  split
  · split <;> simp
  · split <;> simp

@[simp] theorem trimQueue_partitions (cut : List Entry) : (s.trimQueue cut).hall.partitions = s.hall.partitions := by
  simp [trimQueue]

@[simp] theorem mergeChannels_partitions (p q : Room) (codes cut : List Nat) :
    (s.mergeChannels p q codes cut).hall.partitions = s.hall.partitions := by
  simp [mergeChannels]

@[simp] theorem rekeyOwner_partitions (c : Nat) (key : Key) :
    (s.rekeyOwner c key).hall.partitions = s.hall.partitions := by
  unfold rekeyOwner; split <;> rfl

@[simp] theorem mergeOwners_partitions (p q : Room) (codes cut kept : List Nat) :
    (s.mergeOwners p q codes cut kept).hall.partitions = s.hall.partitions := by
  unfold mergeOwners; dsimp only
  rw [foldl_partitions, foldl_partitions, foldl_partitions]
  all_goals (intro v c; split <;> simp)

@[simp] theorem mergeRooms_partitions (p q m : Room) : (s.mergeRooms p q m).hall.partitions = s.hall.partitions := by
  simp [mergeRooms, foldl_partitions (f := fun v k => v.setAnchor k (some p.anchor)) fun _ _ => rfl]

@[simp] theorem mergeFloor_partitions (a : Nat) (m : Room) (cut : List Entry) :
    (s.mergeFloor a m cut).hall.partitions = s.hall.partitions := by
  unfold mergeFloor; split <;> simp

@[simp] theorem mergeLanguages_partitions (p q m : Room) (kept : List Nat) :
    (s.mergeLanguages p q m kept).hall.partitions = s.hall.partitions := by
  unfold mergeLanguages; dsimp only; split <;> simp

@[simp] theorem mergeEnd_partitions (a : Nat) (m : Room) : (s.mergeEnd a m).hall.partitions = s.hall.partitions := by
  simp [mergeEnd]

@[simp] theorem mergePriority_partitions (a : Nat) (p q m : Room) :
    (s.mergePriority a p q m).hall.partitions = s.hall.partitions := by
  unfold mergePriority; split <;> simp

@[simp] theorem merge_partitions (a b : Nat) : (s.merge a b).hall.partitions = s.hall.partitions := by
  unfold merge
  split
  · simp [mergeInto]
  · rfl

@[simp] theorem splitPriority_partitions (a : Nat) : (s.splitPriority a).hall.partitions = s.hall.partitions := by
  unfold splitPriority
  split
  · rfl
  · split <;> simp

@[simp] theorem splitOwners_partitions (a c : Nat) (ks : List Nat) :
    (s.splitOwners a c ks).hall.partitions = s.hall.partitions :=
  foldl_partitions (fun v o => by
    split
    · rfl
    · split <;> simp) _ s

@[simp] theorem splitRooms_partitions (r : Room) (c : Nat) (keep go : List Nat) :
    (s.splitRooms r c keep go).hall.partitions = s.hall.partitions := by
  simp [splitRooms, foldl_partitions (f := fun v k => v.setAnchor k (some c)) fun _ _ => rfl]

@[simp] theorem splitChannels_partitions (c : Nat) : (s.splitChannels c).hall.partitions = s.hall.partitions := by
  unfold splitChannels; split <;> simp

@[simp] theorem splitEnd_partitions (a c : Nat) (ks : List Nat) :
    (s.splitEnd a c ks).hall.partitions = s.hall.partitions := by
  simp [splitEnd]

@[simp] theorem split_partitions (a c : Nat) (keep go : List Nat) :
    (s.split a c keep go).hall.partitions = s.hall.partitions := by
  unfold State.split
  split
  · rfl
  · simp [splitInto]

@[simp] theorem partitionChanged_partitions (p : Nat) : (s.partitionChanged p).hall.partitions = s.hall.partitions := by
  unfold partitionChanged; dsimp only
  split
  · split
    · split <;> simp
    · simp
  · split
    · simp
    · split
      · simp
      · split <;> simp

/-! ## Buses -/

@[simp] theorem carry_partitions (i : Nat) (x : Option Exchange) :
    (s.carry i x).hall.partitions = s.hall.partitions := rfl

@[simp] theorem poll_partitions (i : Nat) : (s.poll i).hall.partitions = s.hall.partitions := by
  unfold poll; split <;> rfl

@[simp] theorem oweMaps_partitions (i k : Nat) : (s.oweMaps i k).hall.partitions = s.hall.partitions :=
  foldl_partitions (fun v a => by split <;> rfl) _ s

@[simp] theorem serve_partitions (i : Nat) (it : Item) : (s.serve i it).hall.partitions = s.hall.partitions := by
  unfold serve; dsimp only; split <;> simp

@[simp] theorem arbitrate_partitions (i : Nat) : (s.arbitrate i).hall.partitions = s.hall.partitions := by
  unfold arbitrate
  split
  · rfl
  · split
    · simp
    · split <;> simp

@[simp] theorem becomePresent_partitions (i a : Nat) (c : UnitClass) :
    (s.becomePresent i a c).hall.partitions = s.hall.partitions := by
  unfold becomePresent; dsimp only
  by_cases hi : i < 4
  · simp [hi]
  · simp [hi]

@[simp] theorem becomeAbsent_partitions (i a : Nat) : (s.becomeAbsent i a).hall.partitions = s.hall.partitions := by
  unfold becomeAbsent; dsimp only
  split
  · by_cases hi : i < 4
    · simp [hi]
    · simp [hi]
  · simp

@[simp] theorem applyStatus_partitions (i a : Nat) (c : Command) :
    (s.applyStatus i a c).hall.partitions = s.hall.partitions := by
  unfold applyStatus; dsimp only
  split
  · split <;> simp
  · simp
  · rfl

@[simp] theorem endExchange_partitions (i : Nat) : (s.endExchange i).hall.partitions = s.hall.partitions := by
  unfold endExchange; split <;> rfl

@[simp] theorem answered_partitions (i : Nat) (x : Exchange) (acked : Option AckOf) (n : Nat) (b : Bool) (c : UnitClass) :
    (s.answered i x acked n b c).hall.partitions = s.hall.partitions := by
  unfold answered; dsimp only
  split
  · simp only [check_partitions, recordHeld_partitions, presses_partitions]
    split
    · simp
    · split <;> simp
    · split <;> simp
  · simp

@[simp] theorem countMiss_partitions (i a : Nat) : (s.countMiss i a).hall.partitions = s.hall.partitions := rfl

@[simp] theorem requeueMissed_partitions (i : Nat) (x : Exchange) :
    (s.requeueMissed i x).hall.partitions = s.hall.partitions := by
  unfold requeueMissed; split <;> simp

@[simp] theorem absentIfThird_partitions (i a : Nat) : (s.absentIfThird i a).hall.partitions = s.hall.partitions := by
  unfold absentIfThird; split <;> simp

@[simp] theorem missExchange_partitions (i : Nat) (x : Exchange) :
    (s.missExchange i x).hall.partitions = s.hall.partitions := by
  simp [missExchange]

@[simp] theorem lapse_partitions (i : Nat) : (s.lapse i).hall.partitions = s.hall.partitions := by
  unfold lapse; split <;> simp

/-! ## The clock -/

@[simp] theorem takeSecond_partitions (c n : Nat) : (s.takeSecond c n).hall.partitions = s.hall.partitions := by
  unfold takeSecond; dsimp only
  rw [settleCounts_partitions]
  split <;> simp

@[simp] theorem second_partitions : s.second.hall.partitions = s.hall.partitions := by
  unfold second; dsimp only
  rw [foldl_partitions, foldl_partitions]
  · intros; rfl
  · simp

@[simp] theorem secondIfDue_partitions : s.secondIfDue.hall.partitions = s.hall.partitions := by
  unfold secondIfDue; split <;> simp

@[simp] theorem expireTimer_partitions (a : Nat) : (s.expireTimer a).hall.partitions = s.hall.partitions := by
  unfold expireTimer; dsimp only
  split
  · rfl
  · split <;> simp

@[simp] theorem nextTimer_partitions : s.nextTimer.hall.partitions = s.hall.partitions := by
  unfold nextTimer; split <;> simp

@[simp] theorem endHoldOff_partitions (n : Nat) : (s.endHoldOff n).hall.partitions = s.hall.partitions := by
  unfold endHoldOff; dsimp only; split <;> simp

@[simp] theorem nextHoldOff_partitions : s.nextHoldOff.hall.partitions = s.hall.partitions := by
  unfold nextHoldOff; split <;> simp

@[simp] theorem warnIfDue_partitions (n c l : Nat) (r : Room) :
    (s.warnIfDue n c l r).hall.partitions = s.hall.partitions := by
  unfold warnIfDue; split <;> simp

@[simp] theorem limitIfDue_partitions (n c l : Nat) (r : Room) :
    (s.limitIfDue n c l r).hall.partitions = s.hall.partitions := by
  unfold limitIfDue
  split
  · split
    · simp
    · split <;> simp
  · rfl

@[simp] theorem clockSecond_partitions (n : Nat) : (s.clockSecond n).hall.partitions = s.hall.partitions := by
  unfold clockSecond; dsimp only
  split
  · split <;> simp
  · rfl

@[simp] theorem nextClock_partitions : s.nextClock.hall.partitions = s.hall.partitions := by
  unfold nextClock; split <;> simp

@[simp] theorem settleRamp_partitions (a : Nat) : (s.settleRamp a).hall.partitions = s.hall.partitions := by
  unfold settleRamp; split <;> simp

@[simp] theorem nextRamp_partitions : s.nextRamp.hall.partitions = s.hall.partitions := by
  unfold nextRamp; split <;> simp

@[simp] theorem switchIfDue_partitions : s.switchIfDue.hall.partitions = s.hall.partitions := by
  unfold switchIfDue; split <;> rfl

@[simp] theorem closeInstant_partitions : s.closeInstant.hall.partitions = s.hall.partitions := by
  simp [closeInstant, timesOf]

end State

end Sys2Proof.Machine
end

section
/-! SUPPORT. `HallKept s t`: going from `s` to `t` keeps the three conditions on the hall (walls, hold counts, levels). The
work of the blocks keeps them by `Kept` and by leaving the partitions alone; the operations of the room unit that write the
hall are taken one by one. -/

namespace Sys2Proof.Machine

/-- The conditions of the walls, the hold counts and the levels hold in `t` where they hold in `s`. -/
structure HallKept (s t : State) : Prop where
  walls : s.wallsOk → t.wallsOk
  settling : s.settlingOk → t.settlingOk
  levels : s.levelsOk → t.levelsOk

namespace HallKept

variable {s t u : State}

protected theorem refl (s : State) : HallKept s s := ⟨id, id, id⟩

theorem trans (h : HallKept s t) (k : HallKept t u) : HallKept s u :=
  ⟨k.walls ∘ h.walls, k.settling ∘ h.settling, k.levels ∘ h.levels⟩

/-- The conditions read the hall only. -/
theorem of_hall (e : t.hall = s.hall) : HallKept s t where
  walls h p := by simpa only [State.partition, e] using h p
  settling h p := by simpa only [State.settling, e] using h p
  levels h := ⟨fun k => by simpa only [State.segment, e] using h.1 k,
    fun a r hr => h.2 a r (by simpa only [State.room, e] using hr)⟩

theorem note (h : HallKept s t) (n : Notice) : HallKept s (t.note n) := h.trans (.of_hall (State.note_hall ..))

/-- Work of the blocks that leaves the partitions as they were. -/
theorem of_kept (k : Kept s t) (e : t.hall.partitions = s.hall.partitions := by simp) : HallKept s t where
  walls h p := by simpa only [State.partition, e] using h p
  settling := k.settling
  levels := k.levels

theorem fold {α : Type} {f : State → α → State} (hf : ∀ v x, HallKept v (f v x)) (xs : List α) (s : State) :
    HallKept s (xs.foldl f s) := by
  induction xs generalizing s with
  | nil => exact .refl s
  | cons x xs ih => exact (hf s x).trans (ih (f s x))

end HallKept

/-! ## Walls (R8) -/

/-- After a derivation the partition holds what R8 and R9 give, and every other partition is as it was. -/
theorem State.rederive_partition (s : State) (p q : Nat) : (s.rederive p).partition q =
    if q = p then { s.partition p with effective := effectiveOf (s.partition p), mismatch := mismatchOf (s.partition p) }
    else s.partition q := by
  have table : (s.rederive p).hall.partitions = (s.setPartition p { s.partition p with
      effective := effectiveOf (s.partition p), mismatch := mismatchOf (s.partition p) }).hall.partitions := by
    unfold State.rederive; dsimp only
    split
    · rw [State.partitionChanged_partitions]
      split
      · rfl
      · split <;> simp
    · split
      · rfl
      · split <;> simp
  simp only [State.partition, table]
  exact State.setPartition_partition ..

/-- A derivation puts right the one effective state that may be wrong. -/
theorem State.rederive_wallsOk {s : State} {p : Nat}
    (h : ∀ q, q ≠ p → (s.partition q).effective = effectiveOf (s.partition q)) : (s.rederive p).wallsOk := by
  intro q
  rw [State.rederive_partition]
  split
  · rfl
  · exact h q ‹_›

/-- A partition may be written in any way where a derivation follows. -/
theorem State.setPartition_rederive_wallsOk {s : State} (h : s.wallsOk) (p : Nat) (x : Partition) :
    ((s.setPartition p x).rederive p).wallsOk :=
  State.rederive_wallsOk fun q hq => by
    rw [State.setPartition_partition, if_neg hq]
    exact h q

/-- The sensed state of a partition that is not installed and fitted does not matter (R8). -/
theorem effectiveOf_sensed {x : Partition} (h : ¬ (x.installed && x.fitted) = true) (v : Sensed) :
    effectiveOf { x with sensed := v } = effectiveOf x := by
  cases hi : x.installed
  · simp [effectiveOf, hi]
  · have hf : x.fitted = false := by simpa [hi] using h
    simp [effectiveOf, hi, hf]

theorem State.settle_wallsOk {s : State} (h : s.wallsOk) (p : Nat) : (s.settle p).wallsOk := by
  unfold State.settle; dsimp only
  have h' : (s.setSettling p { s.settling p with stable := (s.settling p).candidate }).wallsOk := h
  split
  · exact State.setPartition_rederive_wallsOk h' p _
  · rename_i bare
    intro q
    rw [State.setPartition_partition]
    split
    · subst_vars
      rw [State.setPartition_partition_same] at bare
      exact (h _).trans (effectiveOf_sensed (x := s.partition _) bare _).symm
    · exact h q

namespace HallKept

theorem setPartition_rederive (s : State) (p : Nat) (x : Partition) : HallKept s ((s.setPartition p x).rederive p) :=
  have k : Kept s ((s.setPartition p x).rederive p) := ((Kept.refl s).setPartition p x).rederive p
  ⟨fun h => State.setPartition_rederive_wallsOk h p x, k.settling, k.levels⟩

theorem settleIfDue (s : State) (p : Nat) : HallKept s (s.settleIfDue p) :=
  have k : Kept s (s.settleIfDue p) := (Kept.refl s).settleIfDue p
  ⟨fun h => by
    unfold State.settleIfDue
    split
    · exact State.settle_wallsOk h p
    · exact h, k.settling, k.levels⟩

/-! ## Hold counts (R6) -/

theorem setSettling (s : State) (p : Nat) (x : Settling) (hx : s.settlingOk → x.hold ≤ Config.settleBlocks) :
    HallKept s (s.setSettling p x) :=
  .of_kept ((Kept.refl s).setSettling p x hx)

/-- A sample counts up to the settling time and no further (R6). -/
theorem sample_hold {x : Settling} (h : x.hold ≤ Config.settleBlocks) (c : Contact) :
    (x.sample c).hold ≤ Config.settleBlocks := by
  unfold Settling.sample
  split
  · split
    · exact Nat.succ_le_of_lt ‹_›
    · exact h
  · exact Nat.succ_le_of_lt (by decide)

theorem sampleInputs (s : State) (sense : BitVec 16) : HallKept s (s.sampleInputs sense) :=
  .fold (fun v p => .setSettling v p _ fun h => sample_hold (h p) _) _ s

/-! ## Levels (R168) -/

/-- A room written with its levels in order. -/
theorem setRoom (s : State) (a : Nat) (x : Room) (hx : s.levelsOk → x.levelsOk) : HallKept s (s.setRoom a (some x)) :=
  ⟨id, id, fun h => ⟨h.1, fun b r hr => by
    rw [State.setRoom_room] at hr
    split at hr
    · exact Option.some.inj hr ▸ hx h
    · exact h.2 b r hr⟩⟩

theorem modRoom (s : State) (a : Nat) (f : Room → Room) (hf : ∀ r, s.levelsOk → r.levelsOk → (f r).levelsOk) :
    HallKept s (s.modRoom a f) := by
  unfold State.modRoom
  split
  · exact .refl s
  · rename_i r hr
    exact .setRoom s a _ fun h => hf r h (h.2 a r hr)

theorem setSegment (s : State) (k : Nat) (x : Segment) (hx : x.levelsOk) : HallKept s (s.setSegment k x) :=
  ⟨id, id, fun h => ⟨fun j => by
    rw [State.setSegment_segment]
    split
    · exact hx
    · exact h.1 j, h.2⟩⟩

end HallKept

/-- The room that a request names has its levels in order. -/
theorem State.levelsOk.roomOf {s : State} (h : s.levelsOk) {k : Nat} {r : Room} (e : s.roomOf k = some r) : r.levelsOk := by
  obtain ⟨a, -, hr⟩ := Option.bind_eq_some_iff.1 e
  exact h.2 a r hr

theorem Room.tick_levelsOk {r : Room} (h : r.levelsOk) : r.tick.levelsOk := by
  unfold Room.tick
  split
  · split
    · exact h
    · split
      · exact h
      · exact h
  · exact h

/-- One step toward the target, which lies between -120 steps and the ceiling (R169). -/
theorem Room.stepRamp_levelsOk {r : Room} (h : r.levelsOk) : r.stepRamp.levelsOk := by
  unfold Room.stepRamp
  split
  · exact h
  · obtain ⟨low, high, clow, chigh, plow, phigh⟩ := h
    have tlow : -120 ≤ r.target := le_min plow clow
    have thigh : r.target ≤ r.ceiling := min_le_right _ _
    refine ⟨?_, ?_, clow, chigh, plow, phigh⟩
    all_goals
      dsimp only
      split
      · omega
      · split <;> omega

theorem Room.cross_levelsOk {r : Room} (h : r.levelsOk) (restart : Bool) : (r.cross restart).levelsOk :=
  Room.stepRamp_levelsOk (Room.tick_levelsOk h)

/-- A change of every listed room, read at one anchor. -/
theorem tget_map_rooms (f : Room → Room) (tb : Table (Option Room)) (a : Nat) :
    tget none (tb.map (fun x => (x.1, x.2.map f))) a = (tget none tb a).map f := by
  induction tb with
  | nil => rfl
  | cons x r ih =>
    simp only [List.map_cons, tget]
    split
    · rfl
    · exact ih

/-- A room built at START or RESTART stands at its target (R13, R180). -/
theorem State.freshRoom_levelsOk {s : State} (h : s.levelsOk) (a : Nat) (ks : List Nat) : (s.freshRoom a ks).levelsOk := by
  obtain ⟨clow, chigh⟩ := s.ceilingOf_range h ks
  obtain ⟨-, -, plow, phigh⟩ := h.1 a
  exact ⟨le_min plow clow, min_le_right _ _, clow, chigh, plow, phigh⟩

namespace HallKept

theorem tickRooms (s : State) : HallKept s s.tickRooms :=
  ⟨id, id, fun h => ⟨h.1, fun a x hx => by
    obtain ⟨r, hr, rfl⟩ := Option.map_eq_some_iff.1 ((tget_map_rooms _ s.hall.rooms a).symm.trans hx)
    exact Room.cross_levelsOk (h.2 a r hr) _⟩⟩

theorem buildRooms (s : State) : HallKept s s.buildRooms :=
  ⟨id, id, fun h => ⟨h.1, fun a x hx => by
    obtain ⟨k, -, e⟩ := List.mem_map.1 (Kept.mem_of_tget (Option.some_ne_none x) hx)
    obtain ⟨-, rfl⟩ := Prod.mk.inj e |>.imp_right Option.some.inj
    exact State.freshRoom_levelsOk h _ _⟩⟩

/-- No room is left. -/
theorem clearRooms (h : t.hall = { s.hall with rooms := [], segmentMap := [] }) : HallKept s t where
  walls k p := by simpa only [State.partition, h] using k p
  settling k p := by simpa only [State.settling, h] using k p
  levels k := ⟨fun j => by simpa only [State.segment, h] using k.1 j, fun a r e => by simp [State.room, h] at e⟩

/-- The part after power-on (R202). -/
theorem of_empty (h : t.hall = State.reset.hall) : HallKept s t :=
  have walls : State.reset.wallsOk := fun _ => show Partition.initial.effective = effectiveOf Partition.initial by decide
  have settling : State.reset.settlingOk := fun _ => Nat.zero_le _
  have levels : State.reset.levelsOk :=
    ⟨fun _ => show Segment.initial.levelsOk by constructor <;> decide, fun _ _ e => nomatch e⟩
  have k := HallKept.of_hall h
  ⟨fun _ => k.walls walls, fun _ => k.settling settling, fun _ => k.levels levels⟩

end HallKept

end Sys2Proof.Machine
end

section
/-! SUPPORT. `HallKept` for what the link controller, the phases and the block clock do, and for the work that a command finds
due. -/

namespace Sys2Proof.Machine

/-- Work on the elements of a list leaves the hall alone where the work on each does. -/
theorem foldl_hall {α : Type} {f : State → α → State} (hf : ∀ v x, (f v x).hall = v.hall) (xs : List α) (s : State) :
    (xs.foldl f s).hall = s.hall := by
  induction xs generalizing s with
  | nil => rfl
  | cons x xs ih => exact (ih (f s x)).trans (hf s x)

namespace State

variable (s : State)

/-! ## The link controller leaves the hall alone -/

@[simp] theorem popInput_hall : s.popInput.hall = s.hall := rfl

@[simp] theorem discard_hall (c : LinkCause) (n : Nat) : (s.discard c n).hall = s.hall := rfl

@[simp] theorem timeout_hall : s.timeout.hall = s.hall := by
  unfold timeout
  split
  · rfl
  · split <;> rfl

@[simp] theorem completeStop_hall : s.completeStop.hall = s.hall := by
  unfold completeStop
  split
  · rfl
  · split <;> rfl

@[simp] theorem answerInputFull_hall (f : Frame) : (s.answerInputFull f).hall = s.hall := by
  unfold answerInputFull; split <;> rfl

@[simp] theorem frameCompletes_hall (f : Frame) : (s.frameCompletes f).hall = s.hall := by
  unfold frameCompletes; split <;> simp

@[simp] theorem frameArrives_hall (f : Frame) : (s.frameArrives f).hall = s.hall := by
  unfold frameArrives; split <;> simp

@[simp] theorem takeInFrame_hall (bs : List Byte) (n : Nat) (c : Byte) (high : Bool) :
    (s.takeInFrame bs n c high).hall = s.hall := by
  unfold takeInFrame; dsimp only
  split
  · rfl
  · split
    · rfl
    · split
      · rfl
      · split <;> simp

@[simp] theorem receive_hall (c : Byte) (high : Bool) : (s.receive c high).hall = s.hall := by
  unfold receive
  split
  · split <;> simp
  · simp

@[simp] theorem sent_hall : s.sent.hall = s.hall := by
  unfold sent; split <;> rfl

@[simp] theorem tickFrame_hall : s.tickFrame.hall = s.hall := by
  unfold tickFrame; split <;> rfl

@[simp] theorem scheduleRestart_hall (tag : Byte) : (s.scheduleRestart tag).hall = s.hall := rfl

@[simp] theorem answerWith_hall (r : State × Answer) (kind tag : Byte) : (answerWith r kind tag).hall = r.1.hall := rfl

/-! ## Phases and boundaries -/

@[simp] theorem offWindow_hall (i : Nat) : (s.offWindow i).hall = s.hall := by
  unfold offWindow; split <;> rfl

@[simp] theorem openWindow_hall (i : Nat) : (s.openWindow i).hall = s.hall := rfl

@[simp] theorem startBus_hall (i : Nat) : (s.startBus i).hall = s.hall := rfl

@[simp] theorem stopBus_hall (i : Nat) : (s.stopBus i).hall = s.hall := rfl

@[simp] theorem restartBus_hall (i : Nat) : (s.restartBus i).hall = s.hall := rfl

@[simp] theorem cancelRestarts_hall : s.cancelRestarts.hall = s.hall := foldl_hall (by intros; rfl) _ _

/-- START leaves of the hall what the rooms' building does (R13, R199). -/
theorem enterRun_hall : s.enterRun.hall = s.buildRooms.hall := foldl_hall startBus_hall [0, 1, 2, 3, 4] _

/-- RESTART as well (R13, R201). -/
theorem takeRestart_hall : s.takeRestart.hall = s.buildRooms.hall := by
  unfold takeRestart; dsimp only
  rw [foldl_hall (f := fun y tag => y.reply { kind := 0x07, tag := tag, answer := .ok .nothing }) (fun _ _ => rfl)]
  dsimp only [setPlan_hall]
  rw [foldl_hall restartBus_hall]
  rfl

/-- STOP leaves no room (R14, R200). -/
theorem enterConfig_hall (tag : Byte) : (s.enterConfig tag).hall = { s.hall with rooms := [], segmentMap := [] } := by
  rw [← s.cancelRestarts_hall]
  exact foldl_hall stopBus_hall [0, 1, 2, 3, 4] _

/-- A boundary in RUN counts the rooms' timers and steps their ramps (R31, R169). -/
theorem tickRun_hall : s.tickRun.hall = s.tickRooms.hall := by
  unfold tickRun
  dsimp only [setPlan_hall]
  rw [foldl_hall openWindow_hall]
  rfl

theorem tickConfig_hall : s.tickConfig.hall = s.hall := foldl_hall offWindow_hall busNumbers s

end State

namespace HallKept

variable {s : State}

theorem restartIfDue (s : State) : HallKept s s.restartIfDue := by
  unfold State.restartIfDue
  split
  · exact .refl s
  · exact (HallKept.buildRooms s).trans (.of_hall s.takeRestart_hall)

/-! ## What is due -/

theorem closeInstant (s : State) : HallKept s s.closeInstant := .of_kept (Kept.closeInstant (.refl s))

theorem timesOf {α : Type} {f : State → State} (hf : ∀ v, HallKept v (f v)) (xs : List α) (s : State) :
    HallKept s (timesOf f xs s) :=
  .fold (fun v _ => hf v) xs s

theorem nextTimer (s : State) : HallKept s s.nextTimer := .of_kept (Kept.nextTimer (.refl s))

theorem nextHoldOff (s : State) : HallKept s s.nextHoldOff := .of_kept (Kept.nextHoldOff (.refl s))

theorem nextClock (s : State) : HallKept s s.nextClock := .of_kept (Kept.nextClock (.refl s))

theorem secondIfDue (s : State) : HallKept s s.secondIfDue := .of_kept (Kept.secondIfDue (.refl s))

theorem catchUp (s : State) : HallKept s s.catchUp := by
  unfold State.catchUp
  extract_lets t1 t2 t3 t4 t5
  have start : HallKept s s.closeInstant.timeout := (HallKept.closeInstant s).trans (.of_hall (State.timeout_hall _))
  have inputs : HallKept s t1 := start.trans (.fold HallKept.settleIfDue inputNumbers _)
  have restarted : HallKept s t2 := inputs.trans (.restartIfDue t1)
  have timers : HallKept s t3 := restarted.trans (.timesOf HallKept.nextTimer _ t2)
  have holdOffs : HallKept s t4 := timers.trans (.timesOf HallKept.nextHoldOff _ t3)
  have clocks : HallKept s t5 := holdOffs.trans (.timesOf HallKept.nextClock _ t4)
  exact (clocks.trans (.secondIfDue t5)).trans (.of_hall (State.completeStop_hall _))

theorem whileUp {work : State → State} (hw : ∀ t, HallKept t (work t)) (s : State) : HallKept s (s.whileUp work) := by
  unfold State.whileUp
  split
  · exact .refl s
  · exact hw s

theorem whenDue {work : State → State} (hw : ∀ t, HallKept t (work t)) (s : State) : HallKept s (s.whenDue work) :=
  .whileUp (fun t => (HallKept.closeInstant t).trans (hw _)) s

theorem upToDate {work : State → State} (hw : ∀ t, HallKept t (work t)) (s : State) : HallKept s (s.upToDate work) :=
  .whileUp (fun t => (HallKept.catchUp t).trans (hw _)) s

/-! ## The block boundary -/

theorem lapse (s : State) (i : Nat) : HallKept s (s.lapse i) := .of_kept (Kept.lapse (.refl s) i)

theorem finishDue (s : State) : HallKept s s.finishDue :=
  ((HallKept.catchUp s).trans (.fold HallKept.lapse busNumbers _)).trans (.of_hall (State.completeStop_hall _))

theorem closeBlock (s : State) (audio : List Upstream) : HallKept s (s.closeBlock audio) := by
  unfold State.closeBlock; dsimp only
  have heard := (Kept.refl s).setMix { s.mix with heard := mixBlock s.mix.plan audio }
  split
  · refine .of_kept (heard.fold _ (fun _ _ h => h.raise _) _).settleCounts ?_
    rw [State.settleCounts_partitions, foldl_hall (by intros; rfl)]
  · exact .of_kept heard rfl

theorem tickRun (s : State) : HallKept s s.tickRun := (HallKept.tickRooms s).trans (.of_hall s.tickRun_hall)

theorem boundary (sense : BitVec 16) (audio : List Upstream) (s : State) : HallKept s (s.boundary sense audio) := by
  have closed : HallKept s ((s.finishDue.closeBlock audio).sampleInputs sense).tickFrame :=
    (((HallKept.finishDue s).trans (.closeBlock _ audio)).trans (.sampleInputs _ sense)).trans (.of_hall (State.tickFrame_hall _))
  unfold State.boundary; dsimp only
  split
  · exact closed.trans (.tickRun _)
  · exact closed.trans (.of_hall (State.tickConfig_hall _))

/-! ## Exchanges -/

theorem beginExchange (i : Nat) (s : State) : HallKept s (s.beginExchange i) := by
  unfold State.beginExchange; dsimp only
  split
  · exact .of_kept ((Kept.lapse (.refl s) i).arbitrate i)
  · split
    · exact (HallKept.lapse s i).trans (.of_hall rfl)
    · exact .lapse s i

theorem hear (i : Nat) (acked : Option AckOf) (presses : Nat) (held : Bool) (cls : UnitClass) (s : State) :
    HallKept s (s.hear i acked presses held cls) := by
  unfold State.hear
  split
  · exact .refl s
  · exact .of_kept (Kept.answered (.refl s) i _ acked presses held cls)

/-! ## Requests -/

theorem takeFrame {work : State → State} (f : Frame) (hw : ∀ t, HallKept t (work t)) (s : State) :
    HallKept s (s.takeFrame f work) := by
  unfold State.takeFrame
  split
  · exact (HallKept.of_hall s.popInput_hall).trans (hw _)
  · split
    · exact .refl s
    · exact .of_hall (s.frameArrives_hall f)

theorem taking {work : State → State} (f : Frame) (hw : ∀ t, HallKept t (work t)) (s : State) : HallKept s (s.taking f work) :=
  .upToDate (.takeFrame f hw) s

/-- A request keeps what its handler keeps. -/
theorem request (kind tag : Byte) (body : List Byte) (allowed : Allowed) {handle : List Byte → State → State × Answer}
    (hh : ∀ b t, HallKept t (handle b t).1) (s : State) : HallKept s (s.request kind tag body allowed handle) :=
  .taking _ (fun t => by
    split
    · exact (hh body t).trans (.of_hall (State.answerWith_hall ..))
    · exact .of_hall (State.reply_hall ..)) s

/-- A request whose reply is formed later keeps what its work keeps. -/
theorem later (kind tag : Byte) (body : List Byte) {work : State → State} (hw : ∀ t, HallKept t (work t)) (s : State) :
    HallKept s (s.later kind tag body work) :=
  .taking _ (fun t => by
    split
    · exact .of_hall (State.reply_hall ..)
    · split
      · exact .of_hall (State.reply_hall ..)
      · exact hw t) s

theorem withBody {α : Type} {fields : Option α} {f : α → State × Answer} (hf : ∀ x, fields = some x → HallKept s (f x).1) :
    HallKept s (withBody s fields f).1 := by
  unfold Machine.withBody
  split
  · exact .refl s
  · exact hf _ rfl

theorem inRoom {k : Nat} {f : Room → State × Answer} (hf : ∀ r, s.roomOf k = some r → HallKept s (f r).1) :
    HallKept s (s.inRoom k f).1 := by
  unfold State.inRoom
  split
  · exact .refl s
  · split
    · exact .refl s
    · split
      · exact .refl s
      · exact hf _ ‹_›

theorem onSeat {n : Nat} {f : Seat → State × Answer} (hf : ∀ x, HallKept s (f x).1) : HallKept s (s.onSeat n f).1 := by
  unfold State.onSeat
  split
  · exact .refl s
  · split
    · exact .refl s
    · exact hf _

theorem onBooth {b : Nat} {f : Booth → State × Answer} (hf : ∀ x, HallKept s (f x).1) : HallKept s (s.onBooth b f).1 := by
  unfold State.onBooth
  split
  · exact .refl s
  · split
    · exact .refl s
    · exact hf _

end HallKept

end Sys2Proof.Machine
end

section
/-! SUPPORT. `HallKept` for every request, in the order of the chapters. -/

namespace Sys2Proof.Machine

/-- A profile read from bytes has its level request in range where the profile it is made of has (R20, R21). -/
theorem profileFrom_level {sel : Nat → Bool} {old p : Profile} {b : List Byte} (h : profileFrom sel old b = some p)
    (low : -120 ≤ old.level) (high : old.level ≤ 0) : -120 ≤ p.level ∧ p.level ≤ 0 := by
  unfold profileFrom at h
  split at h
  · obtain rfl := Option.some.inj h
    dsimp only
    rw [clampInt_eq _ _ _ (by decide)]
    split <;> omega
  · cases h

/-- A segment record read from a body has its levels in range (R2, R21). -/
theorem readSegmentSet_levelsOk {b : List Byte} {x : Nat × Segment × Bool} (h : readSegmentSet b = some x) :
    x.2.1.levelsOk := by
  unfold readSegmentSet at h
  split at h
  · rename_i profile _ _ hp
    obtain rfl := Option.some.inj h
    obtain ⟨plow, phigh⟩ := profileFrom_level hp (by decide) (by decide)
    refine ⟨?_, ?_, plow, phigh⟩
    all_goals
      dsimp only
      rw [clampInt_eq _ _ _ (by decide)]
      omega
  · cases h

/-- A language set is no part that the conditions read. -/
theorem Kept.setLanguages {s t : State} (h : Kept s t) (a : Nat) (codes : List Nat) : Kept s (t.setLanguages a codes) :=
  h.modRoom a _ fun _ => ⟨rfl, rfl, rfl, rfl, rfl, .refl _⟩

@[simp] theorem State.setLanguages_partitions (s : State) (a : Nat) (codes : List Nat) :
    (s.setLanguages a codes).hall.partitions = s.hall.partitions :=
  s.modRoom_partitions a _

namespace HallKept

variable (body : List Byte) (s : State)

/-! ## Segments and partitions (chapter 1) -/

theorem handleSegmentSet : HallKept s (handleSegmentSet body s).1 :=
  withBody fun x hx => by
    split
    · exact .setSegment s x.1 _ (readSegmentSet_levelsOk hx)
    · exact .refl s

theorem handlePartitionSet : HallKept s (handlePartitionSet body s).1 :=
  withBody fun x _ => by
    split
    · exact .setPartition_rederive s x.partition _
    · exact .refl s

theorem declare (p : Nat) (wall : Wall) : HallKept s (s.declare p wall) := by
  unfold State.declare
  split
  · exact .refl s
  · exact .setPartition_rederive s p _

theorem handlePartitionDeclare : HallKept s (handlePartitionDeclare body s).1 :=
  withBody fun x _ => by
    split
    · exact .refl s
    · split
      · exact .refl s
      · exact .declare s x.1 x.2

/-! ## Rooms (chapter 2) -/

theorem setProfile (r : Room) (p : Profile) (hp : s.levelsOk → -120 ≤ p.level ∧ p.level ≤ 0) :
    HallKept s (s.setProfile r p) := by
  have stored : HallKept s (s.modRoom r.anchor fun x => { x with profile := p }) :=
    .modRoom s _ _ fun x h hx => by
      obtain ⟨low, high, clow, chigh, -, -⟩ := hx
      exact ⟨low, high, clow, chigh, hp h⟩
  unfold State.setProfile; dsimp only
  split
  · exact stored.trans (.of_kept (Kept.promote (.refl _) _))
  · exact stored

theorem handleRoomSet : HallKept s (handleRoomSet body s).1 :=
  withBody fun x _ => by
    split
    · exact .refl s
    · refine inRoom fun r hr => ?_
      split
      · exact .refl s
      · split
        · exact .refl s
        · rename_i p hp
          refine .setProfile s r p fun h => ?_
          obtain ⟨-, -, -, -, plow, phigh⟩ := h.roomOf hr
          exact profileFrom_level hp plow phigh

theorem handleLevelSet : HallKept s (handleLevelSet body s).1 :=
  withBody fun x _ => inRoom fun r hr => .setRoom s r.anchor _ fun h => by
    obtain ⟨low, high, clow, chigh, -, -⟩ := h.roomOf hr
    refine ⟨low, high, clow, chigh, ?_, ?_⟩
    all_goals
      dsimp only [Room.withRequest]
      rw [clampInt_eq _ _ _ (by decide)]
      omega

theorem relanguage (r : Room) (codes : List Nat) : HallKept s (s.relanguage r codes) := by
  have stored := (Kept.refl s).setLanguages r.anchor codes
  unfold State.relanguage
  split
  · exact .refl s
  · split
    · exact .of_kept (((((stored.releaseOwners _ _).removeChannels _).makeChannels _).queueMaps _).boothWork _)
        (by simp [State.realign])
    · exact .of_kept stored

theorem handleLanguagesSet : HallKept s (handleLanguagesSet body s).1 :=
  withBody fun x _ => inRoom fun r _ => by
    split
    · exact .refl s
    · split
      · exact .refl s
      · exact .relanguage s r x.2

theorem handleSessionOpen : HallKept s (handleSessionOpen body s).1 :=
  withBody fun _ _ => inRoom fun r _ => by
    split
    · exact .of_kept (Kept.enterSession (.refl s) r.anchor .sessionOpen none)
    · exact .refl s

theorem arm (r : Room) (wake : Wake) (seconds : Option Nat) (hr : s.levelsOk → r.levelsOk) :
    HallKept s (s.arm r wake seconds) := by
  unfold State.arm
  refine note (.setRoom s r.anchor _ ?_) _
  exact hr

theorem disarm (r : Room) (hr : s.levelsOk → r.levelsOk) : HallKept s (s.disarm r) := by
  unfold State.disarm
  refine note (.setRoom s r.anchor _ ?_) _
  exact hr

theorem handleSessionArm : HallKept s (handleSessionArm body s).1 :=
  withBody fun x _ => inRoom fun r hr => by
    split
    · exact .refl s
    · split
      · exact .refl s
      · split
        · exact .refl s
        · exact .arm s r _ _ fun h => h.roomOf hr

theorem handleSessionDisarm : HallKept s (handleSessionDisarm body s).1 :=
  withBody fun _ _ => inRoom fun r hr => by
    split
    · exact .disarm s r fun h => h.roomOf hr
    · exact .refl s

theorem handleSessionEnd : HallKept s (handleSessionEnd body s).1 :=
  withBody fun _ _ => inRoom fun r _ => by
    split
    · exact .of_kept (Kept.endSession (.refl s) r.anchor)
    · exact .refl s

theorem handleRoomQuery : HallKept s (handleRoomQuery body s).1 :=
  withBody fun _ _ => inRoom fun _ _ => .refl s

/-! ## Seats and queues (chapters 5 and 6) -/

theorem handleSeatSet : HallKept s (handleSeatSet body s).1 :=
  withBody fun x _ => by
    split
    · exact .refl s
    · split
      · exact .refl s
      · exact .of_hall (State.setSeat_hall ..)

theorem handleSeatTrim : HallKept s (handleSeatTrim body s).1 :=
  withBody fun _ _ => onSeat fun _ => .of_hall (State.setSeat_hall ..)

theorem handleSeatQuery : HallKept s (handleSeatQuery body s).1 :=
  withBody fun _ _ => by split <;> exact .refl s

theorem handleMicOpen : HallKept s (handleMicOpen body s).1 :=
  withBody fun x _ => onSeat fun _ => by
    split
    · exact .refl s
    · split
      · exact .refl s
      · split
        · exact .refl s
        · exact .of_kept (Kept.enterOpening (.refl s) x.1 .host _)

theorem handleMicClose : HallKept s (handleMicClose body s).1 :=
  withBody fun n _ => onSeat fun _ => by
    have closed : HallKept s ((s.enterClosing n .host).promoteSeat n) :=
      .of_kept ((Kept.enterClosing (.refl s) n .host).promoteSeat n)
    split
    · exact .of_kept (Kept.withdraw (.refl s) n .host)
    · exact closed
    · exact closed
    · exact .refl s

theorem handleRequestAdd : HallKept s (handleRequestAdd body s).1 :=
  withBody fun n _ => onSeat fun _ => by
    split
    · exact .refl s
    · split
      · exact .refl s
      · rename_i r hr
        split
        · exact .refl s
        · split
          · exact .refl s
          · split
            · exact .refl s
            · split
              · exact .refl s
              · rename_i room
                refine .of_kept ((Kept.joinQueue (.refl s) n .host fun q hq => ?_).promote r.anchor)
                obtain rfl := Option.some.inj (hr.symm.trans hq)
                simp only [State.queueFull, Bool.or_eq_true, decide_eq_true_eq, not_or, Nat.not_le] at room
                exact room.1

theorem handleRequestCancel : HallKept s (handleRequestCancel body s).1 :=
  withBody fun n _ => onSeat fun _ => by
    split
    · exact .refl s
    · split
      · exact .of_kept (Kept.withdraw (.refl s) n .host)
      · exact .refl s

theorem handleNext : HallKept s (handleNext body s).1 :=
  withBody fun x _ => inRoom fun r _ => by
    have served : ∀ e, HallKept s (s.serveNext r.anchor e).1 := fun e =>
      .of_kept (Kept.takeCandidate (.refl s) r.anchor e .next) (State.takeCandidate_partitions ..)
    have replaced : ∀ e n, HallKept s (s.replaceNext r.anchor e n).1 := fun e n =>
      .of_kept (((Kept.enterClosing (.refl s) n .replaced).takeCandidate r.anchor e .next).promote r.anchor)
        (by simp [State.replaceNext])
    split
    · exact .refl s
    · split
      · exact .refl s
      · split
        · exact .refl s
        · split
          · exact .refl s
          · split
            · exact .refl s
            · split
              · exact served _
              · split
                · split
                  · exact .refl s
                  · exact replaced _ _
                · exact .refl s

theorem handleQueueClear : HallKept s (handleQueueClear body s).1 :=
  withBody fun _ _ => inRoom fun r _ => .of_kept (Kept.emptyQueue (.refl s) r.anchor .queueClear)

theorem handleQueueQuery : HallKept s (handleQueueQuery body s).1 :=
  withBody fun _ _ => inRoom fun _ _ => by split <;> exact .refl s

theorem dropBlocked (n : Nat) : HallKept s (s.dropBlocked n) := by
  unfold State.dropBlocked
  split
  · exact .of_kept (Kept.drop (.refl s) n .blocked).settleCounts
  · exact .refl s

theorem regroup (t : State) (g : Nat) : HallKept t (s.regroup t g) := by
  have dropped : HallKept t (((t.queuedAmong (newlyBlocked s t)).foldl State.dropBlocked t).reformAll (changedBlocking s t)) :=
    (HallKept.fold dropBlocked _ t).trans (.of_kept (Kept.reformAll (.refl _) _))
  unfold State.regroup; dsimp only
  split
  · exact dropped.trans (.fold (fun v a => .of_kept (Kept.promote (.refl v) a)) _ _)
  · exact dropped

theorem writeGroup (g : Nat) (x : Group) : HallKept s (s.writeGroup g x) := by
  have stored : HallKept s ((s.setGroup g x).noteForce g (s.group g) x) := by
    unfold State.noteForce
    split
    · exact .of_hall (State.setGroup_hall ..)
    · exact .of_hall rfl
  unfold State.writeGroup; dsimp only
  split
  · exact stored.trans (.regroup s _ g)
  · exact stored

theorem handleGroupSet : HallKept s (handleGroupSet body s).1 :=
  withBody fun x _ => by
    split
    · exact .refl s
    · split
      · exact .refl s
      · split
        · exact .refl s
        · exact .writeGroup s x.1 x.2

/-! ## Booths and slots (chapters 7 and 8) -/

theorem handleBoothSet : HallKept s (handleBoothSet body s).1 :=
  withBody fun _ _ => by
    split
    · exact .of_hall (State.setBooth_hall ..)
    · exact .refl s

theorem resource (b : Nat) (source : Source) : HallKept s (s.resource b source) := by
  unfold State.resource; dsimp only
  split
  · exact .of_kept (((Kept.refl s).setBooth b _).relisten b)
  · exact .of_kept (((Kept.refl s).setBooth b _).relistenIn _)

theorem handleBoothSource : HallKept s (handleBoothSource body s).1 :=
  withBody fun x _ => by
    split
    · exact .refl s
    · refine onBooth fun _ => ?_
      split
      · exact .refl s
      · exact .resource s x.1 x.2

theorem handleBoothTrim : HallKept s (handleBoothTrim body s).1 :=
  withBody fun _ _ => onBooth fun _ => .of_hall (State.setBooth_hall ..)

theorem handleBoothOff : HallKept s (handleBoothOff body s).1 :=
  withBody fun _ _ => onBooth fun _ => by
    split
    · exact .refl s
    · exact .of_kept ((Kept.release (.refl s) _ .host none).consoleWork _)

theorem handleBoothQuery : HallKept s (handleBoothQuery body s).1 :=
  withBody fun _ _ => by split <;> exact .refl s

theorem handleSlotQuery : HallKept s (handleSlotQuery body s).1 :=
  withBody fun _ _ => by
    split
    · split <;> exact .refl s
    · split <;> exact .refl s

/-! ## Counters and the link controller (chapters 10 and 11) -/

theorem handleCounterSet : HallKept s (handleCounterSet body s).1 :=
  withBody fun _ _ => by
    split
    · exact .of_hall (State.setCounter_hall ..)
    · exact .refl s

theorem handleCounterRead : HallKept s (handleCounterRead body s).1 :=
  withBody fun _ _ => by
    split
    · exact .refl s
    · split <;> exact .refl s

theorem handleIdentify : HallKept s (handleIdentify body s).1 := withBody fun _ _ => .refl s

theorem handleStart : HallKept s (handleStart body s).1 :=
  withBody fun _ _ => by
    split
    · exact .refl s
    · exact (HallKept.buildRooms s).trans (.of_hall s.enterRun_hall)

end HallKept

end Sys2Proof.Machine
end

section
/-! SUPPORT. Every command keeps the conditions on the hall, and so every step does (O55). -/

namespace Sys2Proof.Machine

namespace HallKept

/-- A command that answers a state answers that state. -/
theorem of_next {s t u : State} (h : (Host.Outcome.next u : Host.Outcome State Fault Refusal) = .next t) (k : HallKept s u) :
    HallKept s t :=
  Host.Outcome.next.inj h ▸ k

/-! ## Pins (R202) -/

theorem powerOn (s : State) (rate1 rate0 : Bool) : HallKept s (s.powerOn rate1 rate0) := by
  unfold State.powerOn; dsimp only
  split
  · exact .of_empty rfl
  · exact .of_empty rfl

theorem resetRelease (s : State) (rate1 rate0 : Bool) :
    HallKept s (if s.resetLow then State.started .pin rate1 rate0 s.pending else s) := by
  split
  · exact .of_empty rfl
  · exact .refl s

/-! ## Commands of the link and of the clock -/

theorem frameArrives (f : Frame) (s : State) : HallKept s (s.frameArrives f) := .of_hall (s.frameArrives_hall f)

theorem unknownKind (f : Frame) (s : State) : HallKept s
    (if kindNamesRequest f.kind then s.frameArrives f else s.reply ⟨f.kind, f.tag, .refuse .badKind⟩) := by
  split
  · exact .frameArrives f s
  · exact .of_hall (State.reply_hall ..)

theorem settlingEvent (input : Nat) (s : State) : HallKept s (if inputOk input then s.settleIfDue input else s) := by
  split
  · exact .settleIfDue s input
  · exact .refl s

/-! ## Every command -/

theorem exec {c : Instr} {s t : State} (h : exec c s = .next t) : HallKept s t := by
  cases c with
  | powerOn rate1 rate0 => exact of_next h (.powerOn s rate1 rate0)
  | resetAssert => exact of_next h (.of_hall rfl)
  | resetRelease rate1 rate0 => exact of_next h (.resetRelease s rate1 rate0)
  | segmentSet tag body => exact of_next h (.request _ tag body _ handleSegmentSet s)
  | partitionSet tag body => exact of_next h (.request _ tag body _ handlePartitionSet s)
  | seatSet tag body => exact of_next h (.request _ tag body _ handleSeatSet s)
  | boothSet tag body => exact of_next h (.request _ tag body _ handleBoothSet s)
  | start tag body => exact of_next h (.request _ tag body _ handleStart s)
  | stop tag body => exact of_next h (.later _ tag body (fun t => .clearRooms (t.enterConfig_hall tag)) s)
  | stopComplete => exact of_next h (.whenDue (fun t => .of_hall t.completeStop_hall) s)
  | restart tag body => exact of_next h (.later _ tag body (fun t => .of_hall (t.scheduleRestart_hall tag)) s)
  | restartTakesEffect => exact of_next h (.whenDue .restartIfDue s)
  | partitionDeclare tag body => exact of_next h (.request _ tag body _ handlePartitionDeclare s)
  | roomSet tag body => exact of_next h (.request _ tag body _ handleRoomSet s)
  | levelSet tag body => exact of_next h (.request _ tag body _ handleLevelSet s)
  | languagesSet tag body => exact of_next h (.request _ tag body _ handleLanguagesSet s)
  | sessionOpen tag body => exact of_next h (.request _ tag body _ handleSessionOpen s)
  | sessionArm tag body => exact of_next h (.request _ tag body _ handleSessionArm s)
  | sessionDisarm tag body => exact of_next h (.request _ tag body _ handleSessionDisarm s)
  | sessionEnd tag body => exact of_next h (.request _ tag body _ handleSessionEnd s)
  | roomQuery tag body => exact of_next h (.request _ tag body _ handleRoomQuery s)
  | micOpen tag body => exact of_next h (.request _ tag body _ handleMicOpen s)
  | micClose tag body => exact of_next h (.request _ tag body _ handleMicClose s)
  | requestAdd tag body => exact of_next h (.request _ tag body _ handleRequestAdd s)
  | requestCancel tag body => exact of_next h (.request _ tag body _ handleRequestCancel s)
  | nextCandidate tag body => exact of_next h (.request _ tag body _ handleNext s)
  | queueClear tag body => exact of_next h (.request _ tag body _ handleQueueClear s)
  | seatTrim tag body => exact of_next h (.request _ tag body _ handleSeatTrim s)
  | seatQuery tag body => exact of_next h (.request _ tag body _ handleSeatQuery s)
  | queueQuery tag body => exact of_next h (.request _ tag body _ handleQueueQuery s)
  | boothSource tag body => exact of_next h (.request _ tag body _ handleBoothSource s)
  | boothTrim tag body => exact of_next h (.request _ tag body _ handleBoothTrim s)
  | boothOff tag body => exact of_next h (.request _ tag body _ handleBoothOff s)
  | boothQuery tag body => exact of_next h (.request _ tag body _ handleBoothQuery s)
  | slotQuery tag body => exact of_next h (.request _ tag body _ handleSlotQuery s)
  | groupSet tag body => exact of_next h (.request _ tag body _ handleGroupSet s)
  | counterSet tag body => exact of_next h (.request _ tag body _ handleCounterSet s)
  | counterRead tag body => exact of_next h (.request _ tag body _ handleCounterRead s)
  | identify tag body => exact of_next h (.request _ tag body _ handleIdentify s)
  | unknownKind kind tag body => exact of_next h (.taking ⟨kind, tag, body⟩ (.unknownKind ⟨kind, tag, body⟩) s)
  | inputFull kind tag body => exact of_next h (.upToDate (.frameArrives ⟨kind, tag, body⟩) s)
  | linkFrameDiscard cause received =>
    exact of_next h (.upToDate (fun t => .of_hall (t.discard_hall (linkCauseOf cause) received)) s)
  | linkFrameTimeout => exact of_next h (.whenDue (fun t => .of_hall t.timeout_hall) s)
  | frameSent => exact of_next h (.upToDate (fun t => .of_hall t.sent_hall) s)
  | settlingEvent input => exact of_next h (.whenDue (.settlingEvent input) s)
  | blockBoundary sense audio => exact of_next h (.whileUp (.boundary sense audio) s)
  | tableSwitch => exact of_next h (.whileUp (fun t => .of_kept (Kept.switchIfDue (.refl t))) s)
  | roomTimerExpiry => exact of_next h (.whenDue .nextTimer s)
  | holdOffEnd => exact of_next h (.whenDue .nextHoldOff s)
  | speakingClockSecond => exact of_next h (.whenDue .nextClock s)
  | rampSettle => exact of_next h (.whileUp (fun t => .of_kept (Kept.nextRamp (.refl t))) s)
  | secondBoundary => exact of_next h (.whenDue .secondIfDue s)
  | busExchange bus => exact of_next h (.upToDate (.beginExchange bus.index) s)
  | unitReplyStatus bus presses held cls => exact of_next h (.upToDate (.hear bus.index none presses.toNat held cls) s)
  | unitReplyAck bus acked presses held cls =>
    exact of_next h (.upToDate (.hear bus.index (some acked) presses.toNat held cls) s)
  | exchangeMissed bus => exact of_next h (.upToDate (fun t => .lapse t bus.index) s)
  | linkCharacterReceived char stopHigh => exact of_next h (.upToDate (fun t => .of_hall (t.receive_hall char stopHigh)) s)
  | requestFrameQueued kind tag body => exact of_next h (.upToDate (.frameArrives ⟨kind, tag, body⟩) s)

/-- A step is the command in front with the queue's rest, or nothing at all. -/
theorem step {s t : State} (h : step s = .next t) : HallKept s t := by
  unfold Machine.step at h
  split at h
  · exact of_next h (.refl s)
  · exact (HallKept.of_hall (State.setPending_hall ..)).trans (.exec h)

end HallKept

end Sys2Proof.Machine

/-- Settles O55: one step keeps all three conditions on the hall, by the command in front of the queue. -/
theorem stepKeepsWallsAndLevels : Obligations.StepKeepsWallsAndLevels := by
  unfold Obligations.StepKeepsWallsAndLevels
  exact ⟨fun _ _ ok h => (Sys2Proof.Machine.HallKept.step h).walls ok,
    fun _ _ ok h => (Sys2Proof.Machine.HallKept.step h).settling ok,
    fun _ _ ok h => (Sys2Proof.Machine.HallKept.step h).levels ok⟩
end

section
/-! SUPPORT. The choice of the next candidate (R117 to R119): the entries of the top rank, the walk over the room's segments, and
the candidate under each service order. -/

namespace Sys2Proof.Machine

/-- The fold of `max` over the values of `f` is their least upper bound above its start. -/
theorem foldl_max_le_iff {α : Type} (f : α → Nat) (xs : List α) (m n : Nat) :
    xs.foldl (fun m x => max m (f x)) m ≤ n ↔ m ≤ n ∧ ∀ x ∈ xs, f x ≤ n := by
  induction xs generalizing m with
  | nil => simp
  | cons x xs ih => simp [ih, and_assoc]

/-- In stamp order the head is the earliest entry. -/
theorem head?_eq_some_iff_earliest {xs : List Entry} (order : xs.Pairwise (fun x y => x.stamp < y.stamp)) (e : Entry) :
    xs.head? = some e ↔ e ∈ xs ∧ ∀ x ∈ xs, e.stamp ≤ x.stamp := by
  cases xs with
  | nil => simp
  | cons y ys =>
    have first : ∀ x ∈ ys, y.stamp < x.stamp := (List.pairwise_cons.1 order).1
    simp only [List.head?_cons, Option.some.injEq, List.mem_cons, forall_eq_or_imp]
    constructor
    · rintro rfl
      exact ⟨.inl rfl, le_rfl, fun x hx => (first x hx).le⟩
    · rintro ⟨rfl | he, hy, -⟩
      · rfl
      · exact absurd hy (first e he).not_ge

/-- In stamp order a search finds the earliest entry of the kind it looks for. -/
theorem find?_eq_some_iff_earliest {xs : List Entry} (order : xs.Pairwise (fun x y => x.stamp < y.stamp)) (p : Entry → Bool)
    (e : Entry) : xs.find? p = some e ↔ (e ∈ xs ∧ p e = true) ∧ ∀ x ∈ xs, p x = true → e.stamp ≤ x.stamp := by
  rw [← List.head?_filter, head?_eq_some_iff_earliest (order.filter p)]
  simp only [List.mem_filter, and_imp]

namespace State

variable {s : State} {r : Room}

/-- The top entries are the eligible entries that no eligible entry outranks (R117). -/
theorem mem_topEntries {e : Entry} : e ∈ s.topEntries r ↔ e ∈ r.queue ∧ s.eligible e = true ∧
    ∀ x ∈ r.queue, s.eligible x = true → s.rank x.seat ≤ s.rank e.seat := by
  have bound := foldl_max_le_iff (fun e : Entry => s.rank e.seat) (r.queue.filter s.eligible) 0
  simp only [topEntries, List.mem_filter, decide_eq_true_eq, and_assoc]
  refine and_congr_right fun he => and_congr_right fun el => ?_
  have below := ((bound _).1 le_rfl).2 e (List.mem_filter.2 ⟨he, el⟩)
  rw [← below.ge_iff_eq, bound]
  simp

/-- The top rank is that of an eligible entry, so there are top entries where there are eligible ones. -/
theorem topEntries_eq_nil : s.topEntries r = [] ↔ ∀ e ∈ r.queue, s.eligible e = false := by
  constructor
  · intro noTop e he
    by_contra el
    have eligible : e ∈ r.queue.filter s.eligible := List.mem_filter.2 ⟨he, by simpa using el⟩
    have highest : (r.queue.filter s.eligible).argmax (fun x => s.rank x.seat) ≠ none := fun h =>
      List.ne_nil_of_mem eligible (List.argmax_eq_none.1 h)
    obtain ⟨m, hm⟩ := Option.ne_none_iff_exists'.1 highest
    obtain ⟨inQueue, elM⟩ := List.mem_filter.1 (List.argmax_mem hm)
    have mTop : m ∈ s.topEntries r := mem_topEntries.2 ⟨inQueue, elM, fun x hx elX =>
      List.le_of_mem_argmax (f := fun x : Entry => s.rank x.seat) (List.mem_filter.2 ⟨hx, elX⟩) hm⟩
    exact List.ne_nil_of_mem mTop noTop
  · refine fun noneEligible => List.eq_nil_iff_forall_not_mem.2 fun e top => ?_
    obtain ⟨he, el, -⟩ := mem_topEntries.1 top
    exact absurd el (by simp [noneEligible e he])

theorem topEntries_inStampOrder (order : r.queue.Pairwise (fun x y => x.stamp < y.stamp)) :
    (s.topEntries r).Pairwise (fun x y => x.stamp < y.stamp) :=
  (order.filter _).filter _

/-- Without a pointer the walk starts at the room's lowest segment (R119 (1)). -/
theorem walk_of_rotation_none (h : r.rotation = none) : r.walk = r.segments := by
  simp [Room.walk, h]

/-- A pointer cuts the cycle after the segments up to it, whether it is one of them or not (R119 (1)). -/
theorem walk_of_rotation_some {p : Nat} (h : r.rotation = some p) :
    r.walk = r.segments.filter (fun k => decide (p < k)) ++ r.segments.filter (fun k => decide (k ≤ p)) := by
  simp [Room.walk, h]

/-- The walk visits the room's segments and no other (R119 (2)). -/
theorem mem_walk {k : Nat} : k ∈ r.walk ↔ k ∈ r.segments := by
  cases h : r.rotation with
  | none => rw [walk_of_rotation_none h]
  | some p =>
    simp only [walk_of_rotation_some h, List.mem_append, List.mem_filter, decide_eq_true_eq, ← and_or_left, and_iff_left (lt_or_ge p k)]

/-- ARRIVAL takes the earliest top entry (R118). -/
theorem candidate_arrival (h : r.profile.service = .arrival) : s.candidate r = (s.topEntries r).head? := by
  simp [candidate, h]

/-- ROTATING takes the earliest top entry of the first segment of the walk that has one (R119 (3)). -/
theorem candidate_rotating (h : r.profile.service = .rotating) :
    s.candidate r = r.walk.findSome? (fun k => (s.topEntries r).find? (fun e => e.segment = k)) := by
  simp [candidate, h]

/-- Under ARRIVAL there is no candidate exactly where no entry is eligible. -/
theorem candidate_arrival_eq_none (h : r.profile.service = .arrival) :
    s.candidate r = none ↔ ∀ e ∈ r.queue, s.eligible e = false := by
  rw [candidate_arrival h, List.head?_eq_none_iff, topEntries_eq_nil]

/-- Under ROTATING too, since the walk comes by the segment of every entry. -/
theorem candidate_rotating_eq_none (h : r.profile.service = .rotating) (segments : ∀ e ∈ r.queue, e.segment ∈ r.segments) :
    s.candidate r = none ↔ ∀ e ∈ r.queue, s.eligible e = false := by
  rw [candidate_rotating h, ← topEntries_eq_nil, List.findSome?_eq_none_iff]
  constructor
  · refine fun noneFound => List.eq_nil_iff_forall_not_mem.2 fun e top => ?_
    have visited := mem_walk.2 (segments e (mem_topEntries.1 top).1)
    simpa using List.find?_eq_none.1 (noneFound _ visited) e top
  · intro noTop k _
    rw [noTop, List.find?_nil]

/-- The candidate under ROTATING is the earliest top entry of its segment, and no segment before that on the walk has one. -/
theorem candidate_rotating_first (h : r.profile.service = .rotating)
    (order : r.queue.Pairwise (fun x y => x.stamp < y.stamp)) {e : Entry} (he : s.candidate r = some e) :
    e ∈ s.topEntries r ∧ (∀ x ∈ s.topEntries r, x.segment = e.segment → e.stamp ≤ x.stamp) ∧
      ∃ before after, r.walk = before ++ e.segment :: after ∧ ∀ k ∈ before, ∀ x ∈ s.topEntries r, x.segment ≠ k := by
  rw [candidate_rotating h] at he
  obtain ⟨before, k, after, walk, found, passed⟩ := List.findSome?_eq_some_iff.1 he
  obtain ⟨⟨top, here⟩, earliest⟩ := (find?_eq_some_iff_earliest (topEntries_inStampOrder order) _ e).1 found
  obtain rfl : e.segment = k := by simpa using here
  exact ⟨top, by simpa using earliest, before, after, walk, fun j hj => by simpa using passed j hj⟩

end State

end Sys2Proof.Machine

open Sys2Proof.Machine Sys2Proof.Machine.State

/-- Settles O23: both service orders choose among the top entries, ARRIVAL by their head and ROTATING by the walk. -/
theorem theCandidateFollowsTheServiceOrder : Obligations.TheCandidateFollowsTheServiceOrder := by
  unfold Obligations.TheCandidateFollowsTheServiceOrder
  intro s r top order isTop
  obtain rfl : top = (· ∈ s.topEntries r) := funext fun e => propext ((isTop e).trans mem_topEntries.symm)
  refine ⟨fun arrival => ⟨candidate_arrival_eq_none arrival, fun e => ?_⟩,
    fun rotating segments => ⟨walk_of_rotation_none, fun _ => walk_of_rotation_some,
      candidate_rotating_eq_none rotating segments, fun e he => candidate_rotating_first rotating order he⟩⟩
  rw [candidate_arrival arrival]
  exact head?_eq_some_iff_earliest (topEntries_inStampOrder order) e
end

section
/-! SUPPORT. `Kept` for every request but SEGMENT_SET, which writes a segment record, and START, which builds the rooms. -/

namespace Sys2Proof.Machine

/-- A room is written over one with the same anchor and segments, of whose queue it holds entries, with its levels in order. -/
theorem Kept.writeRoom {s t : State} (h : Kept s t) (b : Nat) {r x : Room}
    (hr : t.QueuesOk ∨ t.RoomsOk → t.room b = some r) (anchor : x.anchor = r.anchor) (segments : x.segments = r.segments)
    (queue : x.queue.Sublist r.queue) (levels : t.levelsOk → x.levelsOk) : Kept s (t.setRoom b (some x)) := by
  have back : t.room b = some r → ∀ c y, (t.setRoom b (some x)).room c = some y →
      ∃ q, t.room c = some q ∧ y.anchor = q.anchor ∧ y.segments = q.segments ∧ y.queue.Sublist q.queue := by
    intro hb c y hy
    rw [State.setRoom_room] at hy
    split at hy
    · subst_vars
      obtain rfl := Option.some.inj hy
      exact ⟨r, hb, anchor, segments, queue⟩
    · exact ⟨y, hy, rfl, rfl, .refl _⟩
  exact h.trans {
    pending := rfl, resetLow := rfl, segments := rfl, link := ⟨[], rfl⟩
    settling := id
    levels := (HallKept.setRoom t b x levels).levels
    slots := id
    queues := fun k => k.sub (Nat.le_refl _) fun c y hy => by
      obtain ⟨q, hq, same, -, sub⟩ := back (hr (.inl k)) c y hy
      exact ⟨q, hq, same, sub⟩
    owners := fun k => ⟨k.canonical, k.owner, k.one⟩
    channels := fun k => ⟨k.canonical, k.language, k.one, k.apart, k.once, k.full⟩
    rooms := fun k => k.same (fun _ => rfl)
      (fun c y hy => by
        obtain ⟨q, hq, same, segs, -⟩ := back (hr (.inr k)) c y hy
        exact ⟨q, hq, same, segs⟩)
      (fun c hc => by rw [State.setRoom_room]; split <;> [rfl; exact hc]) }

/-- A room of the table that stands under its anchor, as the conditions on the rooms have it. -/
theorem State.room_anchor {s : State} {a : Nat} {r : Room} (hr : s.room a = some r) (h : s.QueuesOk ∨ s.RoomsOk) :
    s.room r.anchor = some r := by
  have ha : r.anchor = a := h.elim (fun k => k.anchor a r hr) (fun k => (k.anchor a r hr).1)
  rw [ha, hr]

/-- The room that contains a segment stands in the room table. -/
theorem State.roomOf_eq_some {s : State} {k : Nat} {r : Room} (h : s.roomOf k = some r) :
    ∃ a, s.anchorOf k = some a ∧ s.room a = some r :=
  Option.bind_eq_some_iff.1 h

namespace Kept

variable (s : State)

/-! ## What a request names -/

section
variable {s : State}

theorem withBody {α : Type} {fields : Option α} {f : α → State × Answer} (hf : ∀ x, fields = some x → Kept s (f x).1) :
    Kept s (withBody s fields f).1 := by
  unfold Machine.withBody
  split
  · exact .refl s
  · exact hf _ rfl

theorem inRoom {k : Nat} {f : Room → State × Answer} (hf : ∀ r a, s.room a = some r → Kept s (f r).1) :
    Kept s (s.inRoom k f).1 := by
  unfold State.inRoom
  split
  · exact .refl s
  · split
    · exact .refl s
    · split
      · exact .refl s
      · obtain ⟨a, -, hr⟩ := State.roomOf_eq_some ‹_›
        exact hf _ a hr

theorem onSeat {n : Nat} {f : Seat → State × Answer} (hf : Kept s (f (s.seat n)).1) : Kept s (s.onSeat n f).1 := by
  unfold State.onSeat
  split
  · exact .refl s
  · split
    · exact .refl s
    · exact hf

theorem onBooth {b : Nat} {f : Booth → State × Answer} (hf : Kept s (f (s.boothAt b)).1) : Kept s (s.onBooth b f).1 := by
  unfold State.onBooth
  split
  · exact .refl s
  · split
    · exact .refl s
    · exact hf

end

/-! ## Partitions (chapter 1) -/

variable (body : List Byte)

theorem handlePartitionSet : Kept s (handlePartitionSet body s).1 :=
  withBody fun x _ => by
    split
    · exact ((Kept.refl s).setPartition x.partition _).rederive x.partition
    · exact .refl s

theorem declare (p : Nat) (wall : Wall) : Kept s (s.declare p wall) := by
  unfold State.declare
  split
  · exact .refl s
  · exact ((Kept.refl s).setPartition p _).rederive p

theorem handlePartitionDeclare : Kept s (handlePartitionDeclare body s).1 :=
  withBody fun x _ => by
    split
    · exact .refl s
    · split
      · exact .refl s
      · exact .declare s x.1 x.2

/-! ## Rooms (chapter 2) -/

/-- A profile whose level request is in range where the room's is. -/
theorem setProfile {a : Nat} {r : Room} (hr : s.room a = some r) (p : Profile)
    (hp : r.levelsOk → -120 ≤ p.level ∧ p.level ≤ 0) : Kept s (s.setProfile r p) := by
  have stored : Kept s (s.modRoom r.anchor fun x => { x with profile := p }) := by
    unfold State.modRoom
    split
    · exact .refl s
    · rename_i x hx
      exact (Kept.refl s).writeRoom r.anchor (fun _ => hx) rfl rfl (.refl _) fun h => by
        obtain ⟨low, high, clow, chigh, -, -⟩ := h.2 _ _ hx
        exact ⟨low, high, clow, chigh, hp (h.2 a r hr)⟩
  unfold State.setProfile; dsimp only
  split
  · exact stored.promote r.anchor
  · exact stored

theorem handleRoomSet : Kept s (handleRoomSet body s).1 :=
  withBody fun x _ => by
    split
    · exact .refl s
    · refine inRoom fun r a hr => ?_
      split
      · exact .refl s
      · split
        · exact .refl s
        · rename_i p hp
          refine .setProfile s hr p fun h => ?_
          obtain ⟨-, -, -, -, plow, phigh⟩ := h
          exact profileFrom_level hp plow phigh

theorem handleLevelSet : Kept s (handleLevelSet body s).1 :=
  withBody fun x _ => inRoom fun r a hr =>
    (Kept.refl s).writeRoom r.anchor (State.room_anchor hr) rfl rfl (.refl _) fun h => by
      obtain ⟨low, high, clow, chigh, -, -⟩ := h.2 a r hr
      refine ⟨low, high, clow, chigh, ?_, ?_⟩
      all_goals
        dsimp only [Room.withRequest]
        rw [clampInt_eq _ _ _ (by decide)]
        omega

theorem relanguage (r : Room) (codes : List Nat) : Kept s (s.relanguage r codes) := by
  have stored := (Kept.refl s).setLanguages r.anchor codes
  unfold State.relanguage
  split
  · exact .refl s
  · split
    · exact ((((stored.releaseOwners _ _).removeChannels _).makeChannels _).queueMaps _).boothWork _
    · exact stored

theorem handleLanguagesSet : Kept s (handleLanguagesSet body s).1 :=
  withBody fun x _ => inRoom fun r _ _ => by
    split
    · exact .refl s
    · split
      · exact .refl s
      · exact .relanguage s r x.2

theorem handleSessionOpen : Kept s (handleSessionOpen body s).1 :=
  withBody fun _ _ => inRoom fun r _ _ => by
    split
    · exact Kept.enterSession (.refl s) r.anchor .sessionOpen none
    · exact .refl s

theorem arm {a : Nat} {r : Room} (hr : s.room a = some r) (wake : Wake) (seconds : Option Nat) : Kept s (s.arm r wake seconds) := by
  unfold State.arm
  refine Kept.note (.writeRoom (.refl s) r.anchor (State.room_anchor hr) ?_ ?_ ?_ ?_) _
  · rfl
  · rfl
  · exact .refl _
  · exact fun h => h.2 a r hr

theorem disarm {a : Nat} {r : Room} (hr : s.room a = some r) : Kept s (s.disarm r) := by
  unfold State.disarm
  refine Kept.note (.writeRoom (.refl s) r.anchor (State.room_anchor hr) ?_ ?_ ?_ ?_) _
  · rfl
  · rfl
  · exact .refl _
  · exact fun h => h.2 a r hr

theorem handleSessionArm : Kept s (handleSessionArm body s).1 :=
  withBody fun x _ => inRoom fun r _ hr => by
    split
    · exact .refl s
    · split
      · exact .refl s
      · split
        · exact .refl s
        · exact .arm s hr _ _

theorem handleSessionDisarm : Kept s (handleSessionDisarm body s).1 :=
  withBody fun _ _ => inRoom fun r _ hr => by
    split
    · exact .disarm s hr
    · exact .refl s

theorem handleSessionEnd : Kept s (handleSessionEnd body s).1 :=
  withBody fun _ _ => inRoom fun r _ _ => by
    split
    · exact Kept.endSession (.refl s) r.anchor
    · exact .refl s

theorem handleRoomQuery : Kept s (handleRoomQuery body s).1 :=
  withBody fun _ _ => inRoom fun _ _ _ => .refl s

/-! ## Seats and queues (chapters 5 and 6) -/

theorem handleSeatSet : Kept s (handleSeatSet body s).1 :=
  withBody fun x _ => by
    split
    · exact .refl s
    · split
      · exact .refl s
      · exact (Kept.refl s).keepSeat x.seat _ rfl

theorem handleSeatTrim : Kept s (handleSeatTrim body s).1 :=
  withBody fun x _ => onSeat ((Kept.refl s).keepSeat x.1 _ rfl)

theorem handleSeatQuery : Kept s (handleSeatQuery body s).1 :=
  withBody fun _ _ => by split <;> exact .refl s

theorem handleMicOpen : Kept s (handleMicOpen body s).1 :=
  withBody fun x _ => onSeat <| by
    split
    · exact .refl s
    · split
      · exact .refl s
      · split
        · exact .refl s
        · exact Kept.enterOpening (.refl s) x.1 .host _

theorem handleMicClose : Kept s (handleMicClose body s).1 :=
  withBody fun n _ => onSeat <| by
    have closed : Kept s ((s.enterClosing n .host).promoteSeat n) := (Kept.enterClosing (.refl s) n .host).promoteSeat n
    split
    · exact Kept.withdraw (.refl s) n .host
    · exact closed
    · exact closed
    · exact .refl s

/-- A queue that is not full has a free place. -/
theorem room_of_not_queueFull {s : State} {r : Room} (h : ¬ s.queueFull r = true) : r.queue.length < Config.queueLimit := by
  simp only [State.queueFull, Bool.or_eq_true, decide_eq_true_eq, not_or, Nat.not_le] at h
  exact h.1

theorem handleRequestAdd : Kept s (handleRequestAdd body s).1 :=
  withBody fun n _ => onSeat <| by
    split
    · exact .refl s
    · split
      · exact .refl s
      · rename_i r hr
        split
        · exact .refl s
        · split
          · exact .refl s
          · split
            · exact .refl s
            · split
              · exact .refl s
              · rename_i room
                refine (Kept.joinQueue (.refl s) n .host fun q hq => ?_).promote r.anchor
                obtain rfl := Option.some.inj (hr.symm.trans hq)
                exact room_of_not_queueFull room

theorem handleRequestCancel : Kept s (handleRequestCancel body s).1 :=
  withBody fun n _ => onSeat <| by
    split
    · exact .refl s
    · split
      · exact Kept.withdraw (.refl s) n .host
      · exact .refl s

theorem handleNext : Kept s (handleNext body s).1 :=
  withBody fun x _ => inRoom fun r _ _ => by
    split
    · exact .refl s
    · split
      · exact .refl s
      · split
        · exact .refl s
        · split
          · exact .refl s
          · split
            · exact .refl s
            · split
              · exact Kept.takeCandidate (.refl s) r.anchor _ .next
              · split
                · split
                  · exact .refl s
                  · exact ((Kept.enterClosing (.refl s) _ .replaced).takeCandidate r.anchor _ .next).promote r.anchor
                · exact .refl s

theorem handleQueueClear : Kept s (handleQueueClear body s).1 :=
  withBody fun _ _ => inRoom fun r _ _ => Kept.emptyQueue (.refl s) r.anchor .queueClear

theorem handleQueueQuery : Kept s (handleQueueQuery body s).1 :=
  withBody fun _ _ => inRoom fun _ _ _ => by split <;> exact .refl s

theorem dropBlocked {s t : State} (h : Kept s t) (n : Nat) : Kept s (t.dropBlocked n) := by
  unfold State.dropBlocked
  split
  · exact (h.drop n .blocked).settleCounts
  · exact h

theorem regroup {s t : State} (h : Kept s t) (old : State) (g : Nat) : Kept s (old.regroup t g) := by
  have dropped : Kept s
      (((t.queuedAmong (newlyBlocked old t)).foldl State.dropBlocked t).reformAll (changedBlocking old t)) :=
    (h.fold _ (fun _ n hv => hv.dropBlocked n) _).reformAll _
  unfold State.regroup; dsimp only
  split
  · exact dropped.fold _ (fun _ a hv => hv.promote a) _
  · exact dropped

theorem noteForce {s t : State} (h : Kept s t) (g : Nat) (old new : Group) : Kept s (t.noteForce g old new) := by
  unfold State.noteForce
  split
  · exact h
  · exact h.noteGroup g _ _

theorem writeGroup (g : Nat) (x : Group) : Kept s (s.writeGroup g x) := by
  have stored : Kept s ((s.setGroup g x).noteForce g (s.group g) x) := ((Kept.refl s).setGroup g x).noteForce g _ x
  unfold State.writeGroup; dsimp only
  split
  · exact stored.regroup s g
  · exact stored

theorem handleGroupSet : Kept s (handleGroupSet body s).1 :=
  withBody fun x _ => by
    split
    · exact .refl s
    · split
      · exact .refl s
      · split
        · exact .refl s
        · exact .writeGroup s x.1 x.2

/-! ## Booths and slots (chapters 7 and 8) -/

theorem handleBoothSet : Kept s (handleBoothSet body s).1 :=
  withBody fun x _ => by
    split
    · exact (Kept.refl s).setBooth x.booth _
    · exact .refl s

theorem resource (b : Nat) (source : Source) : Kept s (s.resource b source) := by
  unfold State.resource; dsimp only
  split
  · exact ((Kept.refl s).setBooth b _).relisten b
  · exact ((Kept.refl s).setBooth b _).relistenIn _

theorem handleBoothSource : Kept s (handleBoothSource body s).1 :=
  withBody fun x _ => by
    split
    · exact .refl s
    · refine onBooth ?_
      split
      · exact .refl s
      · exact .resource s x.1 x.2

theorem handleBoothTrim : Kept s (handleBoothTrim body s).1 :=
  withBody fun x _ => onBooth ((Kept.refl s).setBooth x.1 _)

theorem handleBoothOff : Kept s (handleBoothOff body s).1 :=
  withBody fun _ _ => onBooth <| by
    split
    · exact .refl s
    · exact (Kept.release (.refl s) _ .host none).consoleWork _

theorem handleBoothQuery : Kept s (handleBoothQuery body s).1 :=
  withBody fun _ _ => by split <;> exact .refl s

theorem handleSlotQuery : Kept s (handleSlotQuery body s).1 :=
  withBody fun _ _ => by
    split
    · split <;> exact .refl s
    · split <;> exact .refl s

/-! ## Counters and the link controller (chapters 10 and 11) -/

theorem handleCounterSet : Kept s (handleCounterSet body s).1 :=
  withBody fun x _ => by
    split
    · exact (Kept.refl s).setCounter x.1 _
    · exact .refl s

theorem handleCounterRead : Kept s (handleCounterRead body s).1 :=
  withBody fun _ _ => by
    split
    · exact .refl s
    · split <;> exact .refl s

theorem handleIdentify : Kept s (handleIdentify body s).1 := withBody fun _ _ => .refl s

end Kept

end Sys2Proof.Machine
end

section
/-! SUPPORT. The groups of joined segments (R11): growing a group twelve times among at most twelve segments closes it, so that a
group holds what a chain of joined segments reaches. -/

namespace Sys2Proof.Machine

namespace State

variable {s : State} {among : List Nat} {j k : Nat}

/-- One step of a chain of joined segments, which stays among these. -/
def Linked (s : State) (among : List Nat) (x y : Nat) : Prop := y ∈ among ∧ s.joined x y = true

theorem joined_comm (s : State) (j k : Nat) : s.joined j k = s.joined k j := by
  unfold joined
  congr 1
  funext x
  rw [Bool.or_comm (decide _ && decide _)]

theorem mem_grow {g : List Nat} : k ∈ s.grow among g ↔ k ∈ among ∧ (k ∈ g ∨ ∃ j ∈ g, s.joined j k = true) := by
  simp [grow]

/-- The group after so many steps. -/
def grown (s : State) (among : List Nat) (k n : Nat) : List Nat :=
  (s.grow among)^[n] (among.filter (· = k))

theorem groupOf_eq_grown (s : State) (among : List Nat) (k : Nat) : s.groupOf among k = s.grown among k 12 := by
  unfold groupOf grown
  rw [List.foldl_const, List.length_range]

theorem grown_succ (s : State) (among : List Nat) (k n : Nat) : s.grown among k (n + 1) = s.grow among (s.grown among k n) :=
  Function.iterate_succ_apply' ..

theorem mem_grown_succ {n x : Nat} : x ∈ s.grown among k (n + 1) ↔
    x ∈ among ∧ (x ∈ s.grown among k n ∨ ∃ j ∈ s.grown among k n, s.joined j x = true) := by
  rw [grown_succ, mem_grow]

theorem grown_subset (s : State) (among : List Nat) (k n : Nat) : s.grown among k n ⊆ among := by
  cases n with
  | zero => exact List.filter_subset_self _
  | succ n => exact fun x hx => (mem_grown_succ.1 hx).1

theorem grown_subset_succ (s : State) (among : List Nat) (k n : Nat) : s.grown among k n ⊆ s.grown among k (n + 1) :=
  fun _ hx => mem_grown_succ.2 ⟨grown_subset s among k n hx, .inl hx⟩

/-- A group with every segment that is joined to one of it. -/
def Closed (s : State) (among g : List Nat) : Prop := ∀ x ∈ g, ∀ y, s.Linked among x y → y ∈ g

/-- A group that is not closed gains a segment at each step. -/
theorem grown_closed_or_large (hk : k ∈ among) (n : Nat) :
    n < (s.grown among k n).toFinset.card ∨ s.Closed among (s.grown among k n) := by
  induction n with
  | zero => exact .inl (Finset.card_pos.2 ⟨k, by simp [grown, hk]⟩)
  | succ n ih =>
    by_cases closed : s.Closed among (s.grown among k n)
    · refine .inr fun x hx y linked => grown_subset_succ s among k n (closed x ?_ y linked)
      obtain ⟨here, old | ⟨j, hj, join⟩⟩ := mem_grown_succ.1 hx
      · exact old
      · exact closed j hj x ⟨here, join⟩
    · have large := ih.resolve_right closed
      simp only [Closed, not_forall] at closed
      obtain ⟨x, hx, y, ⟨here, join⟩, out⟩ := closed
      have more : (s.grown among k n).toFinset ⊂ (s.grown among k (n + 1)).toFinset := by
        rw [Finset.ssubset_iff_of_subset fun z => by simpa using fun hz => grown_subset_succ s among k n hz]
        exact ⟨y, by simpa using mem_grown_succ.2 ⟨here, .inr ⟨x, hx, join⟩⟩, by simpa using out⟩
      exact .inl ((Nat.succ_le_of_lt large).trans_lt (Finset.card_lt_card more))

/-- Twelve steps close a group among at most twelve segments. -/
theorem groupOf_closed (hk : k ∈ among) (few : among.length ≤ 12) : s.Closed among (s.groupOf among k) := by
  rw [groupOf_eq_grown]
  refine (grown_closed_or_large hk 12).resolve_left (Nat.not_lt.2 ?_)
  calc (s.grown among k 12).toFinset.card
      ≤ among.toFinset.card := Finset.card_le_card fun z => by simpa using fun hz => grown_subset s among k 12 hz
    _ ≤ among.length := among.toFinset_card_le
    _ ≤ 12 := few

/-- What is grown is reached by a chain. -/
theorem reached_of_mem_grown {n x : Nat} (h : x ∈ s.grown among k n) : Relation.ReflTransGen (s.Linked among) k x := by
  induction n generalizing x with
  | zero =>
    obtain rfl : x = k := by simpa using (List.mem_filter.1 h).2
    exact .refl
  | succ n ih =>
    obtain ⟨here, old | ⟨j, hj, join⟩⟩ := mem_grown_succ.1 h
    · exact ih old
    · exact (ih hj).tail ⟨here, join⟩

/-- The group of a segment among at most twelve holds what a chain of joined segments reaches from it. -/
theorem mem_groupOf (hj : j ∈ among) (few : among.length ≤ 12) :
    k ∈ s.groupOf among j ↔ Relation.ReflTransGen (s.Linked among) j k := by
  constructor
  · rw [groupOf_eq_grown]
    exact reached_of_mem_grown
  · intro chain
    induction chain with
    | refl => exact (Kept.groupOf_sub s among j).2 hj
    | tail _ step ih => exact groupOf_closed hj few _ ih _ step

theorem Linked.symm {x y : Nat} (h : s.Linked among x y) (hx : x ∈ among) : s.Linked among y x :=
  ⟨hx, by rw [joined_comm]; exact h.2⟩

/-- A chain leads back as well. -/
theorem reached_symm {x y : Nat} (hx : x ∈ among) (h : Relation.ReflTransGen (s.Linked among) x y) :
    y ∈ among ∧ Relation.ReflTransGen (s.Linked among) y x := by
  induction h with
  | refl => exact ⟨hx, .refl⟩
  | tail _ step ih => exact ⟨step.1, .head (step.symm ih.1) ih.2⟩

/-- Segments of one group have one group. -/
theorem groupOf_eq_of_mem (hj : j ∈ among) (few : among.length ≤ 12) (h : k ∈ s.groupOf among j) :
    s.groupOf among k = s.groupOf among j := by
  have chain := (mem_groupOf hj few).1 h
  obtain ⟨hk, back⟩ := reached_symm hj chain
  have same : ∀ x, x ∈ s.groupOf among k ↔ x ∈ s.groupOf among j := fun x => by
    rw [mem_groupOf hk few, mem_groupOf hj few]
    exact ⟨chain.trans, back.trans⟩
  have filtered : ∀ i, s.groupOf among i = among.filter (· ∈ s.groupOf among i) := fun i => by
    rw [groupOf_eq_grown, grown_succ]
    unfold grow
    refine List.filter_congr fun x hx => ?_
    rw [Bool.eq_iff_iff]
    simp [hx]
  rw [filtered k, filtered j]
  exact List.filter_congr fun x _ => by simp only [same x]

theorem installedSegments_length_le (s : State) : s.installedSegments.length ≤ 12 := List.length_filter_le ..

end State
end Sys2Proof.Machine

open Sys2Proof.Machine Sys2Proof.Machine.State

/-- Settles O9: twelve steps close the group of a segment, so that it is what chains reach. -/
theorem roomsAreTheConnectedGroups : Obligations.RoomsAreTheConnectedGroups := by
  unfold Obligations.RoomsAreTheConnectedGroups
  exact fun s j k hj => mem_groupOf hj s.installedSegments_length_le
end

section
/-! SUPPORT. Tables that are written anew, record by record, and the link controller's queues after notices and replies. -/

namespace Sys2Proof.Machine

/-! ## Tables written anew -/

section
variable {α : Type}

/-- A number below every listed one has the default. -/
theorem tget_of_lt (d : α) {t : Table α} {k : Nat} (h : ∀ x ∈ t, k < x.1) : tget d t k = d := by
  induction t with
  | nil => rfl
  | cons x r ih =>
    have hx : x.1 ≠ k := (h x (by simp)).ne'
    rw [tget, if_neg hx]
    exact ih fun y hy => h y (by simp [hy])

/-- What a canonical table says of its first record and of the rest. -/
theorem twf_cons [DecidableEq α] {d w : α} {j : Nat} {r : Table α} :
    twf d ((j, w) :: r) = true ↔ w ≠ d ∧ (∀ x ∈ r, j < x.1) ∧ twf d r = true := by
  simp only [twf, Bool.and_eq_true, decide_eq_true_eq, List.all_eq_true, and_assoc]

/-- Every listed record of a canonical table is written anew, over the table `u`. -/
theorem tget_foldl_tset [DecidableEq α] (d : α) (f : Nat → α → α) {t : Table α} (h : twf d t = true) (u : Table α) (k : Nat) :
    tget d (t.foldl (fun u x => tset d u x.1 (f x.1 x.2)) u) k =
      if tget d t k = d then tget d u k else f k (tget d t k) := by
  induction t generalizing u with
  | nil => simp
  | cons x r ih =>
    obtain ⟨j, w⟩ := x
    obtain ⟨hw, above, hr⟩ := twf_cons.1 h
    rw [List.foldl_cons, ih hr, tget]
    by_cases hk : j = k
    · subst hk
      simp [tget_of_lt d above, hw]
    · simp [hk, tget_tset_other d u _ (Ne.symm hk)]

/-- A canonical table written anew by a function that keeps the default. -/
theorem tget_rewritten [DecidableEq α] {d : α} {f : Nat → α → α} (hf : ∀ k, f k d = d) {t : Table α} (h : twf d t = true)
    (k : Nat) : tget d (t.foldl (fun u x => tset d u x.1 (f x.1 x.2)) []) k = f k (tget d t k) := by
  rw [tget_foldl_tset d f h]
  split
  · rw [tget_nil, ‹tget d t k = d›, hf]
  · rfl

theorem twf_foldl_tset [DecidableEq α] {β : Type} (d : α) (g : β → Nat) (f : β → α) (xs : List β) {u : Table α}
    (h : twf d u = true) : twf d (xs.foldl (fun u x => tset d u (g x) (f x)) u) = true := by
  induction xs generalizing u with
  | nil => exact h
  | cons x xs ih => exact ih (twf_tset d u _ _ h)

/-- What the default and every record written have, every record has. -/
theorem tget_foldl_tset_all [DecidableEq α] {β : Type} {d : α} {g : β → Nat} {f : β → α} {P : α → Prop} (hf : ∀ x, P (f x))
    (xs : List β) {u : Table α} (h : ∀ k, P (tget d u k)) (k : Nat) :
    P (tget d (xs.foldl (fun u x => tset d u (g x) (f x)) u) k) := by
  induction xs generalizing u with
  | nil => exact h k
  | cons x xs ih =>
    refine ih fun m => ?_
    rw [tget_tset]
    split
    · exact hf x
    · exact h m

end

/-! ## The queues of the link controller -/

namespace LinkUnit

/-- From `l` to `m` no request frame joins, at most `n` more places of the reply list are taken, and the notice queue does not
grow beyond its limit. -/
structure Grows (n : Nat) (l m : LinkUnit) : Prop where
  input : m.input.length ≤ l.input.length
  places : m.placesTaken ≤ l.placesTaken + n
  notices : m.notices.length ≤ max l.notices.length Config.noticeLimit

namespace Grows

variable {l m o : LinkUnit} {n k : Nat}

protected theorem refl (l : LinkUnit) : Grows 0 l l := ⟨le_rfl, le_rfl, le_max_left ..⟩

theorem trans (h : Grows n l m) (g : Grows k m o) : Grows (n + k) l o :=
  ⟨g.input.trans h.input, by have := h.places; have := g.places; omega, by have := h.notices; have := g.notices; omega⟩

theorem bounded (h : Grows n l m) (hl : l.bounded) (hn : l.placesTaken + n ≤ Config.replyLimit) : m.bounded := by
  obtain ⟨input, -, notices⟩ := hl
  exact ⟨h.input.trans input, h.places.trans hn, h.notices.trans (max_le notices le_rfl)⟩

/-- A frame that begins to be sent frees its place. -/
theorem startNext (l : LinkUnit) : Grows 0 l l.startNext := by
  unfold LinkUnit.startNext
  split
  · rename_i r rs hr
    exact ⟨le_rfl, by simp only [placesTaken, hr, List.length_cons]; omega, le_max_left ..⟩
  · split
    · rename_i n ns hn
      exact ⟨le_rfl, le_rfl, by simp only [hn, List.length_cons]; omega⟩
    · exact ⟨le_rfl, le_rfl, le_max_left ..⟩

theorem kick (l : LinkUnit) : Grows 0 l l.kick := by
  unfold LinkUnit.kick
  split
  · exact .refl l
  · exact .startNext l

theorem raise (l : LinkUnit) (x : Notice) : Grows 0 l (l.raise x) := by
  unfold LinkUnit.raise
  split
  · have joined : Grows 0 l { l with notices := l.notices ++ [x] } :=
      ⟨le_rfl, le_rfl, by simp only [List.length_append, List.length_singleton]; omega⟩
    exact joined.trans (.kick _)
  · exact ⟨le_rfl, le_rfl, le_max_left ..⟩

theorem raiseAll (l : LinkUnit) (ns : List Notice) : Grows 0 l (ns.foldl LinkUnit.raise l) := by
  induction ns generalizing l with
  | nil => exact .refl l
  | cons x ns ih => exact (Grows.raise l x).trans (ih (l.raise x))

theorem answer (l : LinkUnit) (r : Reply) : Grows 1 l (l.answer r) := by
  have formed : Grows 1 l { l with replies := l.replies ++ [r] } :=
    ⟨le_rfl, by simp only [placesTaken, List.length_append, List.length_singleton]; omega, le_max_left ..⟩
  exact formed.trans (.kick _)

theorem answerAll (l : LinkUnit) (rs : List Reply) : Grows rs.length l (rs.foldl LinkUnit.answer l) := by
  induction rs generalizing l with
  | nil => exact .refl l
  | cons r rs ih =>
    rw [List.length_cons, Nat.add_comm]
    exact (Grows.answer l r).trans (ih (l.answer r))

end Grows

variable (l : LinkUnit)

@[simp] theorem startNext_phase : l.startNext.phase = l.phase := by
  unfold startNext
  split
  · rfl
  · split <;> rfl

@[simp] theorem kick_phase : l.kick.phase = l.phase := by
  unfold kick
  split
  · rfl
  · exact l.startNext_phase

@[simp] theorem raise_phase (n : Notice) : (l.raise n).phase = l.phase := by
  unfold raise
  split
  · exact kick_phase _
  · rfl

@[simp] theorem answer_phase (r : Reply) : (l.answer r).phase = l.phase := kick_phase _

@[simp] theorem raiseAll_phase (ns : List Notice) : (ns.foldl raise l).phase = l.phase := by
  induction ns generalizing l with
  | nil => rfl
  | cons n ns ih => exact (ih _).trans (l.raise_phase n)

@[simp] theorem answerAll_phase (rs : List Reply) : (rs.foldl answer l).phase = l.phase := by
  induction rs generalizing l with
  | nil => rfl
  | cons r rs ih => exact (ih _).trans (l.answer_phase r)

end LinkUnit

/-- Replies formed one after another change the link controller only. -/
theorem State.foldl_reply (s : State) (rs : List Reply) :
    rs.foldl State.reply s = { s with link := rs.foldl LinkUnit.answer s.link } := by
  induction rs generalizing s with
  | nil => rfl
  | cons r rs ih => exact ih (s.reply r)

end Sys2Proof.Machine
end

section
/-! SUPPORT. The rooms that START and RESTART build agree with the segment map (R11, R13). -/

namespace Sys2Proof.Machine

/-- A table of computed records, read at one number. -/
theorem tget_map_keys {α : Type} (d : α) (f : Nat → α) (ks : List Nat) (k : Nat) :
    tget d (ks.map (fun j => (j, f j))) k = if k ∈ ks then f k else d := by
  induction ks with
  | nil => rfl
  | cons j js ih =>
    rw [List.map_cons, tget, ih]
    by_cases h : j = k
    · simp [h]
    · simp [h, Ne.symm h]

namespace State

variable {s : State} {a k : Nat}

theorem installedSegments_rising (s : State) : s.installedSegments.Pairwise (· < ·) :=
  (show segmentNumbers.Pairwise (· < ·) by decide).filter _

theorem mem_installedSegments : k ∈ s.installedSegments ↔ (1 ≤ k ∧ k ≤ 12) ∧ (s.segment k).installed = true := by
  have numbers : k ∈ segmentNumbers ↔ 1 ≤ k ∧ k ≤ 12 := by
    constructor
    · revert k; decide
    · rintro ⟨low, high⟩
      interval_cases k <;> decide
  rw [installedSegments, List.mem_filter, numbers]

theorem groupOf_installed_sublist (s : State) (k : Nat) : (s.groupOf s.installedSegments k).Sublist s.installedSegments :=
  (Kept.groupOf_sub s _ k).1

/-- The lowest of a group is its first, and one of it. -/
theorem head_groupOf (hk : k ∈ s.installedSegments) :
    (s.groupOf s.installedSegments k).head? = some (s.builtAnchor k) ∧ s.builtAnchor k ∈ s.groupOf s.installedSegments k := by
  have self := (Kept.groupOf_sub s s.installedSegments k).2 hk
  unfold builtAnchor lowest
  cases h : s.groupOf s.installedSegments k with
  | nil => simp [h] at self
  | cons x xs => simp

/-- Segments of one group have one anchor. -/
theorem builtAnchor_eq_of_mem {j : Nat} (hj : j ∈ s.installedSegments) (h : k ∈ s.groupOf s.installedSegments j) :
    s.builtAnchor k = s.builtAnchor j := by
  unfold builtAnchor
  rw [groupOf_eq_of_mem hj s.installedSegments_length_le h]

/-- The anchor of a built group is its own anchor. -/
theorem builtAnchor_builtAnchor (hk : k ∈ s.installedSegments) :
    s.builtAnchor k ∈ s.installedSegments ∧ s.builtAnchor (s.builtAnchor k) = s.builtAnchor k :=
  ⟨(groupOf_installed_sublist s k).subset (head_groupOf hk).2, builtAnchor_eq_of_mem hk (head_groupOf hk).2⟩

theorem buildRooms_anchorOf (s : State) (k : Nat) :
    s.buildRooms.anchorOf k = if k ∈ s.installedSegments then some (s.builtAnchor k) else none :=
  tget_map_keys none (fun j => some (s.builtAnchor j)) s.installedSegments k

theorem buildRooms_room (s : State) (a : Nat) : s.buildRooms.room a =
    if a ∈ s.installedSegments ∧ s.builtAnchor a = a then some (s.freshRoom a (s.groupOf s.installedSegments a)) else none := by
  have built := tget_map_keys none (fun j => some (s.freshRoom j (s.groupOf s.installedSegments j)))
    (s.installedSegments.filter (fun k => s.builtAnchor k = k)) a
  simp only [List.mem_filter, decide_eq_true_eq] at built
  exact built

theorem buildRooms_room_eq_some {r : Room} (h : s.buildRooms.room a = some r) :
    a ∈ s.installedSegments ∧ s.builtAnchor a = a ∧ r = s.freshRoom a (s.groupOf s.installedSegments a) := by
  rw [buildRooms_room] at h
  split at h
  · rename_i here
    exact ⟨here.1, here.2, (Option.some.inj h).symm⟩
  · cases h

theorem buildRooms_roomsOk (s : State) : s.buildRooms.RoomsOk where
  anchor a r hr := by
    obtain ⟨here, own, rfl⟩ := buildRooms_room_eq_some hr
    exact ⟨rfl, by rw [← own]; exact own.symm ▸ (head_groupOf here).1⟩
  rising a r hr := by
    obtain ⟨-, -, rfl⟩ := buildRooms_room_eq_some hr
    exact s.installedSegments_rising.sublist (groupOf_installed_sublist s a)
  numbers a r hr k hk := by
    obtain ⟨-, -, rfl⟩ := buildRooms_room_eq_some hr
    exact (mem_installedSegments.1 ((groupOf_installed_sublist s a).subset hk)).1
  map a r hr k := by
    obtain ⟨here, own, rfl⟩ := buildRooms_room_eq_some hr
    rw [buildRooms_anchorOf]
    constructor
    · intro hk
      have inst := (groupOf_installed_sublist s a).subset hk
      rw [if_pos inst, builtAnchor_eq_of_mem here hk, own]
    · intro hk
      split at hk
      · rename_i inst
        obtain rfl := Option.some.inj hk
        have anchorIn := (head_groupOf inst).2
        show k ∈ s.groupOf s.installedSegments (s.builtAnchor k)
        rw [groupOf_eq_of_mem inst s.installedSegments_length_le anchorIn]
        exact (Kept.groupOf_sub s _ k).2 inst
      · cases hk
  rooms k a ha := by
    rw [buildRooms_anchorOf] at ha
    split at ha
    · rename_i inst
      obtain rfl := Option.some.inj ha
      rw [buildRooms_room, if_pos (builtAnchor_builtAnchor inst)]
      rfl
    · cases ha

theorem buildRooms_queue {r : Room} (h : s.buildRooms.room a = some r) : r.anchor = a ∧ r.queue = [] := by
  obtain ⟨-, -, rfl⟩ := buildRooms_room_eq_some h
  exact ⟨rfl, rfl⟩

end State

end Sys2Proof.Machine
end

section
/-! SUPPORT. `Guarded s t`: going from `s` to `t` keeps the conditions on the seats, the rooms, the consoles and the channels. The
work of the blocks is `Kept`; what the link controller, the phases and the block clock do besides is taken one by one. -/

namespace Sys2Proof.Machine

/-- What a condition on the rooms reads is the same where both tables of the room unit are. -/
theorem State.RoomsOk.of_hall {s t : State} (h : s.RoomsOk) (rooms : t.hall.rooms = s.hall.rooms)
    (map : t.hall.segmentMap = s.hall.segmentMap) : t.RoomsOk :=
  h.same (fun k => by simp only [State.anchorOf, map]) (fun a x e => ⟨x, by simpa only [State.room, rooms] using e, rfl, rfl⟩)
    (fun a e => by simpa only [State.room, rooms] using e)

theorem State.QueuesOk.of_hall {s t : State} (h : s.QueuesOk) (rooms : t.hall.rooms = s.hall.rooms)
    (count : t.floor.stampCount = s.floor.stampCount) : t.QueuesOk :=
  h.sub count.ge fun a x e => ⟨x, by simpa only [State.room, rooms] using e, rfl, .refl _⟩

/-- Without an entry the queues are in order. -/
theorem State.QueuesOk.of_empty {s : State} (h : ∀ a r, s.room a = some r → r.anchor = a ∧ r.queue = []) : s.QueuesOk where
  anchor a r hr := (h a r hr).1
  bound a r hr := by simp [(h a r hr).2]
  rising a r hr := by simp [(h a r hr).2]
  given a r hr e he := by simp [(h a r hr).2] at he
  apart a b r q _ hr _ e he := by simp [(h a r hr).2] at he

/-- Without a room there is nothing to agree with. -/
theorem State.RoomsOk.of_empty {s : State} (rooms : s.hall.rooms = []) (map : s.hall.segmentMap = []) : s.RoomsOk where
  anchor a r h := by simp [State.room, rooms] at h
  rising a r h := by simp [State.room, rooms] at h
  numbers a r h := by simp [State.room, rooms] at h
  map a r h := by simp [State.room, rooms] at h
  rooms k a h := by simp [State.anchorOf, map] at h

theorem State.OwnersOk.of_consoles {s t : State} (h : s.OwnersOk) (e : t.booth.consoles = s.booth.consoles) : t.OwnersOk :=
  ⟨by simpa only [e] using h.canonical, by simpa only [State.console, e] using h.owner,
    by simpa only [State.console, e] using h.one⟩

/-- Without a channel owned the owners are in order. -/
theorem State.OwnersOk.of_free {s : State} (canonical : twf Console.initial s.booth.consoles = true)
    (free : ∀ c, (s.console c).owned = none ∧ (s.console c).state ≠ .cueing ∧ (s.console c).state ≠ .onAir) : s.OwnersOk where
  canonical := canonical
  owner c := by simp [free c]
  one c d key h := by simp [free c] at h

theorem State.ChannelsOk.of_dist {s t : State} (h : s.ChannelsOk) (slots : t.dist.allocation.slots = s.dist.allocation.slots)
    (unserved : t.dist.unserved = s.dist.unserved) : t.ChannelsOk where
  canonical := by rw [slots]; exact h.canonical
  language := by rw [slots]; exact h.language
  one := by rw [slots]; exact h.one
  apart := by rw [slots, unserved]; exact h.apart
  once := by rw [unserved]; exact h.once
  full := by rw [slots, unserved]; exact h.full

/-- Without a channel the tables are in order. -/
theorem State.ChannelsOk.of_empty {s : State} (slots : s.dist.allocation.slots = []) (unserved : s.dist.unserved = []) :
    s.ChannelsOk where
  canonical := by rw [slots]; rfl
  language k key h := by simp [slots] at h
  one j k key h := by simp [slots] at h
  apart k key h := by simp [slots] at h
  once := by simp [unserved]
  full h := absurd unserved h

theorem State.slotsOk.of_seats {s t : State} (h : s.slotsOk) (canonical : twf Seat.initial t.floor.seats = true)
    (slot : ∀ n, (t.seat n).slot = (s.seat n).slot ∨ (t.seat n).slot = none) : t.slotsOk := by
  obtain ⟨-, range, apart⟩ := h
  have back : ∀ n k, (t.seat n).slot = some k → (s.seat n).slot = some k := fun n k hk => by
    rcases slot n with same | empty
    · rw [← same, hk]
    · rw [empty] at hk; cases hk
  exact ⟨canonical, fun n k hk => range n k (back n k hk),
    fun n m k hne hbus hn hm => apart n m k hne hbus (back n k hn) (back m k hm)⟩

/-- Going from `s` to `t` keeps the queue of commands and the conditions on the floor, the hall, the consoles and the channels. -/
structure Guarded (s t : State) : Prop where
  pending : t.pending = s.pending
  slots : s.slotsOk → t.slotsOk
  queues : s.QueuesOk → t.QueuesOk
  owners : s.OwnersOk → t.OwnersOk
  channels : s.ChannelsOk → t.ChannelsOk
  rooms : s.RoomsOk → t.RoomsOk

namespace Guarded

variable {s t u : State}

protected theorem refl (s : State) : Guarded s s := ⟨rfl, id, id, id, id, id⟩

theorem trans (h : Guarded s t) (k : Guarded t u) : Guarded s u :=
  ⟨k.pending.trans h.pending, k.slots ∘ h.slots, k.queues ∘ h.queues, k.owners ∘ h.owners, k.channels ∘ h.channels,
    k.rooms ∘ h.rooms⟩

theorem of_kept (h : Kept s t) : Guarded s t := ⟨h.pending, h.slots, h.queues, h.owners, h.channels, h.rooms⟩

/-- The conditions read the floor, the rooms, the consoles and the channels only. -/
theorem of_parts (floor : t.floor = s.floor := by rfl) (rooms : t.hall.rooms = s.hall.rooms := by rfl)
    (map : t.hall.segmentMap = s.hall.segmentMap := by rfl) (consoles : t.booth.consoles = s.booth.consoles := by rfl)
    (slots : t.dist.allocation.slots = s.dist.allocation.slots := by rfl)
    (unserved : t.dist.unserved = s.dist.unserved := by rfl) (pending : t.pending = s.pending := by rfl) : Guarded s t where
  pending := pending
  slots h := by simpa only [State.slotsOk, State.seat, floor] using h
  queues h := h.of_hall rooms (by rw [floor])
  owners h := h.of_consoles consoles
  channels h := h.of_dist slots unserved
  rooms h := h.of_hall rooms map

/-- The rooms have been built, and no seat holds a slot that it did not hold, no console a channel. -/
theorem of_built (rooms : t.hall.rooms = s.buildRooms.hall.rooms) (map : t.hall.segmentMap = s.buildRooms.hall.segmentMap)
    (seats : twf Seat.initial t.floor.seats = true) (slot : s.slotsOk → ∀ n, (t.seat n).slot = none)
    (consoles : twf Console.initial t.booth.consoles = true)
    (free : ∀ c, (t.console c).owned = none ∧ (t.console c).state ≠ .cueing ∧ (t.console c).state ≠ .onAir)
    (channels : t.dist.allocation.slots = []) (unserved : t.dist.unserved = []) (pending : t.pending = s.pending) :
    Guarded s t where
  pending := pending
  slots h := h.of_seats seats fun n => .inr (slot h n)
  queues _ := .of_empty fun a r hr => State.buildRooms_queue (by simpa only [State.room, rooms] using hr)
  owners _ := .of_free consoles free
  channels _ := .of_empty channels unserved
  rooms _ := s.buildRooms_roomsOk.of_hall rooms map

end Guarded

end Sys2Proof.Machine
end

section
/-! SUPPORT. `Steady s t`: going from `s` to `t` keeps the phase, the segment records, the bounds of the link controller's queues
and all that `Guarded` keeps. What every command finds due is steady, and so is all that a command does but START, STOP,
SEGMENT_SET and the pins. -/

namespace Sys2Proof.Machine

/-- Going from `s` to `t` keeps the phase and the segment records, the bounds of the link controller and the conditions. -/
structure Steady (s t : State) : Prop extends Guarded s t where
  phase : t.link.phase = s.link.phase
  segments : t.hall.segments = s.hall.segments
  link : s.link.bounded → t.link.bounded

/-- The work of the blocks takes no place of the reply list. -/
theorem Kept.grows {s t : State} (h : Kept s t) : LinkUnit.Grows 0 s.link t.link := by
  obtain ⟨ns, hns⟩ := h.link
  rw [hns]
  exact .raiseAll _ ns

theorem Kept.phase {s t : State} (h : Kept s t) : t.link.phase = s.link.phase := by
  obtain ⟨ns, hns⟩ := h.link
  rw [hns, LinkUnit.raiseAll_phase]

namespace Steady

variable {s t u : State}

protected theorem refl (s : State) : Steady s s := ⟨.refl s, rfl, rfl, id⟩

theorem trans (h : Steady s t) (k : Steady t u) : Steady s u :=
  ⟨h.toGuarded.trans k.toGuarded, k.phase.trans h.phase, k.segments.trans h.segments, k.link ∘ h.link⟩

theorem of_grows (h : Guarded s t) (phase : t.link.phase = s.link.phase) (segments : t.hall.segments = s.hall.segments)
    (grows : LinkUnit.Grows 0 s.link t.link) : Steady s t :=
  ⟨h, phase, segments, fun b => grows.bounded b b.2.1⟩

theorem of_kept (h : Kept s t) : Steady s t := of_grows (.of_kept h) h.phase h.segments h.grows

theorem fold {α : Type} {f : State → α → State} (hf : ∀ v x, Steady v (f v x)) (xs : List α) (s : State) :
    Steady s (xs.foldl f s) := by
  induction xs generalizing s with
  | nil => exact .refl s
  | cons x xs ih => exact (hf s x).trans (ih (f s x))

/-- A change of the link controller alone. -/
theorem of_link (l : LinkUnit) (phase : l.phase = s.link.phase) (bounded : s.link.bounded → l.bounded) :
    Steady s { s with link := l } :=
  ⟨.of_parts, phase, rfl, bounded⟩

/-- A change of what no condition reads. -/
theorem of_buses (h : t = { s with buses := t.buses }) : Steady s t :=
  have floor : t.floor = s.floor := by rw [h]
  have hall : t.hall = s.hall := by rw [h]
  have link : t.link = s.link := by rw [h]
  ⟨.of_parts floor (by rw [hall]) (by rw [hall]) (by rw [h]) (by rw [h]) (by rw [h]) (by rw [h]), by rw [link], by rw [hall],
    by rw [link]; exact id⟩

/-! ## The link controller -/

theorem setReceiver (s : State) (r : Receiver) : Steady s (s.setReceiver r) := of_link _ rfl id

theorem note (s : State) (n : Notice) : Steady s (s.note n) := of_kept (Kept.note (.refl s) n)

/-- A reply is formed where a place of the reply list is free. -/
theorem reply (s : State) (r : Reply) (place : s.link.hasPlace = true) : Steady s (s.reply r) :=
  of_link _ (LinkUnit.answer_phase _ r) fun b =>
    (LinkUnit.Grows.answer _ r).bounded b (by simpa [LinkUnit.hasPlace] using place)

theorem discard (s : State) (cause : LinkCause) (n : Nat) : Steady s (s.discard cause n) :=
  (setReceiver s .hunting).trans (.note _ _)

theorem timeout (s : State) : Steady s s.timeout := by
  unfold State.timeout
  split
  · exact .refl s
  · split
    · exact .discard s _ _
    · exact .refl s

theorem answerInputFull (s : State) (f : Frame) : Steady s (s.answerInputFull f) := by
  unfold State.answerInputFull
  split
  · exact .reply s _ ‹_›
  · exact .note s _

theorem frameCompletes (s : State) (f : Frame) : Steady s (s.frameCompletes f) := by
  unfold State.frameCompletes
  split
  · rename_i free
    refine of_link _ rfl fun b => ?_
    obtain ⟨-, places, notices⟩ := b
    refine ⟨?_, places, notices⟩
    simp only [List.length_append, List.length_singleton]
    omega
  · exact .answerInputFull s f

theorem frameArrives (f : Frame) (s : State) : Steady s (s.frameArrives f) := by
  unfold State.frameArrives
  split
  · exact .discard s _ _
  · exact (setReceiver s .hunting).trans (.frameCompletes _ f)

theorem takeInFrame (s : State) (bs : List Byte) (n : Nat) (c : Byte) (high : Bool) : Steady s (s.takeInFrame bs n c high) := by
  unfold State.takeInFrame; dsimp only
  split
  · exact .discard s _ _
  · split
    · exact .discard s _ _
    · split
      · exact .setReceiver s _
      · split
        · exact (setReceiver s .hunting).trans (.frameCompletes _ _)
        · exact .discard s _ _

theorem receive (c : Byte) (high : Bool) (s : State) : Steady s (s.receive c high) := by
  unfold State.receive
  split
  · split
    · exact (timeout s).trans (.setReceiver _ _)
    · exact .timeout s
  · exact (timeout s).trans (.takeInFrame _ _ _ c high)

theorem sent (s : State) : Steady s s.sent := by
  unfold State.sent
  split
  · exact .refl s
  · exact of_link _ (LinkUnit.startNext_phase _) fun b => (LinkUnit.Grows.startNext _).bounded b b.2.1

theorem tickFrame (s : State) : Steady s s.tickFrame := by
  unfold State.tickFrame
  split
  · exact .refl s
  · exact .setReceiver s _

/-- The place that STOP holds becomes its reply's. -/
theorem completeStop (s : State) : Steady s s.completeStop := by
  unfold State.completeStop
  split
  · exact .refl s
  · rename_i tag stopping
    split
    · refine of_link _ (LinkUnit.answer_phase _ _) fun b => (LinkUnit.Grows.answer _ _).bounded ⟨b.1, ?_, b.2.2⟩ ?_
      all_goals
        have := b.2.1
        simp only [LinkUnit.placesTaken, stopping, Option.isSome_some, Option.isSome_none, if_true, Bool.false_eq_true,
          if_false] at this ⊢
        omega
    · exact .refl s

/-- The places that the RESTARTs due hold become their replies'. -/
theorem bounded_answerAll_restarts {l : LinkUnit} (b : l.bounded) (n : Nat) (f : Byte → Reply) :
    (((l.restarts.take n).map f).foldl LinkUnit.answer { l with restarts := l.restarts.drop n, restartDue := 0 }).bounded := by
  have taken := b.2.1
  have both : (l.restarts.take n).length + (l.restarts.drop n).length = l.restarts.length := by
    rw [← List.length_append, List.take_append_drop]
  refine (LinkUnit.Grows.answerAll _ ((l.restarts.take n).map f)).bounded ⟨b.1, ?_, b.2.2⟩ ?_
  all_goals
    simp only [LinkUnit.placesTaken, List.length_map] at taken ⊢
    omega

end Steady

/-! ## RESTART -/

/-- A seat at RESTART holds no slot. -/
theorem State.eachSeat_slot {s : State} {f : Nat → Seat → Seat} (hf : ∀ n x, (f n x).slot = none) (n : Nat) :
    ((s.eachSeat f).seat n).slot = none :=
  tget_foldl_tset_all (P := fun x : Seat => x.slot = none) (fun x : Nat × Seat => hf x.1 x.2) s.floor.seats (fun _ => rfl) n

theorem State.eachSeat_canonical (s : State) (f : Nat → Seat → Seat) : twf Seat.initial (s.eachSeat f).floor.seats = true :=
  twf_foldl_tset Seat.initial _ (fun x : Nat × Seat => f x.1 x.2) s.floor.seats rfl

/-- The consoles after RESTART own nothing. -/
theorem State.restartConsoles_free (s : State) (c : Nat) :
    (tget Console.initial s.restartConsoles c).owned = none ∧ (tget Console.initial s.restartConsoles c).state ≠ .cueing ∧
      (tget Console.initial s.restartConsoles c).state ≠ .onAir := by
  have initial : Console.initial.owned = none ∧ Console.initial.state ≠ .cueing ∧ Console.initial.state ≠ .onAir := by decide
  unfold State.restartConsoles
  refine tget_foldl_tset_all (d := Console.initial) (u := [])
    (P := fun x : Console => x.owned = none ∧ x.state ≠ .cueing ∧ x.state ≠ .onAir) (fun c => ⟨rfl, ?_, ?_⟩) _
    (fun _ => initial) c
  · dsimp only; split <;> decide
  · dsimp only; split <;> decide

theorem State.restartConsoles_canonical (s : State) : twf Console.initial s.restartConsoles = true :=
  twf_foldl_tset Console.initial (fun c : Nat => c) _ _ rfl

/-- Work on buses changes no other part. -/
theorem State.foldl_buses {f : State → Nat → State} (hf : ∀ v i, f v i = { v with buses := (f v i).buses }) (is : List Nat)
    (s : State) : is.foldl f s = { s with buses := (is.foldl f s).buses } := by
  induction is generalizing s with
  | nil => rfl
  | cons i is ih => rw [List.foldl_cons, ih (f s i), hf s i]

end Sys2Proof.Machine
end

section
/-! SUPPORT. START, STOP, RESTART and the block boundary, part by part; and that they keep the conditions. -/

namespace Sys2Proof.Machine

namespace State

variable (s : State)

/-! ## RESTART (R201) -/

/-- A seat as RESTART makes it (R110). -/
def restartedSeat (n : Nat) (x : Seat) : Seat := x.restarted ((s.unit (seatBus n) (seatAddress n)).presence = .present)

/-- RESTART but for the buses, the plan and the replies: the rooms are built, seats and consoles are as their units are, and
every booth listens by its source alone. -/
def rebuilt : State :=
  let t := s.buildRooms.eachSeat s.restartedSeat
  { t with
    floor := { t.floor with openingCount := 0, liveCount := 0, stampCount := 0 }
    booth := { booths := restBooths t.booth.booths, consoles := s.restartConsoles } }

/-- The reply to a RESTART that has taken effect. -/
def restartReply (tag : Byte) : Reply := { kind := 0x07, tag := tag, answer := .ok .nothing }

/-- The link controller after the RESTARTs due have taken effect. -/
def restartLink (l : LinkUnit) : LinkUnit :=
  ((l.restarts.take l.restartDue).map restartReply).foldl LinkUnit.answer
    { l with restarts := l.restarts.drop l.restartDue, restartDue := 0 }

/-- The buses of the rebuilt part. -/
def rebuiltBuses : State := [0, 1, 2, 3, 4].foldl State.restartBus s.rebuilt

theorem restartBus_buses (i : Nat) : s.restartBus i = { s with buses := (s.restartBus i).buses } := rfl

/-- The plan and the replies at the end of RESTART. -/
def endRestart : State :=
  let w := s.setPlan s.formPlan
  let n := w.link.restartDue
  let x := { w with link := { w.link with restarts := w.link.restarts.drop n, restartDue := 0 } }
  (w.link.restarts.take n).foldl (fun y tag => y.reply { kind := 0x07, tag := tag, answer := .ok .nothing }) x

theorem takeRestart_eq_endRestart : s.takeRestart = s.rebuiltBuses.endRestart := rfl

theorem endRestart_eq : s.endRestart = { s.setPlan s.formPlan with link := restartLink s.link } := by
  have replies : ∀ (tags : List Byte) (v : State),
      tags.foldl (fun y tag => y.reply { kind := 0x07, tag := tag, answer := .ok .nothing }) v =
        { v with link := (tags.map restartReply).foldl LinkUnit.answer v.link } := fun tags v => by
    rw [← foldl_reply, List.foldl_map]
    rfl
  unfold endRestart; dsimp only
  rw [replies]
  rfl

theorem rebuiltBuses_eq : s.rebuiltBuses = { s.rebuilt with buses := s.rebuiltBuses.buses } := foldl_buses restartBus_buses _ _

theorem rebuiltBuses_link : s.rebuiltBuses.link = s.link := by rw [rebuiltBuses_eq]; rfl

theorem takeRestart_seats : s.takeRestart.floor.seats = (s.eachSeat s.restartedSeat).floor.seats := by
  rw [takeRestart_eq_endRestart, endRestart_eq, rebuiltBuses_eq]
  rfl

/-! ## START (R199) -/

/-- START but for the buses. -/
def runStarted : State :=
  let t := { s with link := { s.link with phase := .run, restartDue := 0 } }
  let u := t.buildRooms.eachSeat (fun _ x => x.cleared)
  { u with
    floor := { u.floor with openingCount := 0, liveCount := 0, stampCount := 0 }
    booth := { booths := restBooths u.booth.booths, consoles := [] }
    counts := u.counts.start }

theorem startBus_buses (i : Nat) : s.startBus i = { s with buses := (s.startBus i).buses } := rfl

theorem enterRun_eq : s.enterRun = { s.runStarted with buses := s.enterRun.buses } := foldl_buses startBus_buses _ _

theorem enterRun_seats : s.enterRun.floor.seats = (s.eachSeat (fun _ x => x.cleared)).floor.seats := by
  rw [enterRun_eq]
  rfl

/-! ## STOP (R200) -/

/-- The reply to a RESTART that STOP finds waiting. -/
def cancelReply (tag : Byte) : Reply := { kind := 0x07, tag := tag, answer := .refuse .wrongPhase }

/-- The link controller after STOP has answered the RESTARTs that wait. -/
def cancelLink (l : LinkUnit) : LinkUnit :=
  (l.restarts.map cancelReply).foldl LinkUnit.answer { l with restarts := [], restartDue := 0 }

theorem cancelRestarts_eq : s.cancelRestarts = { s with link := cancelLink s.link } := by
  unfold cancelRestarts cancelLink
  rw [List.foldl_map]
  exact (List.foldl_map (f := cancelReply) (g := State.reply)).symm.trans ((foldl_reply _ _).trans (by rw [List.foldl_map]))

/-- STOP but for the buses. -/
def stopped (tag : Byte) : State :=
  let u := { s with
    hall := { s.hall with rooms := [], segmentMap := [] }
    floor := { s.floor with groups := unblockGroups s.floor.groups }
    booth := { booths := restBooths s.booth.booths, consoles := [] }
    dist := { allocation := SlotTable.empty, current := SlotTable.empty, unserved := [], switchDue := false }
    counts := { counters := [], blocks := none, secondDue := false, raised := [], deferring := false }
    link := { cancelLink s.link with phase := .config, stopping := some tag } }
  u.eachSeat (fun _ x => x.cleared)

theorem stopBus_buses (i : Nat) : s.stopBus i = { s with buses := (s.stopBus i).buses } := rfl

theorem enterConfig_eq_foldl (tag : Byte) : s.enterConfig tag = [0, 1, 2, 3, 4].foldl State.stopBus (s.stopped tag) := by
  unfold enterConfig; dsimp only
  rw [cancelRestarts_eq]
  rfl

theorem enterConfig_eq (tag : Byte) : s.enterConfig tag = { s.stopped tag with buses := (s.enterConfig tag).buses } := by
  rw [enterConfig_eq_foldl]
  exact foldl_buses stopBus_buses _ _

theorem enterConfig_seats (tag : Byte) :
    (s.enterConfig tag).floor.seats = (s.eachSeat (fun _ x => x.cleared)).floor.seats := by
  rw [enterConfig_eq]
  rfl

/-! ## The block boundary -/

/-- A boundary in RUN but for the plan: the rooms, the seats, the counter unit and the buses count it, and what falls due. -/
def ticked : State :=
  busNumbers.foldl State.openWindow
    { s.tickRooms.eachSeat (fun _ x => x.tick) with counts := s.counts.tick }

theorem openWindow_buses (i : Nat) : s.openWindow i = { s with buses := (s.openWindow i).buses } := rfl

theorem ticked_eq : s.ticked = { s.tickRooms.eachSeat (fun _ x => x.tick) with
    counts := s.counts.tick, buses := s.ticked.buses } := foldl_buses openWindow_buses _ _

/-- A boundary in RUN but for the plan. -/
def tickedDue : State := { s.ticked with
  link := { s.ticked.link with restartDue := s.ticked.link.restarts.length }
  dist := { s.ticked.dist with switchDue := !s.ticked.mapWaiting && s.ticked.tablesDiffer } }

theorem tickRun_eq : s.tickRun = s.tickedDue.setPlan s.tickedDue.formPlan := rfl

theorem offWindow_buses (i : Nat) : s.offWindow i = { s with buses := (s.offWindow i).buses } := by
  unfold offWindow
  split <;> rfl

end State

/-! ## The conditions -/

/-- A boundary moves a seat's counts only. -/
theorem Seat.tick_slot (x : Seat) : x.tick.slot = x.slot := by
  unfold Seat.tick
  split
  · split
    · rfl
    · split <;> rfl
  · split
    · rfl
    · split <;> rfl
  · rfl

theorem Room.cross_anchor (b : Bool) (r : Room) : (r.cross b).anchor = r.anchor := by rw [Room.cross_eq]
theorem Room.cross_segments (b : Bool) (r : Room) : (r.cross b).segments = r.segments := by rw [Room.cross_eq]
theorem Room.cross_queue (b : Bool) (r : Room) : (r.cross b).queue = r.queue := by rw [Room.cross_eq]

theorem State.tickRooms_room (s : State) (a : Nat) :
    s.tickRooms.room a = (s.room a).map (Room.cross (!s.link.restarts.isEmpty)) :=
  tget_map_rooms _ s.hall.rooms a

theorem State.tickRooms_back {s : State} {a : Nat} {x : Room} (h : s.tickRooms.room a = some x) :
    ∃ r, s.room a = some r ∧ x.anchor = r.anchor ∧ x.segments = r.segments ∧ x.queue = r.queue := by
  rw [State.tickRooms_room] at h
  obtain ⟨r, hr, rfl⟩ := Option.map_eq_some_iff.1 h
  exact ⟨r, hr, Room.cross_anchor _ r, Room.cross_segments _ r, Room.cross_queue _ r⟩

/-- A boundary leaves every seat its slot. -/
theorem State.eachSeat_tick_slotsOk {s : State} (h : s.slotsOk) : (s.eachSeat (fun _ x => x.tick)).slotsOk := by
  refine h.of_seats (s.eachSeat_canonical _) fun n => .inl ?_
  have ticked : (s.eachSeat (fun _ x => x.tick)).seat n = (s.seat n).tick :=
    tget_rewritten (d := Seat.initial) (f := fun _ x => x.tick) (fun _ => rfl) h.1 n
  rw [ticked, Seat.tick_slot]

namespace Guarded

variable (s : State)

theorem takeRestart : Guarded s s.takeRestart := by
  have seats := s.takeRestart_seats
  have consoles : s.takeRestart.booth.consoles = s.restartConsoles := by
    rw [State.takeRestart_eq_endRestart, State.endRestart_eq, State.rebuiltBuses_eq]; rfl
  have dist : s.takeRestart.dist = s.buildRooms.dist := by
    rw [State.takeRestart_eq_endRestart, State.endRestart_eq, State.rebuiltBuses_eq]; rfl
  refine .of_built (by rw [State.takeRestart_hall]) (by rw [State.takeRestart_hall]) ?_ (fun _ n => ?_) ?_ (fun c => ?_)
    (by rw [dist]; rfl) (by rw [dist]; rfl) ?_
  · rw [seats]; exact State.eachSeat_canonical _ _
  · rw [State.seat, seats]; exact State.eachSeat_slot (f := s.restartedSeat) (fun _ _ => rfl) n
  · rw [consoles]; exact s.restartConsoles_canonical
  · rw [State.console, consoles]; exact s.restartConsoles_free c
  · rw [State.takeRestart_eq_endRestart, State.endRestart_eq, State.rebuiltBuses_eq]; rfl

theorem enterRun : Guarded s s.enterRun := by
  have seats := s.enterRun_seats
  have consoles : s.enterRun.booth.consoles = [] := by rw [State.enterRun_eq]; rfl
  refine .of_built (by rw [State.enterRun_hall]) (by rw [State.enterRun_hall]) ?_ (fun _ n => ?_) ?_ (fun c => ?_)
    (by rw [State.enterRun_eq]; rfl) (by rw [State.enterRun_eq]; rfl) (by rw [State.enterRun_eq]; rfl)
  · rw [seats]; exact State.eachSeat_canonical _ _
  · rw [State.seat, seats]; exact State.eachSeat_slot (f := fun _ x => x.cleared) (fun _ _ => rfl) n
  · rw [consoles]; rfl
  · rw [State.console, consoles]; exact ⟨rfl, nofun, nofun⟩

theorem enterConfig (tag : Byte) : Guarded s (s.enterConfig tag) := by
  have seats := s.enterConfig_seats tag
  have consoles : (s.enterConfig tag).booth.consoles = [] := by rw [State.enterConfig_eq]; rfl
  have rooms : (s.enterConfig tag).hall.rooms = [] := by rw [State.enterConfig_hall]
  refine ⟨by rw [State.enterConfig_eq]; rfl, fun h => h.of_seats ?_ fun n => .inr ?_,
    fun _ => .of_empty fun a r hr => by simp [State.room, rooms] at hr, fun _ => .of_free (by rw [consoles]; rfl) fun c => ?_,
    fun _ => .of_empty (by rw [State.enterConfig_eq]; rfl) (by rw [State.enterConfig_eq]; rfl),
    fun _ => .of_empty rooms (by rw [State.enterConfig_hall])⟩
  · rw [seats]; exact State.eachSeat_canonical _ _
  · rw [State.seat, seats]; exact State.eachSeat_slot (f := fun _ x => x.cleared) (fun _ _ => rfl) n
  · rw [State.console, consoles]; exact ⟨rfl, nofun, nofun⟩

theorem tickRun : Guarded s s.tickRun := by
  have floor : s.tickRun.floor = (s.eachSeat (fun _ x => x.tick)).floor := by
    rw [State.tickRun_eq, State.tickedDue, State.ticked_eq]; rfl
  have rooms : ∀ a, s.tickRun.room a = s.tickRooms.room a := fun a => by rw [State.room, State.tickRun_hall]; rfl
  have map : ∀ k, s.tickRun.anchorOf k = s.anchorOf k := fun k => by rw [State.anchorOf, State.tickRun_hall]; rfl
  refine ⟨?_, fun h => ?_, fun h => ?_, fun h => h.of_consoles ?_, fun h => h.of_dist ?_ ?_, fun h => ?_⟩
  · rw [State.tickRun_eq, State.tickedDue, State.ticked_eq]; rfl
  · simpa only [State.slotsOk, State.seat, floor] using State.eachSeat_tick_slotsOk h
  · refine h.sub (by rw [floor]; rfl) fun a x hx => ?_
    obtain ⟨r, hr, anchor, -, queue⟩ := State.tickRooms_back ((rooms a).symm.trans hx)
    exact ⟨r, hr, anchor, queue ▸ .refl _⟩
  · rw [State.tickRun_eq, State.tickedDue, State.ticked_eq]; rfl
  · rw [State.tickRun_eq, State.tickedDue, State.ticked_eq]; rfl
  · rw [State.tickRun_eq, State.tickedDue, State.ticked_eq]; rfl
  · refine h.same map (fun a x hx => ?_) fun a ha => ?_
    · obtain ⟨r, hr, anchor, segments, -⟩ := State.tickRooms_back ((rooms a).symm.trans hx)
      exact ⟨r, hr, anchor, segments⟩
    · rw [rooms, State.tickRooms_room, Option.isSome_map]
      exact ha

end Guarded

end Sys2Proof.Machine
end

section
/-! SUPPORT. Every command keeps the conditions: what is found due, the block boundary, the exchanges, the taking of a request, and
the commands one by one (O2, O50, O56 to O59). -/

namespace Sys2Proof.Machine

namespace Steady

variable {s : State}

/-! ## What is due -/

theorem takeRestart (s : State) : Steady s s.takeRestart := by
  have link : s.takeRestart.link = State.restartLink s.link := by
    rw [State.takeRestart_eq_endRestart, State.endRestart_eq, State.rebuiltBuses_link]
  exact ⟨.takeRestart s, by rw [link]; exact LinkUnit.answerAll_phase _ _, by rw [State.takeRestart_hall]; rfl,
    fun b => by rw [link]; exact bounded_answerAll_restarts b _ _⟩

theorem restartIfDue (s : State) : Steady s s.restartIfDue := by
  unfold State.restartIfDue
  split
  · exact .refl s
  · exact .takeRestart s

theorem closeInstant (s : State) : Steady s s.closeInstant := of_kept (Kept.closeInstant (.refl s))

theorem settleIfDue (s : State) (p : Nat) : Steady s (s.settleIfDue p) := of_kept ((Kept.refl s).settleIfDue p)

theorem nextTimer (s : State) : Steady s s.nextTimer := of_kept (Kept.nextTimer (.refl s))

theorem nextHoldOff (s : State) : Steady s s.nextHoldOff := of_kept (Kept.nextHoldOff (.refl s))

theorem nextClock (s : State) : Steady s s.nextClock := of_kept (Kept.nextClock (.refl s))

theorem secondIfDue (s : State) : Steady s s.secondIfDue := of_kept (Kept.secondIfDue (.refl s))

theorem timesOf {α : Type} {f : State → State} (hf : ∀ v, Steady v (f v)) (xs : List α) (s : State) :
    Steady s (timesOf f xs s) :=
  .fold (fun v _ => hf v) xs s

theorem catchUp (s : State) : Steady s s.catchUp := by
  unfold State.catchUp
  extract_lets t1 t2 t3 t4 t5
  have inputs : Steady s t1 := ((Steady.closeInstant s).trans (.timeout _)).trans (.fold Steady.settleIfDue inputNumbers _)
  have restarted : Steady s t2 := inputs.trans (.restartIfDue t1)
  have timers : Steady s t3 := restarted.trans (.timesOf Steady.nextTimer _ t2)
  have holdOffs : Steady s t4 := timers.trans (.timesOf Steady.nextHoldOff _ t3)
  have clocks : Steady s t5 := holdOffs.trans (.timesOf Steady.nextClock _ t4)
  exact (clocks.trans (.secondIfDue t5)).trans (.completeStop _)

theorem whileUp {work : State → State} (hw : ∀ t, Steady t (work t)) (s : State) : Steady s (s.whileUp work) := by
  unfold State.whileUp
  split
  · exact .refl s
  · exact hw s

theorem whenDue {work : State → State} (hw : ∀ t, Steady t (work t)) (s : State) : Steady s (s.whenDue work) :=
  .whileUp (fun t => (Steady.closeInstant t).trans (hw _)) s

theorem upToDate {work : State → State} (hw : ∀ t, Steady t (work t)) (s : State) : Steady s (s.upToDate work) :=
  .whileUp (fun t => (Steady.catchUp t).trans (hw _)) s

/-! ## The block boundary -/

theorem lapse (s : State) (i : Nat) : Steady s (s.lapse i) := of_kept (Kept.lapse (.refl s) i)

theorem finishDue (s : State) : Steady s s.finishDue :=
  ((Steady.catchUp s).trans (.fold Steady.lapse busNumbers _)).trans (.completeStop _)

theorem closeBlock (s : State) (audio : List Upstream) : Steady s (s.closeBlock audio) := by
  have heard := (Kept.refl s).setMix { s.mix with heard := mixBlock s.mix.plan audio }
  unfold State.closeBlock; dsimp only
  split
  · exact of_kept (heard.fold _ (fun _ _ h => h.raise _) _).settleCounts
  · exact of_kept heard

theorem sampleInputs (s : State) (sense : BitVec 16) : Steady s (s.sampleInputs sense) :=
  of_kept ((Kept.refl s).fold _ (fun _ p h => h.setSettling p _ fun ok => HallKept.sample_hold (ok p) _) _)

theorem tickRun (s : State) : Steady s s.tickRun := by
  have link : s.tickRun.link = { s.link with restartDue := s.link.restarts.length } := by
    rw [State.tickRun_eq, State.tickedDue, State.ticked_eq]; rfl
  exact ⟨.tickRun s, by rw [link], by rw [State.tickRun_hall]; rfl, fun b => by rw [link]; exact b⟩

theorem tickConfig (s : State) : Steady s s.tickConfig :=
  (Steady.fold (fun v i => of_buses (State.offWindow_buses v i)) busNumbers s).trans
    (of_kept (Kept.setPlan (.refl _) Plan.silent))

theorem boundary (sense : BitVec 16) (audio : List Upstream) (s : State) : Steady s (s.boundary sense audio) := by
  have closed : Steady s ((s.finishDue.closeBlock audio).sampleInputs sense).tickFrame :=
    (((Steady.finishDue s).trans (.closeBlock _ audio)).trans (.sampleInputs _ sense)).trans (.tickFrame _)
  unfold State.boundary; dsimp only
  split
  · exact closed.trans (.tickRun _)
  · exact closed.trans (.tickConfig _)

/-! ## Exchanges -/

theorem beginExchange (i : Nat) (s : State) : Steady s (s.beginExchange i) := by
  unfold State.beginExchange; dsimp only
  split
  · exact of_kept ((Kept.lapse (.refl s) i).arbitrate i)
  · split
    · exact (Steady.lapse s i).trans (of_buses rfl)
    · exact .lapse s i

theorem hear (i : Nat) (acked : Option AckOf) (presses : Nat) (held : Bool) (cls : UnitClass) (s : State) :
    Steady s (s.hear i acked presses held cls) := by
  unfold State.hear
  split
  · exact .refl s
  · exact of_kept (Kept.answered (.refl s) i _ acked presses held cls)

/-! ## Requests -/

theorem popInput (s : State) : Steady s s.popInput :=
  of_grows .of_parts rfl rfl ⟨by simp [State.popInput], le_rfl, le_max_left ..⟩

/-- A request that is taken finds a free place of the reply list. -/
theorem popInput_hasPlace {f : Frame} (h : s.takes f = true) : s.popInput.link.hasPlace = true := by
  simp only [State.takes, Bool.and_eq_true] at h
  exact h.1.2

/-- A request is not taken, or it is worked where a place is free. -/
theorem taking_cases (s : State) (f : Frame) (work : State → State) : Steady s (s.taking f work) ∨
    ∃ u, Steady s u ∧ u.link.hasPlace = true ∧ s.taking f work = work u := by
  unfold State.taking State.upToDate State.whileUp
  split
  · exact .inl (.refl s)
  · unfold State.takeFrame; dsimp only
    split
    · exact .inr ⟨_, (Steady.catchUp s).trans (.popInput _), popInput_hasPlace ‹_›, rfl⟩
    · split
      · exact .inl (.catchUp s)
      · exact .inl ((Steady.catchUp s).trans (.frameArrives f _))

theorem taking {work : State → State} (f : Frame) (hw : ∀ t : State, t.link.hasPlace = true → Steady t (work t)) (s : State) :
    Steady s (s.taking f work) := by
  obtain h | ⟨u, steady, place, h⟩ := taking_cases s f work
  · exact h
  · exact h ▸ steady.trans (hw u place)

/-- What is handled without a place of the reply list may be answered where one is free. -/
theorem answerWith_link {r : State × Answer} (grows : LinkUnit.Grows 0 s.link r.1.link) (place : s.link.hasPlace = true)
    (kind tag : Byte) : s.link.bounded → (State.answerWith r kind tag).link.bounded := by
  have taken : s.link.placesTaken < Config.replyLimit := by simpa [LinkUnit.hasPlace] using place
  exact fun b => (grows.trans (.answer _ _)).bounded b (by omega)

theorem answerWith {r : State × Answer} (h : Kept s r.1) (place : s.link.hasPlace = true) (kind tag : Byte) :
    Steady s (State.answerWith r kind tag) :=
  have k : Steady s r.1 := of_kept h
  ⟨k.toGuarded.trans .of_parts, (LinkUnit.answer_phase ..).trans k.phase, k.segments, answerWith_link h.grows place kind tag⟩

/-- A request whose handler is work of the blocks. -/
theorem request (kind tag : Byte) (body : List Byte) (allowed : Allowed) {handle : List Byte → State → State × Answer}
    (hh : ∀ t b, Kept t (handle b t).1) (s : State) : Steady s (s.request kind tag body allowed handle) :=
  .taking _ (fun t place => by
    split
    · exact .answerWith (hh t body) place kind tag
    · exact .reply t _ place) s

theorem unknownKind (kind tag : Byte) (body : List Byte) (s : State) :
    Steady s (s.taking { kind := kind, tag := tag, body := body } fun t =>
      if kindNamesRequest kind then t.frameArrives { kind := kind, tag := tag, body := body }
      else t.reply { kind := kind, tag := tag, answer := .refuse .badKind }) :=
  .taking _ (fun t place => by
    split
    · exact .frameArrives _ t
    · exact .reply t _ place) s

/-- A RESTART that is taken holds its place of the reply list until its boundary. -/
theorem scheduleRestart (s : State) (tag : Byte) (place : s.link.hasPlace = true) : Steady s (s.scheduleRestart tag) := by
  refine ⟨.of_parts, rfl, rfl, fun b => ⟨b.1, ?_, b.2.2⟩⟩
  have taken : s.link.placesTaken < Config.replyLimit := by simpa [LinkUnit.hasPlace] using place
  have longer : (s.scheduleRestart tag).link.placesTaken = s.link.placesTaken + 1 := by
    have held := List.length_append (as := s.link.restarts) (bs := [tag])
    change s.link.replies.length + (s.link.restarts ++ [tag]).length + (if s.link.stopping.isSome then 1 else 0) = _
    rw [held, List.length_singleton, LinkUnit.placesTaken]
    omega
  rw [longer]
  exact taken

theorem restart (tag : Byte) (body : List Byte) (s : State) :
    Steady s (s.later 0x07 tag body (fun t => t.scheduleRestart tag)) :=
  .taking _ (fun t place => by
    split
    · exact .reply t _ place
    · split
      · exact .reply t _ place
      · exact .scheduleRestart t tag place) s

theorem settlingEvent (input : Nat) (s : State) : Steady s (if inputOk input then s.settleIfDue input else s) := by
  split
  · exact .settleIfDue s input
  · exact .refl s

end Steady

/-! ## Every command -/

/-- What every command keeps, and how the phase and the segment records may change by it. -/
structure Lawful (c : Instr) (s t : State) : Prop extends Guarded s t where
  link : s.link.bounded → t.link.bounded
  phase : t.link.phase ≠ s.link.phase →
    (∃ tag body, c = .start tag body ∧ t.link.phase = .run) ∨ (∃ tag body, c = .stop tag body ∧ t.link.phase = .config) ∨
      (∃ r1 r0, c = .powerOn r1 r0) ∨ ∃ r1 r0, c = .resetRelease r1 r0
  segments : t.hall.segments ≠ s.hall.segments →
    ((∃ tag body, c = .segmentSet tag body) ∧ s.link.phase = .config) ∨ (∃ r1 r0, c = .powerOn r1 r0) ∨
      ∃ r1 r0, c = .resetRelease r1 r0

namespace Lawful

variable {c : Instr} {s t : State}

theorem of_steady (h : Steady s t) : Lawful c s t :=
  ⟨h.toGuarded, h.link, fun ne => absurd h.phase ne, fun ne => absurd h.segments ne⟩

/-- A part at its power-on values meets every condition. -/
theorem guarded_of_reset (floor : t.floor = State.reset.floor) (hall : t.hall = State.reset.hall)
    (booth : t.booth = State.reset.booth) (dist : t.dist = State.reset.dist) (pending : t.pending = s.pending) : Guarded s t where
  pending := pending
  slots _ := by
    simp only [State.slotsOk, State.seat, floor]
    exact ⟨rfl, nofun, nofun⟩
  queues _ := .of_empty fun a r hr => by rw [State.room, hall] at hr; cases hr
  owners _ := .of_free (by rw [booth]; rfl) fun c => by rw [State.console, booth]; exact ⟨rfl, nofun, nofun⟩
  channels _ := .of_empty (by rw [dist]; rfl) (by rw [dist]; rfl)
  rooms _ := .of_empty (by rw [hall]; rfl) (by rw [hall]; rfl)

theorem started_bounded (cause : ReadyCause) (r1 r0 : Bool) : (LinkUnit.started cause r1 r0).bounded := by
  refine ⟨Nat.zero_le _, Nat.zero_le _, Nat.zero_le _⟩

theorem powerOn (s : State) (r1 r0 : Bool) : Lawful (.powerOn r1 r0) s (s.powerOn r1 r0) := by
  refine ⟨?_, fun _ => ?_, fun _ => .inr (.inr (.inl ⟨r1, r0, rfl⟩)), fun _ => .inr (.inl ⟨r1, r0, rfl⟩)⟩
  · unfold State.powerOn; dsimp only
    split
    · exact guarded_of_reset rfl rfl rfl rfl rfl
    · exact guarded_of_reset rfl rfl rfl rfl rfl
  · unfold State.powerOn; dsimp only
    split
    · have one : 1 ≤ Config.noticeLimit := by decide
      exact ⟨Nat.zero_le _, Nat.zero_le _, one⟩
    · exact started_bounded ..

theorem resetRelease (s : State) (r1 r0 : Bool) :
    Lawful (.resetRelease r1 r0) s (if s.resetLow then State.started .pin r1 r0 s.pending else s) := by
  refine ⟨?_, fun b => ?_, fun _ => .inr (.inr (.inr ⟨r1, r0, rfl⟩)), fun _ => .inr (.inr ⟨r1, r0, rfl⟩)⟩
  · split
    · exact guarded_of_reset rfl rfl rfl rfl rfl
    · exact .refl s
  · split
    · exact started_bounded ..
    · exact b

/-- A command that is steady up to a state, and lawful from there. -/
theorem after {u : State} (h : Steady s u) (k : Lawful c u t) : Lawful c s t :=
  ⟨h.toGuarded.trans k.toGuarded, k.link ∘ h.link, fun ne => k.phase (by rwa [h.phase]),
    fun ne => by have := k.segments (by rwa [h.segments]); rwa [h.phase] at this⟩

/-- A request that is taken where a place is free. -/
theorem taking {work : State → State} (f : Frame) (hw : ∀ t : State, t.link.hasPlace = true → Lawful c t (work t)) (s : State) :
    Lawful c s (s.taking f work) := by
  obtain h | ⟨u, steady, place, h⟩ := Steady.taking_cases s f work
  · exact .of_steady h
  · exact h ▸ .after steady (hw u place)

theorem setSegment (s : State) (k : Nat) (x : Segment) : Guarded s (s.setSegment k x) := .of_parts

theorem handleSegmentSet (body : List Byte) (s : State) : Guarded s (handleSegmentSet body s).1 ∧
    LinkUnit.Grows 0 s.link (Machine.handleSegmentSet body s).1.link ∧
    (Machine.handleSegmentSet body s).1.link.phase = s.link.phase := by
  unfold Machine.handleSegmentSet withBody
  split
  · exact ⟨.refl s, .refl _, rfl⟩
  · dsimp only
    split
    · exact ⟨setSegment s _ _, .refl _, rfl⟩
    · exact ⟨.refl s, .refl _, rfl⟩

theorem segmentSet (tag : Byte) (body : List Byte) (s : State) :
    Lawful (.segmentSet tag body) s (s.request 0x01 tag body .config Machine.handleSegmentSet) :=
  .taking _ (fun t place => by
    split
    · rename_i permitted
      obtain ⟨guarded, grows, phase⟩ := handleSegmentSet body t
      exact ⟨guarded.trans .of_parts, Steady.answerWith_link grows place _ _,
        fun ne => absurd ((LinkUnit.answer_phase ..).trans phase) ne,
        fun _ => .inl ⟨⟨tag, body, rfl⟩, by simpa [Allowed.permits] using permitted⟩⟩
    · exact .of_steady (.reply t _ place)) s

theorem enterRun_link (s : State) : s.enterRun.link = { s.link with phase := .run, restartDue := 0 } := by
  rw [State.enterRun_eq]
  rfl

theorem handleStart (body : List Byte) (s : State) : Guarded s (handleStart body s).1 ∧
    LinkUnit.Grows 0 s.link (Machine.handleStart body s).1.link ∧
    ((Machine.handleStart body s).1.link.phase = s.link.phase ∨ (Machine.handleStart body s).1.link.phase = .run) ∧
    (Machine.handleStart body s).1.hall.segments = s.hall.segments := by
  unfold Machine.handleStart withBody
  split
  · exact ⟨.refl s, .refl _, .inl rfl, rfl⟩
  · dsimp only
    split
    · exact ⟨.refl s, .refl _, .inl rfl, rfl⟩
    · refine ⟨.enterRun s, ?_, .inr ?_, ?_⟩
      · rw [enterRun_link]; exact ⟨le_rfl, le_rfl, le_max_left ..⟩
      · rw [enterRun_link]
      · rw [State.enterRun_hall]; rfl

theorem start (tag : Byte) (body : List Byte) (s : State) :
    Lawful (.start tag body) s (s.request 0x05 tag body .config Machine.handleStart) :=
  .taking _ (fun t place => by
    split
    · obtain ⟨guarded, grows, phase, segments⟩ := handleStart body t
      refine ⟨guarded.trans .of_parts, Steady.answerWith_link grows place _ _, fun ne => .inl ⟨tag, body, rfl, ?_⟩,
        fun ne => absurd segments ne⟩
      have answered : (State.answerWith (Machine.handleStart body t) 0x05 tag).link.phase =
        (Machine.handleStart body t).1.link.phase := LinkUnit.answer_phase ..
      exact answered.trans (phase.resolve_left fun e => ne (answered.trans e))
    · exact .of_steady (.reply t _ place)) s

/-- STOP answers the RESTARTs that wait, and holds a place itself. -/
theorem enterConfig_bounded (tag : Byte) (s : State) (place : s.link.hasPlace = true) (b : s.link.bounded) :
    (s.enterConfig tag).link.bounded := by
  have link : (s.enterConfig tag).link = { State.cancelLink s.link with phase := .config, stopping := some tag } := by
    rw [State.enterConfig_eq]; rfl
  have taken : s.link.placesTaken < Config.replyLimit := by simpa [LinkUnit.hasPlace] using place
  obtain ⟨input, places, notices⟩ := LinkUnit.Grows.answerAll { s.link with restarts := [], restartDue := 0 }
    (s.link.restarts.map State.cancelReply)
  rw [link]
  refine ⟨input.trans b.1, ?_, notices.trans (max_le b.2.2 le_rfl)⟩
  simp only [LinkUnit.placesTaken, List.length_map, List.length_nil, State.cancelLink, Option.isSome_some, if_true] at taken places ⊢
  omega

theorem stop (tag : Byte) (body : List Byte) (s : State) :
    Lawful (.stop tag body) s (s.later 0x06 tag body (fun t => t.enterConfig tag)) :=
  .taking _ (fun t place => by
    split
    · exact .of_steady (.reply t _ place)
    · split
      · exact .of_steady (.reply t _ place)
      · refine ⟨.enterConfig t tag, enterConfig_bounded tag t place, fun _ => .inr (.inl ⟨tag, body, rfl, ?_⟩),
          fun ne => absurd ?_ ne⟩
        · dsimp only; rw [State.enterConfig_eq]; rfl
        · dsimp only; rw [State.enterConfig_hall]) s

theorem of_next {u : State} (h : (Host.Outcome.next u : Host.Outcome State Fault Refusal) = .next t) (k : Lawful c s u) :
    Lawful c s t :=
  Host.Outcome.next.inj h ▸ k

/-- A steady command. -/
theorem steady {u : State} (h : (Host.Outcome.next u : Host.Outcome State Fault Refusal) = .next t) (k : Steady s u) :
    Lawful c s t :=
  of_next h (.of_steady k)

theorem exec {c : Instr} {s t : State} (h : exec c s = .next t) : Lawful c s t := by
  cases c with
  | powerOn rate1 rate0 => exact of_next h (.powerOn s rate1 rate0)
  | resetAssert => exact steady h ⟨.of_parts, rfl, rfl, id⟩
  | resetRelease rate1 rate0 => exact of_next h (.resetRelease s rate1 rate0)
  | segmentSet tag body => exact of_next h (.segmentSet tag body s)
  | partitionSet tag body => exact steady h (.request _ tag body _ Kept.handlePartitionSet s)
  | seatSet tag body => exact steady h (.request _ tag body _ Kept.handleSeatSet s)
  | boothSet tag body => exact steady h (.request _ tag body _ Kept.handleBoothSet s)
  | start tag body => exact of_next h (.start tag body s)
  | stop tag body => exact of_next h (.stop tag body s)
  | stopComplete => exact steady h (.whenDue .completeStop s)
  | restart tag body => exact steady h (.restart tag body s)
  | restartTakesEffect => exact steady h (.whenDue .restartIfDue s)
  | partitionDeclare tag body => exact steady h (.request _ tag body _ Kept.handlePartitionDeclare s)
  | roomSet tag body => exact steady h (.request _ tag body _ Kept.handleRoomSet s)
  | levelSet tag body => exact steady h (.request _ tag body _ Kept.handleLevelSet s)
  | languagesSet tag body => exact steady h (.request _ tag body _ Kept.handleLanguagesSet s)
  | sessionOpen tag body => exact steady h (.request _ tag body _ Kept.handleSessionOpen s)
  | sessionArm tag body => exact steady h (.request _ tag body _ Kept.handleSessionArm s)
  | sessionDisarm tag body => exact steady h (.request _ tag body _ Kept.handleSessionDisarm s)
  | sessionEnd tag body => exact steady h (.request _ tag body _ Kept.handleSessionEnd s)
  | roomQuery tag body => exact steady h (.request _ tag body _ Kept.handleRoomQuery s)
  | micOpen tag body => exact steady h (.request _ tag body _ Kept.handleMicOpen s)
  | micClose tag body => exact steady h (.request _ tag body _ Kept.handleMicClose s)
  | requestAdd tag body => exact steady h (.request _ tag body _ Kept.handleRequestAdd s)
  | requestCancel tag body => exact steady h (.request _ tag body _ Kept.handleRequestCancel s)
  | nextCandidate tag body => exact steady h (.request _ tag body _ Kept.handleNext s)
  | queueClear tag body => exact steady h (.request _ tag body _ Kept.handleQueueClear s)
  | seatTrim tag body => exact steady h (.request _ tag body _ Kept.handleSeatTrim s)
  | seatQuery tag body => exact steady h (.request _ tag body _ Kept.handleSeatQuery s)
  | queueQuery tag body => exact steady h (.request _ tag body _ Kept.handleQueueQuery s)
  | boothSource tag body => exact steady h (.request _ tag body _ Kept.handleBoothSource s)
  | boothTrim tag body => exact steady h (.request _ tag body _ Kept.handleBoothTrim s)
  | boothOff tag body => exact steady h (.request _ tag body _ Kept.handleBoothOff s)
  | boothQuery tag body => exact steady h (.request _ tag body _ Kept.handleBoothQuery s)
  | slotQuery tag body => exact steady h (.request _ tag body _ Kept.handleSlotQuery s)
  | groupSet tag body => exact steady h (.request _ tag body _ Kept.handleGroupSet s)
  | counterSet tag body => exact steady h (.request _ tag body _ Kept.handleCounterSet s)
  | counterRead tag body => exact steady h (.request _ tag body _ Kept.handleCounterRead s)
  | identify tag body => exact steady h (.request _ tag body _ Kept.handleIdentify s)
  | unknownKind kind tag body => exact steady h (.unknownKind kind tag body s)
  | inputFull kind tag body => exact steady h (.upToDate (.frameArrives ⟨kind, tag, body⟩) s)
  | linkFrameDiscard cause received => exact steady h (.upToDate (fun t => .discard t _ received) s)
  | linkFrameTimeout => exact steady h (.whenDue .timeout s)
  | frameSent => exact steady h (.upToDate .sent s)
  | settlingEvent input => exact steady h (.whenDue (.settlingEvent input) s)
  | blockBoundary sense audio => exact steady h (.whileUp (.boundary sense audio) s)
  | tableSwitch => exact steady h (.whileUp (fun t => .of_kept (Kept.switchIfDue (.refl t))) s)
  | roomTimerExpiry => exact steady h (.whenDue .nextTimer s)
  | holdOffEnd => exact steady h (.whenDue .nextHoldOff s)
  | speakingClockSecond => exact steady h (.whenDue .nextClock s)
  | rampSettle => exact steady h (.whileUp (fun t => .of_kept (Kept.nextRamp (.refl t))) s)
  | secondBoundary => exact steady h (.whenDue .secondIfDue s)
  | busExchange bus => exact steady h (.upToDate (.beginExchange bus.index) s)
  | unitReplyStatus bus presses held cls => exact steady h (.upToDate (.hear bus.index none presses.toNat held cls) s)
  | unitReplyAck bus acked presses held cls =>
    exact steady h (.upToDate (.hear bus.index (some acked) presses.toNat held cls) s)
  | exchangeMissed bus => exact steady h (.upToDate (fun t => .lapse t bus.index) s)
  | linkCharacterReceived char stopHigh => exact steady h (.upToDate (.receive char stopHigh) s)
  | requestFrameQueued kind tag body => exact steady h (.upToDate (.frameArrives ⟨kind, tag, body⟩) s)

end Lawful

/-- No command faults, and none is refused. -/
theorem exec_next (c : Instr) (s : State) : ∃ t, exec c s = .next t := by
  cases c <;> exact ⟨_, rfl⟩

/-- What every command keeps, every step keeps: it is the command in front with the queue's rest, or nothing at all. -/
theorem step_keeps {P : State → Prop} (hp : ∀ s cs, P s → P (s.setPending cs))
    (hc : ∀ c s t, exec c s = .next t → P s → P t) {s t : State} (h : P s) (hs : step s = .next t) : P t := by
  unfold step at hs
  split at hs
  · exact Host.Outcome.next.inj hs ▸ h
  · exact hc _ _ t hs (hp s _ h)

theorem guarded_setPending (s : State) (cs : List Instr) :
    (s.slotsOk → (s.setPending cs).slotsOk) ∧ (s.QueuesOk → (s.setPending cs).QueuesOk) ∧
    (s.OwnersOk → (s.setPending cs).OwnersOk) ∧ (s.ChannelsOk → (s.setPending cs).ChannelsOk) ∧
    (s.RoomsOk → (s.setPending cs).RoomsOk) :=
  ⟨id, fun h => h.of_hall rfl rfl, fun h => h.of_consoles rfl, fun h => h.of_dist rfl rfl, fun h => h.of_hall rfl rfl⟩

end Sys2Proof.Machine

open Sys2Proof.Machine

/-- Settles O56, by the command in front of the queue. -/
theorem stepKeepsUpstreamSlotsApart : Obligations.StepKeepsUpstreamSlotsApart := by
  unfold Obligations.StepKeepsUpstreamSlotsApart
  exact fun s t => step_keeps (fun s cs => (guarded_setPending s cs).1) fun c s t h => (Lawful.exec h).slots

/-- Settles O57, by the command in front of the queue. -/
theorem stepKeepsRoomsAndQueues : Obligations.StepKeepsRoomsAndQueues := by
  unfold Obligations.StepKeepsRoomsAndQueues
  exact ⟨fun s t => step_keeps (fun s cs => (guarded_setPending s cs).2.2.2.2) fun c s t h => (Lawful.exec h).rooms,
    fun s t => step_keeps (fun s cs => (guarded_setPending s cs).2.1) fun c s t h => (Lawful.exec h).queues⟩

/-- Settles O58, by the command in front of the queue. -/
theorem stepKeepsOwnersAndChannels : Obligations.StepKeepsOwnersAndChannels := by
  unfold Obligations.StepKeepsOwnersAndChannels
  exact ⟨fun s t => step_keeps (fun s cs => (guarded_setPending s cs).2.2.1) fun c s t h => (Lawful.exec h).owners,
    fun s t => step_keeps (fun s cs => (guarded_setPending s cs).2.2.2.1) fun c s t h => (Lawful.exec h).channels⟩

/-- Settles O59: a place of the reply list is taken only where one is free. -/
theorem stepKeepsTheLinkQueuesBounded : Obligations.StepKeepsTheLinkQueuesBounded := by
  unfold Obligations.StepKeepsTheLinkQueuesBounded
  exact fun s t => step_keeps (P := fun s => s.link.bounded) (fun _ _ => id) fun c s t h => (Lawful.exec h).link

/-- Settles O2: each arm of `exec` answers a state, and no work of a command touches the queue of waiting commands. -/
theorem everyCommandAnswersANextState : Obligations.EveryCommandAnswersANextState := by
  unfold Obligations.EveryCommandAnswersANextState
  intro c s
  obtain ⟨t, h⟩ := exec_next c s
  exact ⟨t, h, (Lawful.exec h).pending⟩

/-- Settles O50, by what each command may do to the phase and the segment records. -/
theorem phaseAndSegmentsChangeByTheirCommands : Obligations.PhaseAndSegmentsChangeByTheirCommands := by
  unfold Obligations.PhaseAndSegmentsChangeByTheirCommands
  exact ⟨fun c s t h => (Lawful.exec h).phase, fun c s t h => (Lawful.exec h).segments⟩
end

section
/-! SUPPORT. The pins (R202), the state after power-on, and the control link (chapter 11): frames that complete, characters that make
a frame, and what the transmitter sends. -/

namespace Sys2Proof.Machine

variable {s : State}

/-! ## Pins -/

/-- Every block of the started part stands at its power-on values (R202). -/
theorem State.started_atStart (cause : ReadyCause) (r1 r0 : Bool) (cs : List Instr) :
    (State.started cause r1 r0 cs).AtStart cause r1 r0 where
  resetHigh := rfl
  segments _ := rfl
  partitions _ := rfl
  settling _ := rfl
  rooms _ := rfl
  map _ := rfl
  seats _ := rfl
  groups _ := rfl
  stamps := rfl
  buses _ := rfl
  booths _ := rfl
  consoles _ := rfl
  tables := rfl
  routes := rfl
  counters _ := rfl
  seconds := rfl
  phase := rfl
  rates := ⟨rfl, rfl⟩
  receiver := rfl
  queues := ⟨rfl, rfl, rfl⟩
  lost := rfl
  ready := rfl
  waiting := ⟨rfl, rfl⟩

theorem State.whileUp_of_low (h : s.resetLow = true) (work : State → State) : s.whileUp work = s := if_pos h

theorem State.whileUp_of_high (h : s.resetLow = false) (work : State → State) : s.whileUp work = work s := by
  simp [State.whileUp, h]

section
variable (h : s.resetLow = true)
include h

theorem State.whenDue_of_low (work : State → State) : s.whenDue work = s := if_pos h

theorem State.upToDate_of_low (work : State → State) : s.upToDate work = s := if_pos h

theorem State.taking_of_low (f : Frame) (work : State → State) : s.taking f work = s := if_pos h

theorem State.request_of_low (kind tag : Byte) (body : List Byte) (allowed : Allowed)
    (handle : List Byte → State → State × Answer) : s.request kind tag body allowed handle = s := if_pos h

theorem State.later_of_low (kind tag : Byte) (body : List Byte) (work : State → State) : s.later kind tag body work = s := if_pos h

/-- While the RESET pin is low a command other than those of the pins is not carried out (R202; log 11). -/
theorem exec_of_low (c : Instr) (assert : c ≠ .resetAssert) (power : ∀ r1 r0, c ≠ .powerOn r1 r0)
    (release : ∀ r1 r0, c ≠ .resetRelease r1 r0) : exec c s = .next s := by
  cases c with
  | powerOn r1 r0 => exact absurd rfl (power r1 r0)
  | resetAssert => exact absurd rfl assert
  | resetRelease r1 r0 => exact absurd rfl (release r1 r0)
  | stop | restart => exact congrArg _ (State.later_of_low h ..)
  | unknownKind => exact congrArg _ (State.taking_of_low h ..)
  | stopComplete | restartTakesEffect | linkFrameTimeout | settlingEvent | roomTimerExpiry | holdOffEnd | speakingClockSecond
  | secondBoundary => exact congrArg _ (State.whenDue_of_low h _)
  | inputFull | linkFrameDiscard | frameSent | busExchange | unitReplyStatus | unitReplyAck | exchangeMissed
  | linkCharacterReceived | requestFrameQueued => exact congrArg _ (State.upToDate_of_low h _)
  | blockBoundary | tableSwitch | rampSettle => exact congrArg _ (State.whileUp_of_low h _)
  | _ => exact congrArg _ (State.request_of_low h ..)

end

/-! ## What is due does not read -/

theorem State.BoundaryDone.of_parts {t : State} (h : s.BoundaryDone) (rooms : t.hall.rooms = s.hall.rooms := by rfl)
    (dist : t.dist = s.dist := by rfl) : t.BoundaryDone :=
  ⟨by simpa only [State.roomsWith, rooms] using h.ramps, by rw [dist]; exact h.switch⟩

/-- A change of the queue of commands or of the receiver makes nothing due, but an overdue frame. -/
theorem State.NothingDue.setReceiver (h : s.NothingDue) (r : Receiver) (hr : r.overdue = false) :
    (s.setReceiver r).NothingDue :=
  ⟨h.toBoundaryDone.of_parts, hr, h.inputs, h.restart, h.timers, h.seats, h.counters, h.stopping⟩

theorem State.NothingDue.setPending (h : s.NothingDue) (cs : List Instr) : (s.setPending cs).NothingDue :=
  ⟨h.toBoundaryDone.of_parts, h.receiver, h.inputs, h.restart, h.timers, h.seats, h.counters, h.stopping⟩

/-! ## Frames and characters -/

theorem State.frameArrives_of_short {f : Frame} (h : f.body.length ≤ 240) :
    s.frameArrives f = (s.setReceiver .hunting).frameCompletes f :=
  if_neg (Nat.not_lt.2 h)

theorem exec_requestFrameQueued (hp : s.resetLow = false) (due : s.NothingDue) {f : Frame} (short : f.body.length ≤ 240) :
    exec (.requestFrameQueued f.kind f.tag f.body) s = .next ((s.setReceiver .hunting).frameCompletes f) := by
  have work : s.upToDate (fun t => t.frameArrives f) = s.frameArrives f := State.upToDate_of_nothingDue hp due _
  rw [State.frameArrives_of_short short] at work
  exact congrArg Host.Outcome.next work

theorem exec_linkCharacterReceived (hp : s.resetLow = false) (due : s.NothingDue) (c : Byte) (high : Bool) :
    exec (.linkCharacterReceived c high) s = .next (s.receive c high) :=
  congrArg Host.Outcome.next (State.upToDate_of_nothingDue hp due _)

/-- In HUNTING a start byte opens a frame. -/
theorem State.receive_hunting (h : s.link.receiver = .hunting) (c : Byte) (high : Bool) :
    s.receive c high = if high && c = 0xA5 then s.setReceiver (.inFrame [] 0) else s := by
  have timeout : s.timeout = s := State.timeout_of_not_overdue (by rw [h]; rfl)
  unfold State.receive
  rw [timeout, h]

/-- In IN_FRAME at no boundary yet the character is taken. -/
theorem State.receive_inFrame (h : s.link.receiver = .inFrame bytes 0) (c : Byte) (high : Bool) :
    s.receive c high = s.takeInFrame bytes 0 c high := by
  have timeout : s.timeout = s := State.timeout_of_not_overdue (by rw [h]; rfl)
  unfold State.receive
  rw [timeout, h]

section
variable {f : Frame}

theorem lengthByte_toNat (short : f.body.length ≤ 240) : (byteOf (f.body.length + 2)).toNat = f.body.length + 2 :=
  byteOf_toNat (by omega)

theorem frameTail_length : (frameTail f).length = f.body.length + 5 := by
  simp [frameTail, checkBytes]

/-- The first of the bytes after the start byte says how many there are. -/
theorem frameTail_prefix_head {pre post : List Byte} (h : pre ++ post = frameTail f) (hp : pre ≠ []) :
    pre.getD 0 0 = byteOf (f.body.length + 2) := by
  cases pre with
  | nil => exact absurd rfl hp
  | cons b bs => exact (List.cons.inj h).1

/-- The bytes of a frame are read back as they were written. -/
theorem frameOf_frameTail (short : f.body.length ≤ 240) : frameOf (frameTail f) = f := by
  have body : (f.body ++ checkBytes (byteOf (f.body.length + 2) :: f.kind :: f.tag :: f.body)).take f.body.length = f.body :=
    List.take_left
  simp only [frameOf, frameTail, List.cons_append, List.getD_cons_zero, List.getD_cons_succ, List.drop_succ_cons, List.drop_zero,
    lengthByte_toNat short, Nat.add_sub_cancel, body]

theorem covered_frameTail (short : f.body.length ≤ 240) :
    covered (frameTail f) = byteOf (f.body.length + 2) :: f.kind :: f.tag :: f.body := by
  unfold covered
  rw [frameTail_prefix_head (List.append_nil _) (by simp [frameTail]), lengthByte_toNat short]
  exact List.take_left' (by simp only [List.length_cons]; omega)

theorem check_frameTail (short : f.body.length ≤ 240) :
    checkBytes (covered (frameTail f)) = (frameTail f).drop (1 + ((frameTail f).getD 0 0).toNat) := by
  rw [covered_frameTail short, frameTail_prefix_head (List.append_nil _) (by simp [frameTail]), lengthByte_toNat short]
  exact (List.drop_left' (by simp only [List.length_cons]; omega)).symm

/-- A character of a frame that is not the last is kept. -/
theorem State.takeInFrame_of_more {pre post : List Byte} {c : Byte} (short : f.body.length ≤ 240)
    (h : pre ++ c :: post = frameTail f) (more : post ≠ []) :
    s.takeInFrame pre 0 c true = s.setReceiver (.inFrame (pre ++ [c]) 0) := by
  have head : (pre ++ [c]).getD 0 0 = byteOf (f.body.length + 2) :=
    frameTail_prefix_head (post := post) (by simpa using h) (by simp)
  have length : (pre ++ [c]).length + post.length = f.body.length + 5 := by
    rw [← frameTail_length, ← h]; simp only [List.length_append, List.length_cons, List.length_nil]; omega
  have first : ¬ (pre = [] && (c.toNat < 2 || 242 < c.toNat)) = true := by
    simp only [Bool.and_eq_true, Bool.or_eq_true, decide_eq_true_eq]
    rintro ⟨rfl, out⟩
    have hc : c = byteOf (f.body.length + 2) := by simpa using head
    rw [hc, lengthByte_toNat short] at out
    omega
  have posLen := List.length_pos_iff.2 more
  unfold State.takeInFrame; dsimp only
  rw [if_neg (by simp), if_neg first, if_pos (by rw [head, lengthByte_toNat short]; omega)]

/-- The last character of a frame completes it. -/
theorem State.takeInFrame_of_last {pre : List Byte} {c : Byte} (short : f.body.length ≤ 240) (h : pre ++ [c] = frameTail f) :
    s.takeInFrame pre 0 c true = (s.setReceiver .hunting).frameCompletes f := by
  have head : (pre ++ [c]).getD 0 0 = byteOf (f.body.length + 2) := frameTail_prefix_head (post := []) (by simpa using h) (by simp)
  have length : (pre ++ [c]).length = f.body.length + 5 := by rw [h, frameTail_length]
  have notFirst : ¬ (pre = [] && (c.toNat < 2 || 242 < c.toNat)) = true := by
    simp only [Bool.and_eq_true, decide_eq_true_eq]
    rintro ⟨rfl, -⟩
    simp only [List.nil_append, List.length_singleton] at length
    omega
  unfold State.takeInFrame; dsimp only
  rw [if_neg (by simp), if_neg notFirst, if_neg (by rw [head, lengthByte_toNat short]; omega), h,
    if_pos (check_frameTail short), frameOf_frameTail short]

/-- A step on a character. -/
theorem run_character (hp : s.resetLow = false) (due : s.NothingDue) (c : Byte) (cs : List Instr) (n : Nat) :
    Host.Core.run Sys2Proof.core (n + 1) (s.setPending (.linkCharacterReceived c true :: cs)) =
      Host.Core.run Sys2Proof.core n ((s.setPending cs).receive c true) := by
  have stepped : step (s.setPending (.linkCharacterReceived c true :: cs)) = .next ((s.setPending cs).receive c true) :=
    exec_linkCharacterReceived (s := s.setPending cs) hp (due.setPending cs) c true
  show (match step (s.setPending (.linkCharacterReceived c true :: cs)) with
    | .next s' => Host.Core.run Sys2Proof.core n s'
    | .fault r => .fault r
    | .refused r => .refused r) = _
  rw [stepped]

/-- The rest of a frame's characters completes it. -/
theorem run_rest (short : f.body.length ≤ 240) (hp : s.resetLow = false) (due : s.NothingDue) (cs : List Instr)
    (pre post : List Byte) (h : pre ++ post = frameTail f) (more : post ≠ []) :
    Host.Core.run Sys2Proof.core post.length ((s.setReceiver (.inFrame pre 0)).setPending
        (post.map (fun c => Instr.linkCharacterReceived c true) ++ cs)) =
      .next (((s.setPending cs).setReceiver .hunting).frameCompletes f) := by
  induction post generalizing pre with
  | nil => exact absurd rfl more
  | cons c post ih =>
    have framed : (s.setReceiver (.inFrame pre 0)).NothingDue := due.setReceiver _ rfl
    rw [List.map_cons, List.cons_append, List.length_cons, run_character (s := s.setReceiver (.inFrame pre 0)) hp framed,
      State.receive_inFrame (bytes := pre) rfl]
    cases post with
    | nil =>
      rw [State.takeInFrame_of_last short h]
      rfl
    | cons d post =>
      rw [State.takeInFrame_of_more short h (by simp)]
      exact ih (pre ++ [c]) (by simpa using h) (by simp)

end

end Sys2Proof.Machine

open Sys2Proof.Machine

/-- Settles O1: `step` reads the queue's front. -/
theorem stepRunsTheCommandInFront : Obligations.StepRunsTheCommandInFront := by
  unfold Obligations.StepRunsTheCommandInFront step
  exact ⟨fun c cs s h => by rw [h], fun s h => by rw [h]⟩

/-- Settles O3. -/
theorem pinsStartAndHoldThePart : Obligations.PinsStartAndHoldThePart := by
  unfold Obligations.PinsStartAndHoldThePart
  refine ⟨fun r1 r0 s high => ⟨_, rfl, ?_⟩, fun r1 r0 s low => ⟨_, rfl, ?_⟩, fun r1 r0 s low => ⟨_, rfl, ?_⟩, fun s => rfl,
    fun c s low assert power release => exec_of_low low c assert power release⟩
  · have started : s.powerOn r1 r0 = State.started .power r1 r0 s.pending := by simp [State.powerOn, high]
    rw [started]
    exact State.started_atStart ..
  · have started : s.powerOn r1 r0 = { State.started .power r1 r0 s.pending with
        resetLow := true, link := LinkUnit.startedLow .power r1 r0 } := by simp [State.powerOn, low]
    rw [started]
    exact ⟨rfl, rfl, State.started_atStart .power r1 r0 s.pending⟩
  · rw [if_pos low]
    exact State.started_atStart ..

/-- Settles O51: every byte is kept until the last, and then the check passes and the frame is read back. -/
theorem charactersOfAFrameMakeTheFrame : Obligations.CharactersOfAFrameMakeTheFrame := by
  unfold Obligations.CharactersOfAFrameMakeTheFrame
  refine ⟨fun s c high hp due hunting => ?_, fun f s cs short hp due hunting => ?_⟩
  · rw [exec_linkCharacterReceived hp due, State.receive_hunting hunting]
    congr 1
    simp only [Bool.and_eq_true, decide_eq_true_eq, and_comm]
    rfl
  · have opened : ∀ is, (s.setPending is).receive 0xA5#8 true = (s.setReceiver (.inFrame [] 0)).setPending is := fun is =>
      State.receive_hunting (s := s.setPending is) hunting 0xA5#8 true
    rw [exec_requestFrameQueued (s := s.setPending cs) hp (due.setPending cs) short, frameBytes, List.length_cons, List.map_cons,
      List.cons_append, run_character hp due, opened]
    exact run_rest short hp due cs [] (frameTail f) rfl (by simp [frameTail])

/-- Settles O52. -/
theorem framesAreQueuedOrRefused : Obligations.FramesAreQueuedOrRefused := by
  unfold Obligations.FramesAreQueuedOrRefused
  refine ⟨fun s kind tag body hp due short => ?_, fun s cause n hp due => ?_, fun s bytes n hp done receiver => ?_,
    fun s kind tag body take unknown => ?_⟩
  · have arrived := exec_requestFrameQueued (f := ⟨kind, tag, body⟩) hp due short
    refine ⟨fun free => ?_, fun full => ⟨rfl, fun place => ?_, fun none => ?_⟩⟩
    · refine arrived.trans (congrArg Host.Outcome.next ?_)
      exact if_pos free
    · refine arrived.trans (congrArg Host.Outcome.next ?_)
      exact (if_neg (Nat.not_lt.2 full)).trans (if_pos (decide_eq_true place))
    · refine arrived.trans (congrArg Host.Outcome.next ?_)
      exact (if_neg (Nat.not_lt.2 full)).trans (if_neg fun place => Nat.not_lt.2 none (of_decide_eq_true place))
  · refine congrArg Host.Outcome.next ((State.upToDate_of_nothingDue hp due _).trans ?_)
    cases cause <;> rfl
  · have worked := State.whenDue_of_boundaryDone hp done State.timeout
    have timeout : s.timeout = if 20 ≤ n then s.discard .timeout (bytes.length + 1) else s := by
      unfold State.timeout
      rw [receiver]
    refine ⟨fun late => congrArg Host.Outcome.next (worked.trans ?_), fun early => congrArg Host.Outcome.next (worked.trans ?_)⟩
    · rw [timeout, if_pos late]; rfl
    · rw [timeout, if_neg (Nat.not_le.2 early)]
  · have names : kindNamesRequest kind = false := by
      rcases unknown with rfl | high
      · decide
      · simp [kindNamesRequest, high]
    refine congrArg Host.Outcome.next ((State.taking_of_canTake take _).trans ?_)
    exact if_neg (by simp [names])

/-- Settles O54: the three cases of the transmitter. -/
theorem theTransmitterSendsRepliesFirst : Obligations.TheTransmitterSendsRepliesFirst := by
  unfold Obligations.TheTransmitterSendsRepliesFirst
  intro s f hp due sending
  have sent : exec .frameSent s = .next { s with link := s.link.startNext } := by
    refine congrArg Host.Outcome.next ((State.upToDate_of_nothingDue hp due _).trans ?_)
    unfold State.sent
    rw [sending]
  rw [sent]
  refine ⟨fun r rs replies => ?_, fun n ns replies notices => ?_, fun replies notices => ?_⟩
  · simp only [LinkUnit.startNext, replies]
  · simp only [LinkUnit.startNext, replies, notices]
  · simp only [LinkUnit.startNext, replies, notices]

/-- Settles O60: without rooms, seats, consoles and channels there is nothing out of order. -/
theorem resetMeetsTheInvariants : Obligations.ResetMeetsTheInvariants := by
  unfold Obligations.ResetMeetsTheInvariants
  have initialLevels : Segment.initial.levelsOk := by constructor <;> decide
  have initialWall : Partition.initial.effective = effectiveOf Partition.initial := by decide
  have noRoom : ∀ a r, State.reset.room a ≠ some r := fun _ _ h => nomatch h
  have noSlot : ∀ n k, (State.reset.seat n).slot ≠ some k := fun _ _ h => nomatch h
  exact {
    levels := ⟨fun _ => initialLevels, fun a r h => absurd h (noRoom a r)⟩
    slots := ⟨rfl, fun n k h => absurd h (noSlot n k), fun n _ k _ _ h => absurd h (noSlot n k)⟩
    settling := fun _ => Nat.zero_le _
    walls := fun _ => initialWall
    queues := .of_empty fun a r h => absurd h (noRoom a r)
    owners := .of_free rfl fun _ => ⟨rfl, nofun, nofun⟩
    channels := .of_empty rfl rfl
    rooms := .of_empty rfl rfl
    link := Lawful.started_bounded .power false false }
end

section
/-! SUPPORT. The operands of the requests: what a reader makes of a body, and when it refuses it; and how a handler's answer leaves
the part. -/

namespace Sys2Proof.Machine

/-! ## Single fields -/

section
variable {α : Type} {values : List α} {b : List Byte} {i n : Nat}

theorem sized_of_length (h : b.length = n) : sized n b = some () := if_pos h

theorem sized_of_ne (h : b.length ≠ n) : sized n b = none := if_neg h

theorem codedAt_eq_none : codedAt values b i = none ↔ values.length ≤ byteAt b i := List.getElem?_eq_none_iff

theorem codedAt_of_lt (h : byteAt b i < values.length) : codedAt values b i = some values[byteAt b i] :=
  List.getElem?_eq_getElem h

theorem yesNoAt_eq_none : yesNoAt b i = none ↔ 1 < byteAt b i := by
  rw [yesNoAt, codedAt_eq_none]
  rfl

theorem yesNoAt_of_le (h : byteAt b i ≤ 1) : yesNoAt b i = some (decide (byteAt b i = 1)) := by
  unfold yesNoAt codedAt
  generalize byteAt b i = k at h
  interval_cases k <;> rfl

theorem chosen_eq_none {sel : Nat → Bool} {k : Nat} {old : α} {new : Option α} :
    chosen sel k old new = none ↔ sel k = true ∧ new = none := by
  unfold chosen
  split <;> simp_all

theorem chosen_eq_some {sel : Nat → Bool} {k : Nat} {old v : α} {new : Option α} :
    chosen sel k old new = some v ↔ if sel k then new = some v else old = v := by
  unfold chosen
  split <;> simp

end

/-! ## The room profile (R20, R21, R205) -/

section
variable {sel : Nat → Bool} {old p : Profile} {b : List Byte}

/-- The codes of the language set in a body. -/
def codesAt (b : List Byte) : List Nat := ((b.drop 16).take (byteAt b 15)).map BitVec.toNat

theorem codesAt_length_le (b : List Byte) : (codesAt b).length ≤ byteAt b 15 := by
  simp [codesAt]

theorem languagesRight_iff {codes : List Nat} :
    languagesRight codes = true ↔ codes.length ≤ 8 ∧ (∀ c ∈ codes, 1 ≤ c ∧ c ≤ 63) ∧ codes.Nodup := by
  simp [languagesRight, and_assoc]

theorem languagesAt_eq_some {codes : List Nat} :
    languagesAt b = some codes ↔ byteAt b 15 ≤ 8 ∧ languagesRight codes = true ∧ codes = codesAt b := by
  unfold languagesAt; dsimp only
  rw [← codesAt]
  simp only [Bool.and_eq_true, decide_eq_true_eq, ite_eq_iff, Option.some.injEq, reduceCtorEq, and_false, or_false]
  constructor
  · rintro ⟨⟨few, right⟩, rfl⟩
    exact ⟨few, right, rfl⟩
  · rintro ⟨few, right, rfl⟩
    exact ⟨⟨few, right⟩, rfl⟩

theorem languagesAt_eq_none : languagesAt b = none ↔
    8 < byteAt b 15 ∨ (∃ c ∈ codesAt b, c = 0 ∨ 63 < c) ∨ ¬ (codesAt b).Nodup := by
  rw [← not_iff_not, ← ne_eq, Option.ne_none_iff_exists']
  simp only [languagesAt_eq_some, languagesRight_iff, not_or, not_exists, not_and, Nat.not_lt, not_not]
  constructor
  · rintro ⟨codes, few, ⟨-, range, nodup⟩, rfl⟩
    exact ⟨few, fun c hc => by have := range c hc; omega, nodup⟩
  · rintro ⟨few, range, nodup⟩
    exact ⟨codesAt b, few, ⟨(codesAt_length_le b).trans few, fun c hc => by have := range c hc; omega, nodup⟩, rfl⟩

/-- The fields that a profile read has, one by one. -/
structure ProfileRead (sel : Nat → Bool) (old p : Profile) (b : List Byte) : Prop where
  floorMode : chosen sel 0 old.floorMode (codedAt [.openFloor, .request, .chair] b 0) = some p.floorMode
  overflow : chosen sel 3 old.overflow (codedAt [.queue, .refuse] b 3) = some p.overflow
  mayClose : chosen sel 4 old.mayClose (yesNoAt b 4) = some p.mayClose
  mayCancel : chosen sel 5 old.mayCancel (yesNoAt b 5) = some p.mayCancel
  service : chosen sel 6 old.service (codedAt [.arrival, .rotating] b 6) = some p.service
  action : chosen sel 7 old.action (codedAt [.muteAll, .closeAll, .closeAndClear] b 7) = some p.action
  limitAction : chosen sel 10 old.limitAction (codedAt [.close, .notify] b 11) = some p.limitAction
  contention : chosen sel 13 old.contention (codedAt [.interlock, .takeover] b 14) = some p.contention
  languages : chosen sel 14 old.languages (languagesAt b) = some p.languages
  openLimit : p.openLimit = if sel 1 then clampNat 1 8 (byteAt b 1) else old.openLimit
  chairLimit : p.chairLimit = if sel 2 then clampNat 1 4 (byteAt b 2) else old.chairLimit
  speakingLimit : p.speakingLimit = if sel 8 then clampSpeaking (word16At b 8) else old.speakingLimit
  warningLead : p.warningLead = if sel 9 then clampNat 0 60 (byteAt b 10) else old.warningLead
  level : p.level = if sel 11 then clampInt (-120) 0 (stepsAt b 12) else old.level
  fill : p.fill = if sel 12 then fillOf (stepsAt b 13) else old.fill

theorem profileFrom_eq_some : profileFrom sel old b = some p ↔ ProfileRead sel old p b := by
  constructor
  · intro h
    unfold profileFrom at h
    split at h
    · obtain rfl := Option.some.inj h
      constructor <;> first | assumption | rfl
    · cases h
  · rintro ⟨h0, h3, h4, h5, h6, h7, h10, h13, h14, h1, h2, h8, h9, h11, h12⟩
    unfold profileFrom
    rw [h0, h3, h4, h5, h6, h7, h10, h13, h14]
    simp only [← h1, ← h2, ← h8, ← h9, ← h11, ← h12]

/-- A profile is refused exactly for a selected field with a structural error. -/
theorem profileFrom_eq_none : profileFrom sel old b = none ↔
    (sel 0 = true ∧ 2 < byteAt b 0) ∨ (sel 3 = true ∧ 1 < byteAt b 3) ∨ (sel 4 = true ∧ 1 < byteAt b 4) ∨
    (sel 5 = true ∧ 1 < byteAt b 5) ∨ (sel 6 = true ∧ 1 < byteAt b 6) ∨ (sel 7 = true ∧ 2 < byteAt b 7) ∨
    (sel 10 = true ∧ 1 < byteAt b 11) ∨ (sel 13 = true ∧ 1 < byteAt b 14) ∨ (sel 14 = true ∧ languagesAt b = none) := by
  have two : ∀ {α : Type} {x y : α} {i : Nat}, codedAt [x, y] b i = none ↔ 1 < byteAt b i := fun {_ _ _ _} => codedAt_eq_none
  have three : ∀ {α : Type} {x y z : α} {i : Nat}, codedAt [x, y, z] b i = none ↔ 2 < byteAt b i :=
    fun {_ _ _ _ _} => codedAt_eq_none
  have all : profileFrom sel old b = none ↔
      chosen sel 0 old.floorMode (codedAt [.openFloor, .request, .chair] b 0) = none ∨
      chosen sel 3 old.overflow (codedAt [.queue, .refuse] b 3) = none ∨
      chosen sel 4 old.mayClose (yesNoAt b 4) = none ∨ chosen sel 5 old.mayCancel (yesNoAt b 5) = none ∨
      chosen sel 6 old.service (codedAt [.arrival, .rotating] b 6) = none ∨
      chosen sel 7 old.action (codedAt [.muteAll, .closeAll, .closeAndClear] b 7) = none ∨
      chosen sel 10 old.limitAction (codedAt [.close, .notify] b 11) = none ∨
      chosen sel 13 old.contention (codedAt [.interlock, .takeover] b 14) = none ∨
      chosen sel 14 old.languages (languagesAt b) = none := by
    unfold profileFrom
    split
    · rename_i h0 h3 h4 h5 h6 h7 h10 h13 h14
      simp only [h0, h3, h4, h5, h6, h7, h10, h13, h14, reduceCtorEq, or_self]
    · rename_i noneLeft
      refine iff_of_true rfl ?_
      by_contra right
      simp only [not_or, ← ne_eq, Option.ne_none_iff_exists'] at right
      obtain ⟨⟨_, h0⟩, ⟨_, h3⟩, ⟨_, h4⟩, ⟨_, h5⟩, ⟨_, h6⟩, ⟨_, h7⟩, ⟨_, h10⟩, ⟨_, h13⟩, ⟨_, h14⟩⟩ := right
      exact noneLeft _ _ _ _ _ _ _ _ _ h0 h3 h4 h5 h6 h7 h10 h13 h14
  simp only [all, chosen_eq_none, two, three, yesNoAt_eq_none]

/-- A profile whose 24 bytes are all read does not depend on what stood there. -/
theorem profileFrom_allFields (old old' : Profile) : profileFrom allFields old b = profileFrom allFields old' b := rfl

end

/-! ## Answers -/

section
variable {s : State} {kind tag : Byte} {body : List Byte} {allowed : Allowed} {handle : List Byte → State → State × Answer}

/-- A request that its handler answers without a change of the state. -/
theorem State.request_of_answer (take : s.CanTake ⟨kind, tag, body⟩) (phase : allowed.permits s.link.phase = true) {ans : Answer}
    (h : handle body s.popInput = (s.popInput, ans)) : s.request kind tag body allowed handle = s.served ⟨kind, tag, ans⟩ := by
  rw [State.request_of_permits take phase, h]
  rfl

/-- A request that its handler refuses. -/
theorem State.request_of_refuse (take : s.CanTake ⟨kind, tag, body⟩) (phase : allowed.permits s.link.phase = true) {x : Status}
    (h : handle body s.popInput = refuse s.popInput x) :
    s.request kind tag body allowed handle = s.served ⟨kind, tag, .refuse x⟩ :=
  State.request_of_answer take phase h

end

end Sys2Proof.Machine
end

section
/-! SUPPORT. The requests that read or store one record: the queries, SEAT_SET and the trims, the counter requests, and
SEGMENT_SET (O4, O15, O19, O46). -/

namespace Sys2Proof.Machine

variable {s : State} {tag : Byte} {body : List Byte}

/-! ## Numbers that a request names -/

theorem seatNumberOk_iff {n : Nat} : seatNumberOk n = true ↔ n ≤ 1023 ∧ 1 ≤ n % 256 ∧ n % 256 ≤ 240 := by
  simp only [seatNumberOk, Bool.and_eq_true, decide_eq_true_eq, and_assoc]
  exact and_congr_left' Nat.lt_succ_iff

theorem seatNumberOk_eq_false {n : Nat} : seatNumberOk n = false ↔ 1023 < n ∨ n % 256 = 0 ∨ 240 < n % 256 := by
  rw [← Bool.not_eq_true, seatNumberOk_iff]
  omega

theorem segmentOk_iff {k : Nat} : segmentOk k = true ↔ 1 ≤ k ∧ k ≤ 12 := by simp [segmentOk]

theorem segmentOk_eq_false {k : Nat} : segmentOk k = false ↔ k < 1 ∨ 12 < k := by
  rw [← Bool.not_eq_true, segmentOk_iff]
  omega

theorem boothOk_iff {b : Nat} : boothOk b = true ↔ 1 ≤ b ∧ b ≤ 24 := by simp [boothOk]

theorem boothOk_eq_false {b : Nat} : boothOk b = false ↔ b < 1 ∨ 24 < b := by
  rw [← Bool.not_eq_true, boothOk_iff]
  omega

theorem counterOk_iff {c : Nat} : counterOk c = true ↔ 1 ≤ c ∧ c ≤ 8 := by simp [counterOk]

theorem partitionOk_iff {p : Nat} : partitionOk p = true ↔ 1 ≤ p ∧ p ≤ 16 := by simp [partitionOk]

namespace State

/-- A seat number that is out of range is refused. -/
theorem onSeat_of_outside {n : Nat} (h : seatNumberOk n = false) (f : Seat → State × Answer) :
    s.onSeat n f = refuse s .badValue := by
  simp [onSeat, h]

theorem onSeat_of_not_installed {n : Nat} (h : seatNumberOk n = true) (hi : (s.seat n).installed = false)
    (f : Seat → State × Answer) : s.onSeat n f = refuse s .notInstalled := by
  simp [onSeat, h, hi]

theorem onBooth_of_outside {b : Nat} (h : boothOk b = false) (f : Booth → State × Answer) :
    s.onBooth b f = refuse s .badValue := by
  simp [onBooth, h]

theorem onBooth_of_not_installed {b : Nat} (h : boothOk b = true) (hi : (s.boothAt b).installed = false)
    (f : Booth → State × Answer) : s.onBooth b f = refuse s .notInstalled := by
  simp [onBooth, h, hi]

theorem inRoom_of_outside {k : Nat} (h : segmentOk k = false) (f : Room → State × Answer) :
    s.inRoom k f = refuse s .badValue := by
  simp [inRoom, h]

theorem inRoom_of_not_installed {k : Nat} (h : segmentOk k = true) (hi : (s.segment k).installed = false)
    (f : Room → State × Answer) : s.inRoom k f = refuse s .notInstalled := by
  simp [inRoom, h, hi]

end State

/-! ## SEAT_SET and the trims -/

/-- A trim is clamped to 12 steps either way. -/
theorem clampTrim_eq (x : Int) : clampTrim x = max (-12) (min 12 x) := clampInt_eq _ _ _ (by decide)

section
variable {b0 b1 ib cb kb xb : Byte}

theorem readSeatSet_of_right (hi : ib.toNat ≤ 1) (hc : cb.toNat ≤ 1) : readSeatSet [b0, b1, ib, cb, kb, xb] =
    some { seat := word16 b0 b1, installed := decide (ib = 1), cls := if cb = 0 then .delegate else .chair,
           segment := kb.toNat, trim := xb.toInt } := by
  have installed : yesNoAt [b0, b1, ib, cb, kb, xb] 2 = some (decide (ib = 1)) := by
    rw [yesNoAt_of_le (b := [b0, b1, ib, cb, kb, xb]) (i := 2) hi]
    exact congrArg some (decide_eq_decide.2 (by rw [← BitVec.toNat_inj]; rfl))
  have cls : codedAt [SeatClass.delegate, .chair] [b0, b1, ib, cb, kb, xb] 3 = some (if cb = 0 then .delegate else .chair) := by
    show [SeatClass.delegate, .chair][cb.toNat]? = _
    obtain rfl | rfl : cb = 0 ∨ cb = 1 := by
      rw [← BitVec.toNat_inj, ← BitVec.toNat_inj]
      exact Nat.le_one_iff_eq_zero_or_eq_one.1 hc
    · rfl
    · rfl
  unfold readSeatSet
  rw [installed, cls]
  rfl

theorem handleSeatTrim_eq : handleSeatTrim [b0, b1, xb] s = s.onSeat (word16 b0 b1) fun seat =>
    (s.setSeat (word16 b0 b1) { seat with trim := clampTrim xb.toInt }, .okClamped (clampTrim xb.toInt ≠ xb.toInt) .nothing) := rfl

theorem handleBoothTrim_eq : handleBoothTrim [b0, xb] s = s.onBooth b0.toNat fun booth =>
    (s.setBooth b0.toNat { booth with trim := clampTrim xb.toInt }, .okClamped (clampTrim xb.toInt ≠ xb.toInt) .nothing) := rfl

theorem readSeatSet_of_wrong (h : 1 < ib.toNat ∨ 1 < cb.toNat) : readSeatSet [b0, b1, ib, cb, kb, xb] = none := by
  unfold readSeatSet
  rcases h with h | h
  · rw [yesNoAt_eq_none.2 (show 1 < byteAt [b0, b1, ib, cb, kb, xb] 2 from h)]
    rfl
  · rw [codedAt_eq_none.2 (show [SeatClass.delegate, .chair].length ≤ byteAt [b0, b1, ib, cb, kb, xb] 3 from h)]
    split <;> simp_all

end

/-- SLOT_QUERY with a downstream slot in range. -/
theorem handleSlotQuery_slot {b : Byte} (h : b.toNat ≤ 63) :
    handleSlotQuery [0, b] s = (s, .ok (.slotReport (s.slotReport false b.toNat))) :=
  if_neg (show ¬ decide (63 < b.toNat) = true by simpa using h)

/-- SLOT_QUERY with an upstream slot in range. -/
theorem handleSlotQuery_channel {b : Byte} (h1 : 1 ≤ b.toNat) (h2 : b.toNat ≤ 96) :
    handleSlotQuery [1, b] s = (s, .ok (.slotReport (s.slotReport true b.toNat))) :=
  if_neg (show ¬ (decide (b.toNat < 1) || decide (96 < b.toNat)) = true by simp; omega)

/-! ## Counters -/

theorem readCounterSet_eq_some {c : Nat} {x : Counter} {clamped : Bool} (h : readCounterSet body = some (c, x, clamped)) :
    x.threshold = min 255 (word16At body 6) ∧ clamped = decide (255 < word16At body 6) ∧ x.edge = false ∧ x.tally = 0 ∧
      x.value = word32At body 11 := by
  unfold readCounterSet at h
  split at h
  · simp only [Option.some.injEq, Prod.mk.injEq] at h
    obtain ⟨-, rfl, rfl⟩ := h
    exact ⟨rfl, rfl, rfl, rfl, rfl⟩
  · cases h

/-- The checks of R182 on a scope and an action. -/
theorem Counter.fits_iff {x : Counter} :
    x.fits = true ↔ x.scope.inRange = true ∧ (x.action = .notice ∨ ∃ g, x.scope = .group g) := by
  unfold Counter.fits
  cases x.scope <;> simp

/-! ## SEGMENT_SET -/

/-- What a profile read whole says of its numbers: one was clamped, or each stands as it was given (R21). -/
theorem profileClamps_allFields {old p : Profile} {b : List Byte} (h : ProfileRead allFields old p b) :
    profileClamps allFields b = true ↔ p.openLimit ≠ byteAt b 1 ∨ p.chairLimit ≠ byteAt b 2 ∨
      p.speakingLimit ≠ word16At b 8 ∨ p.warningLead ≠ byteAt b 10 ∨ p.level ≠ stepsAt b 12 ∨
      p.fill ≠ none ∧ p.fill ≠ some (stepsAt b 13) := by
  have fill : p.fill ≠ none ∧ p.fill ≠ some (stepsAt b 13) ↔
      stepsAt b 13 ≠ -128 ∧ clampInt (-40) 0 (stepsAt b 13) ≠ stepsAt b 13 := by
    rw [h.fill]
    simp only [allFields, if_true, fillOf]
    split
    · simp_all
    · simp_all
  rw [fill, h.openLimit, h.chairLimit, h.speakingLimit, h.warningLead, h.level]
  simp only [profileClamps, allFields, Bool.true_and, Bool.or_eq_true, Bool.and_eq_true, decide_eq_true_eq, if_true, or_assoc]

section
variable {α : Type} {x y z v old : α} {sel : Nat → Bool} {k i : Nat} {b : List Byte}

theorem chosen_codedAt_two (h : chosen sel k old (codedAt [x, y] b i) = some v) :
    v = if sel k then (if byteAt b i = 0 then x else y) else old := by
  rw [chosen_eq_some] at h
  split at h
  · rw [if_pos ‹_›]
    unfold codedAt at h
    generalize byteAt b i = n at h
    rcases n with _ | _ | n <;> simp_all
  · rw [if_neg ‹_›, h]

theorem chosen_codedAt_three (h : chosen sel k old (codedAt [x, y, z] b i) = some v) :
    v = if sel k then (if byteAt b i = 0 then x else if byteAt b i = 1 then y else z) else old := by
  rw [chosen_eq_some] at h
  split at h
  · rw [if_pos ‹_›]
    unfold codedAt at h
    generalize byteAt b i = n at h
    rcases n with _ | _ | _ | n <;> simp_all
  · rw [if_neg ‹_›, h]

theorem chosen_yesNoAt {v old : Bool} (h : chosen sel k old (yesNoAt b i) = some v) :
    v = if sel k then decide (byteAt b i = 1) else old := by
  rw [chosen_eq_some] at h
  split at h
  · rw [if_pos ‹_›]
    by_cases le : byteAt b i ≤ 1
    · exact (Option.some.inj ((yesNoAt_of_le le).symm.trans h)).symm
    · rw [yesNoAt_eq_none.2 (Nat.lt_of_not_le le)] at h
      cases h
  · rw [if_neg ‹_›, h]

end

/-- The fields of a profile that is read, each by its code, its clamped number or its language list. -/
theorem ProfileRead.fields {sel : Nat → Bool} {old p : Profile} {b : List Byte} (h : ProfileRead sel old p b) :
    p.floorMode = (if sel 0 then (if byteAt b 0 = 0 then .openFloor else if byteAt b 0 = 1 then .request else .chair)
      else old.floorMode) ∧
    p.openLimit = (if sel 1 then max 1 (min 8 (byteAt b 1)) else old.openLimit) ∧
    p.chairLimit = (if sel 2 then max 1 (min 4 (byteAt b 2)) else old.chairLimit) ∧
    p.overflow = (if sel 3 then (if byteAt b 3 = 0 then .queue else .refuse) else old.overflow) ∧
    p.mayClose = (if sel 4 then decide (byteAt b 4 = 1) else old.mayClose) ∧
    p.mayCancel = (if sel 5 then decide (byteAt b 5 = 1) else old.mayCancel) ∧
    p.service = (if sel 6 then (if byteAt b 6 = 0 then .arrival else .rotating) else old.service) ∧
    p.action = (if sel 7 then (if byteAt b 7 = 0 then .muteAll else if byteAt b 7 = 1 then .closeAll else .closeAndClear)
      else old.action) ∧
    p.speakingLimit = (if sel 8 then (if word16At b 8 = 0 then 0 else max 10 (min 3600 (word16At b 8)))
      else old.speakingLimit) ∧
    p.warningLead = (if sel 9 then min 60 (byteAt b 10) else old.warningLead) ∧
    p.limitAction = (if sel 10 then (if byteAt b 11 = 0 then .close else .notify) else old.limitAction) ∧
    p.level = (if sel 11 then max (-120) (min 0 (stepsAt b 12)) else old.level) ∧
    p.fill = (if sel 12 then (if stepsAt b 13 = -128 then none else some (max (-40) (min 0 (stepsAt b 13)))) else old.fill) ∧
    p.contention = (if sel 13 then (if byteAt b 14 = 0 then .interlock else .takeover) else old.contention) ∧
    (if sel 14 then p.languages = codesAt b ∧ p.languages.length ≤ 8 ∧ (∀ c ∈ p.languages, 1 ≤ c ∧ c ≤ 63) ∧
      p.languages.Nodup else p.languages = old.languages) := by
  refine ⟨chosen_codedAt_three h.floorMode, ?_, ?_, chosen_codedAt_two h.overflow, chosen_yesNoAt h.mayClose,
    chosen_yesNoAt h.mayCancel, chosen_codedAt_two h.service, chosen_codedAt_three h.action, ?_, ?_,
    chosen_codedAt_two h.limitAction, ?_, ?_, chosen_codedAt_two h.contention, ?_⟩
  · rw [h.openLimit, clampNat_eq _ _ _ (by decide)]
  · rw [h.chairLimit, clampNat_eq _ _ _ (by decide)]
  · rw [h.speakingLimit, clampSpeaking, clampNat_eq _ _ _ (by decide)]
  · rw [h.warningLead, clampNat_eq _ _ _ (by decide), Nat.zero_max]
  · rw [h.level, clampInt_eq _ _ _ (by decide)]
  · rw [h.fill, fillOf, clampInt_eq _ _ _ (by decide)]
  · have languages := chosen_eq_some.1 h.languages
    split at languages
    · rw [if_pos ‹_›]
      obtain ⟨-, right, codes⟩ := languagesAt_eq_some.1 languages
      exact ⟨codes, languagesRight_iff.1 right⟩
    · rw [if_neg ‹_›, languages]

theorem byteAt_drop (b : List Byte) (n i : Nat) : byteAt (b.drop n) i = byteAt b (n + i) := by
  simp [byteAt, List.getD_eq_getElem?_getD, List.getElem?_drop]

theorem stepsAt_drop (b : List Byte) (n i : Nat) : stepsAt (b.drop n) i = stepsAt b (n + i) := by
  simp [stepsAt, List.getD_eq_getElem?_getD, List.getElem?_drop]

theorem word16At_drop (b : List Byte) (n i : Nat) : word16At (b.drop n) i = word16At b (n + i) := by
  simp [word16At, List.getD_eq_getElem?_getD, List.getElem?_drop, Nat.add_assoc]

theorem readSegmentSet_of_right {p old : Profile} (length : body.length = 28) (installed : byteAt body 1 ≤ 1)
    (profile : profileFrom allFields old (body.drop 4) = some p) : readSegmentSet body =
      some (byteAt body 0,
        { installed := decide (byteAt body 1 = 1), maximum := clampInt (-120) 0 (stepsAt body 2),
          trim := clampInt (-24) 0 (stepsAt body 3), profile := p },
        clampInt (-120) 0 (stepsAt body 2) ≠ stepsAt body 2 || clampInt (-24) 0 (stepsAt body 3) ≠ stepsAt body 3 ||
          profileClamps allFields (body.drop 4)) := by
  unfold readSegmentSet
  rw [sized_of_length length, yesNoAt_of_le installed, profileFrom_allFields Profile.defaults old, profile]

theorem readSegmentSet_of_profile_none {old : Profile} (profile : profileFrom allFields old (body.drop 4) = none) :
    readSegmentSet body = none := by
  unfold readSegmentSet
  rw [profileFrom_allFields Profile.defaults old, profile]
  split <;> simp_all

end Sys2Proof.Machine

open Sys2Proof.Machine

/-- Settles O15: each handler answers with its report, and the state after the taking is read as the state before. -/
theorem queriesAnswerAndChangeNothing : Obligations.QueriesAnswerAndChangeNothing := by
  unfold Obligations.QueriesAnswerAndChangeNothing
  intro s tag b0 b1 a r
  refine ⟨fun take run at_ => ?_, fun take number => ?_, fun take run at_ low high => ?_, fun take low high => ?_,
    fun take high => ?_, fun take low high => ?_, fun take => ?_⟩ <;> refine congrArg Host.Outcome.next ?_
  · exact State.request_of_answer take (by simp [Allowed.permits, run]) (State.inRoom_of_roomAt at_ _)
  · exact State.request_of_answer take rfl (if_pos number)
  · refine State.request_of_answer take (by simp [Allowed.permits, run]) ((State.inRoom_of_roomAt at_ _).trans ?_)
    have right : ¬ (decide (b1.toNat < 1) || decide (32 < b1.toNat)) = true := by simp; omega
    rw [← at_.anchor]
    exact if_neg right
  · exact State.request_of_answer take rfl (if_pos (boothOk_iff.2 ⟨low, high⟩))
  · exact State.request_of_answer take rfl (handleSlotQuery_slot high)
  · exact State.request_of_answer take rfl (handleSlotQuery_channel low high)
  · exact State.request_of_answer take rfl rfl

/-- Settles O19. -/
theorem seatSetAndTrimsStoreTheirFields : Obligations.SeatSetAndTrimsStoreTheirFields := by
  unfold Obligations.SeatSetAndTrimsStoreTheirFields
  refine ⟨fun s tag b0 b1 ib cb kb xb n x take hn hx => ⟨fun run => ?_, fun config wrong => ?_,
      fun config h1 h2 h3 h4 h5 h6 h7 => ?_⟩,
    fun s tag b0 b1 xb n x take hn hx => ⟨fun config => ?_, fun run wrong => ?_, fun run h1 h2 h3 out => ?_,
      fun run h1 h2 h3 inst => ?_⟩,
    fun s tag bb xb b x take hb hx => ⟨fun config => ?_, fun run wrong => ?_, fun run h1 h2 out => ?_,
      fun run h1 h2 inst => ?_⟩⟩ <;> rw [← clampTrim_eq] at hx <;> subst hx
  · exact congrArg Host.Outcome.next (State.request_of_not_permits take (by simp [Allowed.permits, run]))
  · refine congrArg Host.Outcome.next (State.request_of_refuse take (by simp [Allowed.permits, config]) ?_)
    subst hn
    unfold handleSeatSet
    by_cases coded : 1 < ib.toNat ∨ 1 < cb.toNat
    · rw [readSeatSet_of_wrong coded]
      rfl
    · rw [readSeatSet_of_right (by omega) (by omega)]
      by_cases number : seatNumberOk (word16 b0 b1) = true
      · have segment : segmentOk kb.toNat = false := by
          rw [seatNumberOk_iff] at number
          rw [segmentOk_eq_false]
          omega
        simp [withBody, number, segment]
      · simp [withBody, number]
  · subst hn
    have handled : handleSeatSet [b0, b1, ib, cb, kb, xb] s.popInput = (s.popInput.setSeat (word16 b0 b1)
        { s.seat (word16 b0 b1) with installed := decide (ib = 1), cls := if cb = 0 then .delegate else .chair,
                                     segment := kb.toNat, trim := clampTrim xb.toInt },
        .okClamped (clampTrim xb.toInt ≠ xb.toInt) .nothing) := by
      unfold handleSeatSet
      rw [readSeatSet_of_right h6 h7]
      simp only [withBody, seatNumberOk_iff.2 ⟨h1, h2, h3⟩, segmentOk_iff.2 ⟨h4, h5⟩, Bool.not_true, Bool.false_eq_true,
        if_false]
      rfl
    refine ⟨_, congrArg Host.Outcome.next (State.request_of_permits (handle := handleSeatSet) (p := .config) take
      (by simp [Allowed.permits, config])), ?_⟩
    rw [handled]
    exact ⟨State.setSeat_seat_same .., fun m hm => (State.setSeat_seat ..).trans (if_neg hm), rfl⟩
  · exact congrArg Host.Outcome.next (State.request_of_not_permits take (by simp [Allowed.permits, config]))
  · exact congrArg Host.Outcome.next (State.request_of_refuse take (by simp [Allowed.permits, run])
      (handleSeatTrim_eq.trans (State.onSeat_of_outside (hn ▸ seatNumberOk_eq_false.2 wrong) _)))
  · exact congrArg Host.Outcome.next (State.request_of_refuse take (by simp [Allowed.permits, run])
      (handleSeatTrim_eq.trans
        (State.onSeat_of_not_installed (s := s.popInput) (hn ▸ seatNumberOk_iff.2 ⟨h1, h2, h3⟩) (hn ▸ out) _)))
  · subst hn
    have handled := (handleSeatTrim_eq (s := s.popInput) (xb := xb)).trans
      (State.onSeat_of_installed (s := s) (seatNumberOk_iff.2 ⟨h1, h2, h3⟩) inst _)
    refine ⟨_, congrArg Host.Outcome.next (State.request_of_permits (handle := handleSeatTrim) (p := .run) take
      (by simp [Allowed.permits, run])), ?_⟩
    rw [handled]
    exact ⟨State.setSeat_seat_same .., fun m hm => (State.setSeat_seat ..).trans (if_neg hm), rfl⟩
  · exact congrArg Host.Outcome.next (State.request_of_not_permits take (by simp [Allowed.permits, config]))
  · exact congrArg Host.Outcome.next (State.request_of_refuse take (by simp [Allowed.permits, run])
      (handleBoothTrim_eq.trans (State.onBooth_of_outside (hb ▸ boothOk_eq_false.2 wrong) _)))
  · exact congrArg Host.Outcome.next (State.request_of_refuse take (by simp [Allowed.permits, run])
      (handleBoothTrim_eq.trans
        (State.onBooth_of_not_installed (s := s.popInput) (hb ▸ boothOk_iff.2 ⟨h1, h2⟩) (hb ▸ out) _)))
  · subst hb
    have handled := (handleBoothTrim_eq (s := s.popInput) (xb := xb)).trans (State.onBooth_of_installed (s := s) h1 h2 inst _)
    refine ⟨_, congrArg Host.Outcome.next (State.request_of_permits (handle := handleBoothTrim) (p := .run) take
      (by simp [Allowed.permits, run])), ?_⟩
    rw [handled]
    exact ⟨State.setBooth_boothAt_same .., fun c hc => (State.setBooth_boothAt ..).trans (if_neg hc), rfl⟩

/-- Settles O46. -/
theorem counterSetAndRead : Obligations.CounterSetAndRead := by
  unfold Obligations.CounterSetAndRead
  refine ⟨fun s tag body c x clamped take read => ⟨readCounterSet_eq_some read, fun wrong => ?_, fun h1 h2 h3 h4 => ?_⟩,
    fun s tag cb take => ?_⟩
  · refine congrArg Host.Outcome.next (State.request_of_refuse take rfl ?_)
    have unfit : ¬ (counterOk c && x.fits) = true := by
      rw [Bool.and_eq_true, counterOk_iff, Counter.fits_iff]
      rintro ⟨⟨low, high⟩, range, action⟩
      rcases wrong with wrong | wrong | wrong | ⟨block, other⟩
      · omega
      · omega
      · rw [range] at wrong; cases wrong
      · rcases action with notice | ⟨g, hg⟩
        · rw [block] at notice; cases notice
        · exact other g hg
    unfold handleCounterSet
    rw [read]
    exact if_neg unfit
  · have handled : handleCounterSet body s.popInput = (s.popInput.setCounter c x, .okClamped clamped (.counter c x)) := by
      unfold handleCounterSet
      rw [read]
      exact if_pos (by rw [Bool.and_eq_true, counterOk_iff, Counter.fits_iff]; exact ⟨⟨h1, h2⟩, h3, h4⟩)
    refine ⟨_, congrArg Host.Outcome.next (State.request_of_permits (handle := handleCounterSet) (p := .both) take rfl), ?_⟩
    rw [handled]
    exact ⟨State.setCounter_counter_same .., fun d hd => (State.setCounter_counter ..).trans (if_neg hd), rfl⟩
  · refine congrArg Host.Outcome.next (State.request_of_answer take rfl ?_)
    show (if cb.toNat = 0 then _ else if counterOk cb.toNat = true then _ else _) = _
    by_cases zero : cb.toNat = 0
    · rw [if_pos zero, if_pos zero]
      rfl
    · rw [if_neg zero, if_neg zero]
      by_cases high : cb.toNat ≤ 8
      · rw [if_pos high, if_pos (counterOk_iff.2 ⟨by omega, high⟩)]
        rfl
      · rw [if_neg high, if_neg (fun h => high (counterOk_iff.1 h).2)]
        rfl

/-- Settles O4: the handler stores what the reader makes of the body, and the fields of a profile are read one by one. -/
theorem segmentSetWritesTheRecordWhole : Obligations.SegmentSetWritesTheRecordWhole := by
  unfold Obligations.SegmentSetWritesTheRecordWhole
  refine ⟨fun s tag body take => ⟨fun run => ?_, fun k old p x clamped config length installed profile hk hx hc => ?_,
    fun old config profile => ?_⟩, fun sel old b => ⟨fun p h => ?_, ?_⟩⟩
  · exact congrArg Host.Outcome.next (State.request_of_not_permits take (by simp [Allowed.permits, run]))
  · have read : readSegmentSet body = some (k, x, clamped) := by
      rw [readSegmentSet_of_right length installed profile, hk]
      have clamp := profileClamps_allFields (profileFrom_eq_some.1 profile)
      simp only [byteAt_drop, stepsAt_drop, word16At_drop] at clamp
      have record : x = { installed := decide (byteAt body 1 = 1), maximum := clampInt (-120) 0 (stepsAt body 2),
                          trim := clampInt (-24) 0 (stepsAt body 3), profile := p } := by
        rw [hx, clampInt_eq _ _ _ (by decide), clampInt_eq _ _ _ (by decide)]
      have flag : clamped = (clampInt (-120) 0 (stepsAt body 2) ≠ stepsAt body 2 ||
          clampInt (-24) 0 (stepsAt body 3) ≠ stepsAt body 3 || profileClamps allFields (body.drop 4)) := by
        rw [Bool.eq_iff_iff, hc, record, Bool.or_eq_true, Bool.or_eq_true, clamp, decide_eq_true_eq, decide_eq_true_eq, or_assoc]
      rw [record, flag]
    refine ⟨fun outside => ?_, fun inside => ?_⟩
    · refine congrArg Host.Outcome.next (State.request_of_refuse take (by simp [Allowed.permits, config]) ?_)
      unfold handleSegmentSet
      rw [read]
      exact if_neg fun h => outside (segmentOk_iff.1 h)
    · have handled : handleSegmentSet body s.popInput = (s.popInput.setSegment k x, .okClamped clamped .nothing) := by
        unfold handleSegmentSet
        rw [read]
        exact if_pos (segmentOk_iff.2 inside)
      refine ⟨_, congrArg Host.Outcome.next (State.request_of_permits (handle := handleSegmentSet) (p := .config) take
        (by simp [Allowed.permits, config])), ?_⟩
      rw [handled]
      exact ⟨State.setSegment_segment_same .., fun j hj => (State.setSegment_segment ..).trans (if_neg hj), rfl⟩
  · refine congrArg Host.Outcome.next (State.request_of_refuse take (by simp [Allowed.permits, config]) ?_)
    unfold handleSegmentSet
    rw [readSegmentSet_of_profile_none profile]
    rfl
  · exact (profileFrom_eq_some.1 h).fields
  · rw [profileFrom_eq_none, languagesAt_eq_none]
    rfl
end

section
/-! SUPPORT. The walls: what a derivation of an effective state does where it stays and where it changes, and the three commands that
call for one (O5 to O8). -/

namespace Sys2Proof.Machine

/-- A request of an allowed phase does what its handler does and is answered with the handler's answer. -/
theorem State.request_of_handled {s u : State} {kind tag : Byte} {body : List Byte} {allowed : Allowed}
    {handle : List Byte → State → State × Answer} {a : Answer} (take : s.CanTake ⟨kind, tag, body⟩)
    (phase : allowed.permits s.link.phase = true) (h : handle body s.popInput = (u, a)) :
    s.request kind tag body allowed handle = u.reply ⟨kind, tag, a⟩ := by
  rw [State.request_of_permits take phase, h]
  rfl

/-! ## Derivations (R8, R9, R15 to R17) -/

/-- A partition with its effective state and mismatch flag derived from its other fields. -/
def Partition.derived (x : Partition) : Partition := { x with effective := effectiveOf x, mismatch := mismatchOf x }

/-- The notice of a changed mismatch flag (R9). -/
def wallNotice (p : Nat) (y : Partition) : Notice :=
  if y.mismatch then .partitionMismatch p y.declared y.sensed y.effective
  else .partitionAgreed p y.declared y.sensed y.effective

/-- Partition `p` is written, and a changed mismatch flag raises its notice. -/
def State.storeWall (s : State) (p : Nat) (y : Partition) : State :=
  { s.setPartition p y with
    link := if y.mismatch = (s.partition p).mismatch then s.link else s.link.raise (wallNotice p y) }

section
variable {s : State} {p q : Nat} {x y : Partition}

theorem effectiveOf_eq_opened : effectiveOf x = .opened ↔
    x.installed = true ∧ x.declared = .opened ∧ (x.fitted = false ∨ x.sensed = .retracted) := by
  simp only [effectiveOf, ite_eq_left_iff, reduceCtorEq, imp_false, not_not, Bool.and_eq_true, Bool.or_eq_true,
    Bool.not_eq_true', decide_eq_true_eq, and_assoc]

theorem mismatchOf_iff : mismatchOf x = true ↔ x.installed = true ∧ x.fitted = true ∧
    ((x.declared = .opened ∧ x.sensed = .deployed) ∨ (x.declared = .closed ∧ x.sensed = .retracted)) := by
  simp [mismatchOf, and_assoc]

theorem State.storeWall_partition : (s.storeWall p y).partition q = if q = p then y else s.partition q :=
  State.setPartition_partition ..

theorem State.rederive_eq_storeWall : s.rederive p =
    if (s.partition p).effective ≠ effectiveOf (s.partition p) ∧ s.link.phase = .run ∧ (s.partition p).installed = true then
      (s.storeWall p (s.partition p).derived).partitionChanged p
    else s.storeWall p (s.partition p).derived := by
  have stored : (if (s.partition p).mismatch = (s.partition p).derived.mismatch then s.setPartition p (s.partition p).derived
      else if (s.partition p).derived.mismatch then (s.setPartition p (s.partition p).derived).note (.partitionMismatch p
        (s.partition p).derived.declared (s.partition p).derived.sensed (s.partition p).derived.effective)
      else (s.setPartition p (s.partition p).derived).note (.partitionAgreed p
        (s.partition p).derived.declared (s.partition p).derived.sensed (s.partition p).derived.effective)) =
      s.storeWall p (s.partition p).derived := by
    by_cases same : (s.partition p).mismatch = (s.partition p).derived.mismatch
    · rw [if_pos same, State.storeWall, if_pos same.symm]
      rfl
    · rw [if_neg same, State.storeWall, if_neg (Ne.symm same)]
      unfold wallNotice
      split <;> rfl
  show (if _ then State.partitionChanged (ite _ _ _) p else ite _ _ _) = _
  erw [stored]
  refine if_congr ?_ rfl rfl
  simp [and_assoc]

/-- Where the phase is CONFIG, the effective state stays or the partition is not installed, a derivation does nothing more. -/
theorem State.rederive_of_still (h : s.link.phase = .config ∨ effectiveOf (s.partition p) = (s.partition p).effective ∨
    (s.partition p).installed = false) : s.rederive p = s.storeWall p (s.partition p).derived := by
  rw [State.rederive_eq_storeWall, if_neg]
  rintro ⟨turned, run, inst⟩
  rcases h with config | still | out
  · rw [run] at config; cases config
  · exact turned still.symm
  · rw [inst] at out; cases out

theorem State.setPartition_rederive_of_still (h : s.link.phase = .config ∨ effectiveOf x = x.effective ∨ x.installed = false) :
    (s.setPartition p x).rederive p = (s.setPartition p x).storeWall p x.derived := by
  rw [State.rederive_of_still (by rwa [State.setPartition_partition_same]), State.setPartition_partition_same]

theorem State.setPartition_rederive_of_turned (run : s.link.phase = .run) (inst : x.installed = true)
    (h : effectiveOf x ≠ x.effective) :
    (s.setPartition p x).rederive p = ((s.setPartition p x).storeWall p x.derived).partitionChanged p := by
  rw [State.rederive_eq_storeWall, State.setPartition_partition_same, if_pos ⟨h.symm, run, inst⟩]

theorem State.setPartition_storeWall_partition :
    ((s.setPartition p x).storeWall p y).partition q = if q = p then y else s.partition q := by
  rw [State.storeWall_partition]
  split
  · rfl
  · exact (State.setPartition_partition ..).trans (if_neg ‹_›)

/-- The link after a written partition is derived. -/
theorem State.setPartition_storeWall_link : ((s.setPartition p x).storeWall p y).link =
    if y.mismatch = x.mismatch then s.link else s.link.raise (wallNotice p y) := by
  rw [State.storeWall, State.setPartition_partition_same]
  rfl

/-- A changed wall is turned as R15 and R16 say. -/
theorem State.partitionChanged_wallTurned (v : State) (p : Nat) : v.WallTurned (v.partitionChanged p) p := by
  constructor
  case loop =>
    intro i opened ha hb
    simp [State.partitionChanged, opened, ha, hb]
  case merge =>
    rintro i j opened lt (⟨ha, hb⟩ | ⟨ha, hb⟩)
    · simp [State.partitionChanged, opened, ha, hb, lt.ne, lt.le]
    · simp [State.partitionChanged, opened, ha, hb, lt.ne', lt.le]
  case chain =>
    intro i r closed ha hr all
    have none_goes : (r.segments.filter fun k => !(v.groupOf r.segments i).contains k) = [] :=
      List.filter_eq_nil_iff.2 fun k hk => by simp [all k hk]
    simp only [State.partitionChanged, closed, ha, hr, none_goes, if_true]
  case split =>
    rintro i r go closed ha hr rfl some
    have same : (r.segments.filter fun k => !(v.groupOf r.segments i).contains k) =
        r.segments.filter fun k => decide (k ∉ v.groupOf r.segments i) :=
      List.filter_congr fun k _ => by simp
    simp only [State.partitionChanged, closed, ha, hr, same, if_neg some]

end

/-- A state of which only the partitions, the settling records and the link are others. -/
theorem State.ext_hall_link {s v : State} {l : LinkUnit}
    (h : { v with link := l } =
      { s with hall := { s.hall with settling := v.hall.settling, partitions := v.hall.partitions }, link := l })
    (link : v.link = l) :
    v = { s with hall := { s.hall with settling := v.hall.settling, partitions := v.hall.partitions }, link := l } := by
  subst link
  exact h

/-- A partition with a new declared state. -/
def Partition.declaredAs (x : Partition) (w : Wall) : Partition := { x with declared := w }

/-- The derived fields of an installed partition with a new declared state. -/
theorem Partition.derived_declared {x : Partition} {w : Wall} (inst : x.installed = true) :
    (x.declaredAs w).derived =
      { x with declared := w, effective := effectiveOf { x with declared := w }
               mismatch := decide (x.fitted = true ∧
                ((w = .opened ∧ x.sensed = .deployed) ∨ (w = .closed ∧ x.sensed = .retracted))) } := by
  have flag : mismatchOf { x with declared := w } = decide (x.fitted = true ∧
      ((w = .opened ∧ x.sensed = .deployed) ∨ (w = .closed ∧ x.sensed = .retracted))) := by
    simp [mismatchOf, inst]
  rw [Partition.derived, Partition.declaredAs, flag]

/-- The derived fields of an installed partition with a fitted sensor. -/
theorem Partition.derived_fitted {x : Partition} (inst : x.installed = true) (fitted : x.fitted = true) :
    x.derived = { x with effective := effectiveOf x
                         mismatch := decide ((x.declared = .opened ∧ x.sensed = .deployed) ∨
                          (x.declared = .closed ∧ x.sensed = .retracted)) } := by
  have flag : mismatchOf x = decide ((x.declared = .opened ∧ x.sensed = .deployed) ∨
      (x.declared = .closed ∧ x.sensed = .retracted)) := by
    simp [mismatchOf, inst, fitted]
  rw [Partition.derived, flag]

/-! ## The three commands -/

/-- A partition with the four fields that PARTITION_SET gives (R4). -/
def PartitionFields.written (x : PartitionFields) (old : Partition) : Partition :=
  { old with installed := x.installed, a := x.a, b := x.b, fitted := x.fitted }

section
variable {s : State} {p : Nat} {x : PartitionFields}

/-- The checks (1) to (4) of R4. -/
theorem State.partitionFits_of_wrong
    (h : ¬ (1 ≤ x.partition ∧ x.partition ≤ 16 ∧ 1 ≤ x.a ∧ x.a ≤ 12 ∧ 1 ≤ x.b ∧ x.b ≤ 12) ∨
      (x.installed = true ∧ x.a = x.b) ∨
      (x.installed = true ∧ ∃ q, q ≠ x.partition ∧ (s.partition q).installed = true ∧
        ((s.partition q).a = x.a ∧ (s.partition q).b = x.b ∨ (s.partition q).a = x.b ∧ (s.partition q).b = x.a))) :
    s.partitionFits x = false := by
  rw [← Bool.not_eq_true]
  intro fits
  simp only [State.partitionFits, Bool.and_eq_true, partitionOk_iff, segmentOk_iff, Bool.not_eq_true', Bool.and_eq_false_iff,
    Bool.or_eq_false_iff, decide_eq_false_iff_not] at fits
  obtain ⟨⟨⟨hp, ha⟩, hb⟩, free⟩ := fits
  rcases h with outside | ⟨inst, loop⟩ | ⟨inst, q, hq, qinst, ends⟩
  · omega
  · rcases free with out | ⟨ne, -⟩
    · rw [inst] at out; cases out
    · exact ne loop
  · rcases free with out | ⟨-, alone⟩
    · rw [inst] at out; cases out
    · have listed : (q, s.partition q) ∈ s.hall.partitions :=
        Kept.mem_of_tget (fun e => by rw [e] at qinst; cases qinst) rfl
      have := List.any_eq_false.1 alone _ listed
      rcases ends with ⟨ha, hb⟩ | ⟨ha, hb⟩ <;> simp_all

end

section
variable {s : State} {p : Nat} {w : Wall} {pb wb : Byte}

theorem readPartitionDeclare_eq (h : wb = 0 ∧ w = .opened ∨ wb = 1 ∧ w = .closed) :
    readPartitionDeclare [pb, wb] = some (pb.toNat, w) := by
  rcases h with ⟨rfl, rfl⟩ | ⟨rfl, rfl⟩ <;> rfl

/-- A declared state that is new is written, and the wall is derived. -/
theorem State.declare_of_new (h : (s.partition p).declared ≠ w) :
    s.declare p w = (s.setPartition p ((s.partition p).declaredAs w)).rederive p := if_neg h

theorem handlePartitionDeclare_eq (h : wb = 0 ∧ w = .opened ∨ wb = 1 ∧ w = .closed) (h1 : 1 ≤ pb.toNat) (h2 : pb.toNat ≤ 16)
    (inst : (s.partition pb.toNat).installed = true) : handlePartitionDeclare [pb, wb] s =
      (s.declare pb.toNat w, .ok ((s.declare pb.toNat w).wallContents pb.toNat)) := by
  unfold handlePartitionDeclare
  rw [readPartitionDeclare_eq h]
  simp [withBody, partitionOk_iff.2 ⟨h1, h2⟩, inst]

/-- A settling event that is due on an input (R6 (4), R7): the stable level and the sensed state first. -/
theorem State.settle_eq {l : Contact} (h : (s.settling p).candidate = some l) : s.settle p =
    let u := (s.setSettling p { s.settling p with stable := some l }).setPartition p
      { s.partition p with sensed := sensedOf (some l) }
    if (s.partition p).installed = true ∧ (s.partition p).fitted = true then u.rederive p else u := by
  simp only [State.settle, h, State.setPartition_partition_same, Bool.and_eq_true]
  rfl

theorem execSettlingEvent_eq {l : Contact} (up : s.resetLow = false) (done : s.BoundaryDone) (h1 : 1 ≤ p) (h2 : p ≤ 16)
    (hold : (s.settling p).hold = 100) (candidate : (s.settling p).candidate = some l) (stable : (s.settling p).stable ≠ some l) :
    exec (.settlingEvent p) s = .next (s.settle p) := by
  have due : (s.settling p).due = true := by simp [Settling.due, hold, candidate, stable.symm]
  have ok : inputOk p = true := by simp [inputOk, h1, h2]
  refine congrArg Host.Outcome.next ((State.whenDue_of_boundaryDone up done _).trans ?_)
  rw [if_pos ok, State.settleIfDue, if_pos due]

end

end Sys2Proof.Machine

open Sys2Proof.Machine

/-- Settles O5: PARTITION_SET is allowed in CONFIG only, so that the derivation turns no wall. -/
theorem partitionSetDerivesTheWall : Obligations.PartitionSetDerivesTheWall := by
  unfold Obligations.PartitionSetDerivesTheWall
  refine fun s tag body take => ⟨fun run => ?_, fun x config read => ⟨fun wrong => ?_, fun fits => ?_⟩⟩
  · exact congrArg Host.Outcome.next (State.request_of_not_permits take (by simp [Allowed.permits, run]))
  · refine congrArg Host.Outcome.next (State.request_of_refuse take (by simp [Allowed.permits, config]) ?_)
    unfold handlePartitionSet
    rw [read]
    exact if_neg (Bool.eq_false_iff.1 (State.partitionFits_of_wrong wrong))
  · have handled : handlePartitionSet body s.popInput =
        ((s.popInput.setPartition x.partition (x.written (s.partition x.partition))).storeWall x.partition
          (x.written (s.partition x.partition)).derived, .ok .nothing) := by
      unfold handlePartitionSet
      rw [read, ← State.setPartition_rederive_of_still (s := s.popInput) (.inl config)]
      exact if_pos fits
    refine ⟨_, _, congrArg Host.Outcome.next (State.request_of_handled take (by simp [Allowed.permits, config]) handled),
      State.setPartition_storeWall_partition.trans (if_pos rfl), rfl, rfl, rfl, rfl, rfl, rfl, effectiveOf_eq_opened,
      mismatchOf_iff, fun q hq => State.setPartition_storeWall_partition.trans (if_neg hq), rfl, ?_⟩
    exact congrArg (LinkUnit.answer · _) State.setPartition_storeWall_link

/-- Settles O6: a new declared state is written first, and the derivation that follows turns no wall. -/
theorem partitionDeclareStoresTheState : Obligations.PartitionDeclareStoresTheState := by
  unfold Obligations.PartitionDeclareStoresTheState
  rintro s tag pb wb w x y take h1 h2 rfl inst wall
  refine ⟨fun same => ?_, fun new hy still => ?_⟩
  · have handled := handlePartitionDeclare_eq (s := s.popInput) wall h1 h2 inst
    rw [State.declare, if_pos (show (s.popInput.partition pb.toNat).declared = w from same)] at handled
    refine congrArg Host.Outcome.next ((State.request_of_handled take rfl handled).trans ?_)
    rw [← same]
    rfl
  · have handled := handlePartitionDeclare_eq (s := s.popInput) wall h1 h2 inst
    have derived : y = ((s.popInput.partition pb.toNat).declaredAs w).derived := hy.trans (Partition.derived_declared inst).symm
    rw [State.declare_of_new (s := s.popInput) new, State.setPartition_rederive_of_still (s := s.popInput)
      (x := (s.popInput.partition pb.toNat).declaredAs w)
      (still.imp_right fun e => .inl (by rw [derived] at e; exact e)), ← derived] at handled
    refine ⟨_, congrArg Host.Outcome.next (State.request_of_handled take rfl handled),
      State.setPartition_storeWall_partition.trans (if_pos rfl),
      fun q hq => State.setPartition_storeWall_partition.trans (if_neg hq), rfl, ?_⟩
    subst hy
    refine congrArg₂ LinkUnit.answer State.setPartition_storeWall_link ?_
    unfold State.wallContents
    rw [State.setPartition_storeWall_partition, if_pos rfl]

/-- Settles O7. -/
theorem settlingEventSetsTheSensedState : Obligations.SettlingEventSetsTheSensedState := by
  unfold Obligations.SettlingEventSetsTheSensedState
  intro s p l x y up done h1 h2 hold candidate stable hx hy
  have sensed : x = { s.partition p with sensed := sensedOf (some l) } := by rw [hx]; cases l <;> rfl
  have kept : (s.partition p).installed = x.installed ∧ (s.partition p).fitted = x.fitted := by rw [hx]; exact ⟨rfl, rfl⟩
  have event := execSettlingEvent_eq up done h1 h2 hold candidate stable
  rw [State.settle_eq candidate, kept.1, kept.2, ← sensed] at event
  refine ⟨fun bare => ?_, fun inst fitted still => ?_⟩
  · rw [if_neg (by rintro ⟨inst, fitted⟩; rcases bare with h | h <;> [rw [h] at inst; rw [h] at fitted] <;> contradiction)] at event
    exact ⟨_, event, State.setSettling_settling_same .., State.setPartition_partition_same ..,
      fun q hq => ⟨(State.setSettling_settling ..).trans (if_neg hq), (State.setPartition_partition ..).trans (if_neg hq)⟩, rfl⟩
  · have derived : y = x.derived := by rw [hy, Partition.derived_fitted inst fitted]
    rw [if_pos ⟨inst, fitted⟩, State.setPartition_rederive_of_still (s := s.setSettling p _)
      (still.imp_right fun e => .inl (by rw [← e, hy])), ← derived] at event
    exact ⟨_, event, State.setSettling_settling_same .., State.setPartition_storeWall_partition.trans (if_pos rfl),
      fun q hq => ⟨(State.setSettling_settling ..).trans (if_neg hq),
        State.setPartition_storeWall_partition.trans (if_neg hq)⟩,
      State.ext_hall_link rfl State.setPartition_storeWall_link⟩

/-- Settles O8: both commands derive the wall, which in RUN turns it. -/
theorem changedWallsMergeOrSplit : Obligations.ChangedWallsMergeOrSplit := by
  unfold Obligations.ChangedWallsMergeOrSplit
  refine ⟨?_, ?_⟩
  · rintro s tag pb wb w x y take run h1 h2 rfl inst wall new hy turned - -
    have handled := handlePartitionDeclare_eq (s := s.popInput) wall h1 h2 inst
    have derived : y = ((s.popInput.partition pb.toNat).declaredAs w).derived := hy
    rw [State.declare_of_new (s := s.popInput) new, State.setPartition_rederive_of_turned (s := s.popInput)
      (x := (s.popInput.partition pb.toNat).declaredAs w) run inst (by rw [derived] at turned; exact turned),
      ← derived] at handled
    refine ⟨(s.popInput.setPartition pb.toNat ((s.popInput.partition pb.toNat).declaredAs w)).storeWall pb.toNat y, _,
      State.setPartition_storeWall_partition.trans (if_pos rfl),
      fun q hq => State.setPartition_storeWall_partition.trans (if_neg hq), ?_, State.partitionChanged_wallTurned _ _,
      congrArg Host.Outcome.next (State.request_of_handled take rfl handled)⟩
    have link := State.setPartition_storeWall_link (s := s.popInput) (p := pb.toNat)
      (x := (s.popInput.partition pb.toNat).declaredAs w) (y := y)
    rw [hy] at link ⊢
    exact State.ext_hall_link rfl link
  · intro s p l x y up done run h1 h2 hold candidate stable hx inst fitted hy turned _ _
    have sensed : x = { s.partition p with sensed := sensedOf (some l) } := by rw [hx]; cases l <;> rfl
    have kept : (s.partition p).installed = x.installed ∧ (s.partition p).fitted = x.fitted := by rw [hx]; exact ⟨rfl, rfl⟩
    have event := execSettlingEvent_eq up done h1 h2 hold candidate stable
    have derived : y = x.derived := hy
    rw [State.settle_eq candidate, kept.1, kept.2, ← sensed, if_pos ⟨inst, fitted⟩,
      State.setPartition_rederive_of_turned (s := s.setSettling p _) run inst (by rw [derived] at turned; exact turned),
      ← derived] at event
    exact ⟨((s.setSettling p { s.settling p with stable := some l }).setPartition p x).storeWall p y, _,
      State.setPartition_storeWall_partition.trans (if_pos rfl), State.setSettling_settling_same ..,
      fun q hq => ⟨State.setPartition_storeWall_partition.trans (if_neg hq), (State.setSettling_settling ..).trans (if_neg hq)⟩,
      State.ext_hall_link rfl State.setPartition_storeWall_link, State.partitionChanged_wallTurned _ _, event⟩

end

section
/-! SUPPORT. The checks that the requests share (O53): for each form of request, its phases, the bodies that it refuses, and the thing
that it names. -/

namespace Sys2Proof.Machine

/-! ## What a body that is read had -/

section
variable {α β : Type} {values : List α} {b : List Byte} {i n : Nat}

theorem length_of_sized {u : Unit} (h : sized n b = some u) : b.length = n := by
  by_contra ne
  rw [sized_of_ne ne] at h
  cases h

theorem byteAt_lt_of_codedAt {v : α} (h : codedAt values b i = some v) : byteAt b i < values.length := by
  by_contra ge
  rw [codedAt_eq_none.2 (Nat.le_of_not_lt ge)] at h
  cases h

theorem byteAt_lt_of_yesNoAt {v : Bool} (h : yesNoAt b i = some v) : byteAt b i < 2 := byteAt_lt_of_codedAt h

theorem byteAt_lt_of_sourceAt {v : Source} (h : sourceAt b i = some v) : byteAt b i < 2 := by
  unfold sourceAt at h
  split at h
  · omega
  · omega
  · cases h

theorem sized_map_eq_none {g : Unit → β} (h : b.length ≠ n) : (sized n b).map g = none := by rw [sized_of_ne h]; rfl

theorem readSegmentSet_eq_none (h : b.length ≠ 28 ∨ 2 ≤ byteAt b 1 ∨ 3 ≤ byteAt b 4 ∨ 2 ≤ byteAt b 7 ∨ 2 ≤ byteAt b 8 ∨
    2 ≤ byteAt b 9 ∨ 2 ≤ byteAt b 10 ∨ 3 ≤ byteAt b 11 ∨ 2 ≤ byteAt b 15 ∨ 2 ≤ byteAt b 18) : readSegmentSet b = none := by
  unfold readSegmentSet
  split
  · next size installed profile =>
    have := length_of_sized size
    have := byteAt_lt_of_yesNoAt installed
    have read : ¬ profileFrom allFields Profile.defaults (b.drop 4) = none := by rw [profile]; exact Option.some_ne_none _
    simp only [profileFrom_eq_none, allFields, true_and, byteAt_drop, not_or, Nat.reduceAdd, Nat.add_zero] at read
    omega
  · rfl

theorem readPartitionSet_eq_none (h : b.length ≠ 5 ∨ 2 ≤ byteAt b 1 ∨ 2 ≤ byteAt b 4) : readPartitionSet b = none := by
  unfold readPartitionSet
  split
  · next size installed fitted =>
    have := length_of_sized size
    have := byteAt_lt_of_yesNoAt installed
    have := byteAt_lt_of_yesNoAt fitted
    omega
  · rfl

theorem readSeatSet_eq_none (h : b.length ≠ 6 ∨ 2 ≤ byteAt b 2 ∨ 2 ≤ byteAt b 3) : readSeatSet b = none := by
  unfold readSeatSet
  split
  · next size installed cls =>
    have := length_of_sized size
    have := byteAt_lt_of_yesNoAt installed
    have : byteAt b 3 < 2 := byteAt_lt_of_codedAt cls
    omega
  · rfl

theorem readBoothSet_eq_none (h : b.length ≠ 8 ∨ 2 ≤ byteAt b 1 ∨ 2 ≤ byteAt b 4) : readBoothSet b = none := by
  unfold readBoothSet
  split
  · next size installed source =>
    have := length_of_sized size
    have := byteAt_lt_of_yesNoAt installed
    have := byteAt_lt_of_sourceAt source
    omega
  · rfl

theorem readPartitionDeclare_eq_none (h : b.length ≠ 2 ∨ 2 ≤ byteAt b 1) : readPartitionDeclare b = none := by
  unfold readPartitionDeclare
  split
  · next size wall =>
    have := length_of_sized size
    have : byteAt b 1 < 2 := byteAt_lt_of_codedAt wall
    omega
  · rfl

theorem readLanguagesSet_eq_none (h : b.length ≠ 2 + byteAt b 1) : readLanguagesSet b = none := by
  unfold readLanguagesSet
  simp [h]

theorem readNext_eq_none (h : b.length ≠ 2 ∨ 2 ≤ byteAt b 1) : readNext b = none := by
  unfold readNext
  split
  · next size replace =>
    have := length_of_sized size
    have : byteAt b 1 < 2 := byteAt_lt_of_codedAt replace
    omega
  · rfl

theorem readBoothSource_eq_none (h : b.length ≠ 3 ∨ 2 ≤ byteAt b 1) : readBoothSource b = none := by
  unfold readBoothSource
  split
  · next size source =>
    have := length_of_sized size
    have := byteAt_lt_of_sourceAt source
    omega
  · rfl

theorem readSlotQuery_eq_none (h : b.length ≠ 2 ∨ 2 ≤ byteAt b 0) : readSlotQuery b = none := by
  unfold readSlotQuery
  split
  · next size list =>
    have := length_of_sized size
    have : byteAt b 0 < 2 := byteAt_lt_of_codedAt list
    omega
  · rfl

theorem readGroupSet_eq_none (h : b.length ≠ 8 ∨ 2 ≤ byteAt b 1 ∨ 2 ≤ byteAt b 7) : readGroupSet b = none := by
  unfold readGroupSet
  split
  · next size installed blocked =>
    have := length_of_sized size
    have := byteAt_lt_of_yesNoAt installed
    have := byteAt_lt_of_yesNoAt blocked
    omega
  · rfl

theorem readCounterSet_eq_none (h : b.length ≠ 15 ∨ 2 ≤ byteAt b 1 ∨ 14 ≤ byteAt b 2 ∨ 4 ≤ byteAt b 3 ∨ 3 ≤ byteAt b 5 ∨
    2 ≤ byteAt b 8 ∨ 2 ≤ byteAt b 9) : readCounterSet b = none := by
  unfold readCounterSet
  split
  · next size enabled event scope mode invert action =>
    have := length_of_sized size
    have := byteAt_lt_of_yesNoAt enabled
    have : byteAt b 2 < 14 := byteAt_lt_of_codedAt event
    have : byteAt b 3 < 4 := byteAt_lt_of_codedAt scope
    have : byteAt b 5 < 3 := byteAt_lt_of_codedAt mode
    have := byteAt_lt_of_yesNoAt invert
    have : byteAt b 9 < 2 := byteAt_lt_of_codedAt action
    omega
  · rfl

/-- The coded bytes that ROOM_SET reads (R205). -/
theorem roomSet_profileFrom_eq_none :
    profileFrom (fun k => selection (word16At b 1) k && k ≠ 14) Profile.defaults (b.drop 3) = none ↔
      ∃ p ∈ roomSetCoded, (word16At b 1).testBit (15 - p.1) = true ∧ p.2.2 ≤ byteAt b p.2.1 := by
  rw [profileFrom_eq_none]
  simp [roomSetCoded, selection, byteAt_drop, Nat.succ_le_iff]

end

/-! ## The forms -/

/-- A body that a request's form refuses (R195 (3)). -/
def RequestForm.Malformed (f : RequestForm) (body : List Byte) : Prop :=
  body.length ≠ f.size body ∨ (∃ p ∈ f.coded, p.2 ≤ byteAt body p.1) ∨
    f.kind = 0x09 ∧ ∃ p ∈ roomSetCoded, (word16At body 1).testBit (15 - p.1) = true ∧ p.2.2 ≤ byteAt body p.2.1

/-- The request of a form is handed to `handle` in the phases `allowed`, which are the form's. -/
structure RequestForm.HandedTo (f : RequestForm) (allowed : Allowed) (handle : List Byte → State → State × Answer) : Prop where
  runs : ∀ s tag body, exec (f.command tag body) s = .next (s.request f.kind tag body allowed handle)
  phases : allowed.permits .config = f.config ∧ allowed.permits .run = f.run

/-- A handler refuses every malformed body of the form. -/
def RequestForm.RefusesMalformed (f : RequestForm) (handle : List Byte → State → State × Answer) : Prop :=
  ∀ body s, f.Malformed body → handle body s = refuse s .badValue

section
variable {f : RequestForm} {allowed : Allowed} {handle : List Byte → State → State × Answer} {s : State} {tag : Byte}
  {body : List Byte}

theorem RequestForm.HandedTo.permits (h : f.HandedTo allowed handle) (s : State) :
    allowed.permits s.link.phase = f.allowed s := by
  unfold RequestForm.allowed
  rcases phase : s.link.phase
  · exact h.phases.1
  · exact h.phases.2

theorem RequestForm.HandedTo.refused (h : f.HandedTo allowed handle) (take : s.CanTake ⟨f.kind, tag, body⟩)
    (phase : f.allowed s = true) {x : Status} (refuses : handle body s.popInput = refuse s.popInput x) :
    exec (f.command tag body) s = .next (s.served ⟨f.kind, tag, .refuse x⟩) := by
  rw [h.runs, State.request_of_refuse take ((h.permits s).trans phase) refuses]

theorem RequestForm.HandedTo.wrongPhase (h : f.HandedTo allowed handle) (take : s.CanTake ⟨f.kind, tag, body⟩)
    (phase : f.allowed s = false) : exec (f.command tag body) s = .next (s.served ⟨f.kind, tag, .refuse .wrongPhase⟩) := by
  rw [h.runs, State.request_of_not_permits take ((h.permits s).trans phase)]

theorem refusesMalformed_of_none {α : Type} {read : List Byte → Option α} {g : List Byte → State → α → State × Answer}
    (none : ∀ body, f.Malformed body → read body = none) :
    f.RefusesMalformed fun body s => withBody s (read body) (g body s) := by
  intro body s h
  show withBody s (read body) _ = _
  rw [none body h]
  rfl

/-- A form without coded bytes refuses a body for its length only. -/
theorem RequestForm.Malformed.length (h : f.Malformed body) (coded : f.coded = []) (kind : f.kind ≠ 0x09) :
    body.length ≠ f.size body := by
  rcases h with h | ⟨p, hp, -⟩ | ⟨h, -⟩
  · exact h
  · rw [coded] at hp
    cases hp
  · exact absurd h kind

/-- ROOM_SET refuses a malformed body before it looks for the room (R195 (3), R205). -/
theorem handleRoomSet_refusesMalformed (h : body.length ≠ 27 ∨
    ∃ p ∈ roomSetCoded, (word16At body 1).testBit (15 - p.1) = true ∧ p.2.2 ≤ byteAt body p.2.1) :
    handleRoomSet body s = refuse s .badValue := by
  unfold handleRoomSet readRoomSet
  by_cases size : body.length = 27
  · rw [sized_of_length size]
    simp only [Option.map_some, withBody, roomSet_profileFrom_eq_none.2 (h.resolve_left (not_not_intro size))]
  · rw [sized_map_eq_none size]
    rfl

/-- Every request but STOP and RESTART is handed to a handler that refuses its malformed bodies. -/
theorem handedTo_of_mem (hf : f ∈ requestForms) (stop : f.kind ≠ 0x06) (restart : f.kind ≠ 0x07) :
    ∃ allowed handle, f.HandedTo allowed handle ∧ f.RefusesMalformed handle := by
  simp only [requestForms, List.mem_cons, List.not_mem_nil, or_false] at hf
  rcases hf with rfl | rfl | rfl | rfl | rfl | rfl | rfl | rfl | rfl | rfl | rfl | rfl | rfl | rfl | rfl | rfl | rfl | rfl |
    rfl | rfl | rfl | rfl | rfl | rfl | rfl | rfl | rfl | rfl | rfl | rfl | rfl | rfl | rfl | rfl
  · exact ⟨.config, handleSegmentSet, ⟨fun _ _ _ => rfl, rfl, rfl⟩, refusesMalformed_of_none fun _ h => readSegmentSet_eq_none (by simpa [RequestForm.Malformed] using h)⟩
  · exact ⟨.config, handlePartitionSet, ⟨fun _ _ _ => rfl, rfl, rfl⟩, refusesMalformed_of_none fun _ h => readPartitionSet_eq_none (by simpa [RequestForm.Malformed] using h)⟩
  · exact ⟨.config, handleSeatSet, ⟨fun _ _ _ => rfl, rfl, rfl⟩, refusesMalformed_of_none fun _ h => readSeatSet_eq_none (by simpa [RequestForm.Malformed] using h)⟩
  · exact ⟨.config, handleBoothSet, ⟨fun _ _ _ => rfl, rfl, rfl⟩, refusesMalformed_of_none fun _ h => readBoothSet_eq_none (by simpa [RequestForm.Malformed] using h)⟩
  · exact ⟨.config, handleStart, ⟨fun _ _ _ => rfl, rfl, rfl⟩, refusesMalformed_of_none fun _ h => sized_of_ne (h.length rfl (by decide))⟩
  · exact absurd rfl stop
  · exact absurd rfl restart
  · exact ⟨.both, handlePartitionDeclare, ⟨fun _ _ _ => rfl, rfl, rfl⟩, refusesMalformed_of_none fun _ h => readPartitionDeclare_eq_none (by simpa [RequestForm.Malformed] using h)⟩
  · exact ⟨.run, handleRoomSet, ⟨fun _ _ _ => rfl, rfl, rfl⟩, fun _ _ h => handleRoomSet_refusesMalformed (by simpa [RequestForm.Malformed] using h)⟩
  · exact ⟨.run, handleLevelSet, ⟨fun _ _ _ => rfl, rfl, rfl⟩, refusesMalformed_of_none fun _ h => sized_map_eq_none (h.length rfl (by decide))⟩
  · exact ⟨.run, handleLanguagesSet, ⟨fun _ _ _ => rfl, rfl, rfl⟩, refusesMalformed_of_none fun _ h => readLanguagesSet_eq_none (h.length rfl (by decide))⟩
  · exact ⟨.run, handleSessionOpen, ⟨fun _ _ _ => rfl, rfl, rfl⟩, refusesMalformed_of_none fun _ h => sized_map_eq_none (h.length rfl (by decide))⟩
  · exact ⟨.run, handleSessionArm, ⟨fun _ _ _ => rfl, rfl, rfl⟩, refusesMalformed_of_none fun _ h => sized_map_eq_none (h.length rfl (by decide))⟩
  · exact ⟨.run, handleSessionDisarm, ⟨fun _ _ _ => rfl, rfl, rfl⟩, refusesMalformed_of_none fun _ h => sized_map_eq_none (h.length rfl (by decide))⟩
  · exact ⟨.run, handleSessionEnd, ⟨fun _ _ _ => rfl, rfl, rfl⟩, refusesMalformed_of_none fun _ h => sized_map_eq_none (h.length rfl (by decide))⟩
  · exact ⟨.run, handleRoomQuery, ⟨fun _ _ _ => rfl, rfl, rfl⟩, refusesMalformed_of_none fun _ h => sized_map_eq_none (h.length rfl (by decide))⟩
  · exact ⟨.run, handleMicOpen, ⟨fun _ _ _ => rfl, rfl, rfl⟩, refusesMalformed_of_none fun _ h => sized_map_eq_none (h.length rfl (by decide))⟩
  · exact ⟨.run, handleMicClose, ⟨fun _ _ _ => rfl, rfl, rfl⟩, refusesMalformed_of_none fun _ h => sized_map_eq_none (h.length rfl (by decide))⟩
  · exact ⟨.run, handleRequestAdd, ⟨fun _ _ _ => rfl, rfl, rfl⟩, refusesMalformed_of_none fun _ h => sized_map_eq_none (h.length rfl (by decide))⟩
  · exact ⟨.run, handleRequestCancel, ⟨fun _ _ _ => rfl, rfl, rfl⟩, refusesMalformed_of_none fun _ h => sized_map_eq_none (h.length rfl (by decide))⟩
  · exact ⟨.run, handleNext, ⟨fun _ _ _ => rfl, rfl, rfl⟩, refusesMalformed_of_none fun _ h => readNext_eq_none (by simpa [RequestForm.Malformed] using h)⟩
  · exact ⟨.run, handleQueueClear, ⟨fun _ _ _ => rfl, rfl, rfl⟩, refusesMalformed_of_none fun _ h => sized_map_eq_none (h.length rfl (by decide))⟩
  · exact ⟨.run, handleSeatTrim, ⟨fun _ _ _ => rfl, rfl, rfl⟩, refusesMalformed_of_none fun _ h => sized_map_eq_none (h.length rfl (by decide))⟩
  · exact ⟨.both, handleSeatQuery, ⟨fun _ _ _ => rfl, rfl, rfl⟩, refusesMalformed_of_none fun _ h => sized_map_eq_none (h.length rfl (by decide))⟩
  · exact ⟨.run, handleQueueQuery, ⟨fun _ _ _ => rfl, rfl, rfl⟩, refusesMalformed_of_none fun _ h => sized_map_eq_none (h.length rfl (by decide))⟩
  · exact ⟨.run, handleBoothSource, ⟨fun _ _ _ => rfl, rfl, rfl⟩, refusesMalformed_of_none fun _ h => readBoothSource_eq_none (by simpa [RequestForm.Malformed] using h)⟩
  · exact ⟨.run, handleBoothTrim, ⟨fun _ _ _ => rfl, rfl, rfl⟩, refusesMalformed_of_none fun _ h => sized_map_eq_none (h.length rfl (by decide))⟩
  · exact ⟨.run, handleBoothOff, ⟨fun _ _ _ => rfl, rfl, rfl⟩, refusesMalformed_of_none fun _ h => sized_map_eq_none (h.length rfl (by decide))⟩
  · exact ⟨.both, handleBoothQuery, ⟨fun _ _ _ => rfl, rfl, rfl⟩, refusesMalformed_of_none fun _ h => sized_map_eq_none (h.length rfl (by decide))⟩
  · exact ⟨.both, handleSlotQuery, ⟨fun _ _ _ => rfl, rfl, rfl⟩, refusesMalformed_of_none fun _ h => readSlotQuery_eq_none (by simpa [RequestForm.Malformed] using h)⟩
  · exact ⟨.both, handleGroupSet, ⟨fun _ _ _ => rfl, rfl, rfl⟩, refusesMalformed_of_none fun _ h => readGroupSet_eq_none (by simpa [RequestForm.Malformed] using h)⟩
  · exact ⟨.both, handleCounterSet, ⟨fun _ _ _ => rfl, rfl, rfl⟩, refusesMalformed_of_none fun _ h => readCounterSet_eq_none (by simpa [RequestForm.Malformed] using h)⟩
  · exact ⟨.both, handleCounterRead, ⟨fun _ _ _ => rfl, rfl, rfl⟩, refusesMalformed_of_none fun _ h => sized_map_eq_none (h.length rfl (by decide))⟩
  · exact ⟨.both, handleIdentify, ⟨fun _ _ _ => rfl, rfl, rfl⟩, refusesMalformed_of_none fun _ h => sized_of_ne (h.length rfl (by decide))⟩

/-- A form is known by its kind. -/
theorem form_eq_of_kind {g : RequestForm} (hf : f ∈ requestForms) (hg : g ∈ requestForms) (kind : f.kind = g.kind) : f = g :=
  List.inj_on_of_nodup_map (l := requestForms) (f := RequestForm.kind) (by decide) hf hg kind

/-- STOP and RESTART are worked later, in RUN and without a body (R200, R201). -/
theorem later_of_mem (hf : f ∈ requestForms) (kind : f.kind = 0x06 ∨ f.kind = 0x07) :
    f.config = false ∧ f.run = true ∧ (∀ body, f.Malformed body → body ≠ []) ∧
      ∃ work : Byte → State → State, ∀ s tag body, exec (f.command tag body) s = .next (s.later f.kind tag body (work tag)) := by
  have empty : ∀ body, f.Malformed body → f.coded = [] → f.size body = 0 → body ≠ [] := by
    intro body h coded size nil
    refine h.length coded ?_ ?_
    · rcases kind with h | h <;> rw [h] <;> decide
    · rw [nil] at size ⊢
      exact size.symm
  rcases kind with kind | kind
  · obtain rfl := form_eq_of_kind (g := requestForms[0x05]) hf (List.getElem_mem _) kind
    exact ⟨rfl, rfl, fun body h => empty body h rfl rfl, fun tag t => t.enterConfig tag, fun _ _ _ => rfl⟩
  · obtain rfl := form_eq_of_kind (g := requestForms[0x06]) hf (List.getElem_mem _) kind
    exact ⟨rfl, rfl, fun body h => empty body h rfl rfl, fun tag t => t.scheduleRestart tag, fun _ _ _ => rfl⟩

/-- A request that its phase does not allow is refused with WRONG_PHASE (R195 (2), R198). -/
theorem refused_wrongPhase (hf : f ∈ requestForms) (take : s.CanTake ⟨f.kind, tag, body⟩) (phase : f.allowed s = false) :
    exec (f.command tag body) s = .next (s.served ⟨f.kind, tag, .refuse .wrongPhase⟩) := by
  by_cases kind : f.kind = 0x06 ∨ f.kind = 0x07
  · obtain ⟨-, run, -, work, runs⟩ := later_of_mem hf kind
    rw [runs, State.later, State.taking_of_canTake take]
    refine congrArg Host.Outcome.next (if_pos fun h => ?_)
    have h : s.link.phase = .run := h
    simp [RequestForm.allowed, h, run] at phase
  · rw [not_or] at kind
    obtain ⟨allowed, handle, handed, -⟩ := handedTo_of_mem hf kind.1 kind.2
    exact handed.wrongPhase take phase

/-- In a phase that allows it a request with a malformed body is refused with BAD_VALUE (R195 (3)). -/
theorem refused_malformed (hf : f ∈ requestForms) (take : s.CanTake ⟨f.kind, tag, body⟩) (phase : f.allowed s = true)
    (malformed : f.Malformed body) : exec (f.command tag body) s = .next (s.served ⟨f.kind, tag, .refuse .badValue⟩) := by
  by_cases kind : f.kind = 0x06 ∨ f.kind = 0x07
  · obtain ⟨config, -, nonempty, work, runs⟩ := later_of_mem hf kind
    have run : s.link.phase = .run := by
      cases h : s.link.phase
      · simp [RequestForm.allowed, h, config] at phase
      · rfl
    rw [runs, State.later, State.taking_of_canTake take]
    exact congrArg Host.Outcome.next ((if_neg (not_not_intro run)).trans (if_pos (nonempty body malformed)))
  · rw [not_or] at kind
    obtain ⟨allowed, handle, handed, refuses⟩ := handedTo_of_mem hf kind.1 kind.2
    exact handed.refused take phase (refuses body _ malformed)

theorem withBody_sized {α : Type} {n : Nat} {g : Unit → α} {k : α → State × Answer} (h : body.length = n) :
    withBody s ((sized n body).map g) k = k (g ()) := by
  rw [sized_of_length h]
  rfl

theorem withBody_of_some {α : Type} {fields : Option α} {x : α} {k : α → State × Answer} (h : fields = some x) :
    withBody s fields k = k x := by
  rw [h]
  rfl

theorem readNext_eq_some (size : body.length = 2) (manner : byteAt body 1 < 2) :
    ∃ replace, readNext body = some (byteAt body 0, replace) := by
  unfold readNext
  rw [sized_of_length size, codedAt_of_lt manner]
  exact ⟨_, rfl⟩

/-- A well-formed body of a form has its length, and its coded bytes are in their codings. -/
theorem RequestForm.wellFormed (h : ¬ f.Malformed body) :
    body.length = f.size body ∧ (∀ p ∈ f.coded, byteAt body p.1 < p.2) ∧ (f.kind = 0x09 →
      ¬ ∃ p ∈ roomSetCoded, (word16At body 1).testBit (15 - p.1) = true ∧ p.2.2 ≤ byteAt body p.2.1) := by
  unfold RequestForm.Malformed at h
  rw [not_or, not_or, not_not] at h
  obtain ⟨size, coded, profile⟩ := h
  exact ⟨size, fun p hp => Nat.lt_of_not_le fun le => coded ⟨p, hp, le⟩, fun kind bad => profile ⟨kind, bad⟩⟩

theorem handleRoomSet_inRoom (size : body.length = 27)
    (profile : ¬ ∃ p ∈ roomSetCoded, (word16At body 1).testBit (15 - p.1) = true ∧ p.2.2 ≤ byteAt body p.2.1) :
    ∃ g, handleRoomSet body s = s.inRoom (byteAt body 0) g := by
  rw [← roomSet_profileFrom_eq_none, ← ne_eq, Option.ne_none_iff_exists'] at profile
  obtain ⟨p, read⟩ := profile
  have inRoom : handleRoomSet body s = _ := withBody_sized size
  simp only [read] at inRoom
  exact ⟨_, inRoom⟩

/-- A form that names a room reaches it by the segment in its first byte (R12). -/
theorem handedTo_inRoom (hf : f ∈ requestForms) (room : f.room = true) :
    ∃ allowed handle, f.HandedTo allowed handle ∧
      ∀ body s, ¬ f.Malformed body → ∃ g, handle body s = s.inRoom (byteAt body 0) g := by
  have listed := List.mem_filter.2 ⟨hf, room⟩
  simp only [requestForms, List.filter, List.mem_cons, List.not_mem_nil, or_false] at listed
  rcases listed with rfl | rfl | rfl | rfl | rfl | rfl | rfl | rfl | rfl | rfl | rfl
  · refine ⟨.run, handleRoomSet, ⟨fun _ _ _ => rfl, rfl, rfl⟩, fun _ _ h => ?_⟩
    obtain ⟨size, -, profile⟩ := RequestForm.wellFormed h
    exact handleRoomSet_inRoom size (profile rfl)
  · exact ⟨.run, handleLevelSet, ⟨fun _ _ _ => rfl, rfl, rfl⟩, fun _ _ h => ⟨_, withBody_sized (RequestForm.wellFormed h).1⟩⟩
  · refine ⟨.run, handleLanguagesSet, ⟨fun _ _ _ => rfl, rfl, rfl⟩, fun body _ h => ?_⟩
    have size : body.length = 2 + byteAt body 1 := (RequestForm.wellFormed h).1
    exact ⟨_, withBody_of_some (if_pos (by simp [size]))⟩
  · exact ⟨.run, handleSessionOpen, ⟨fun _ _ _ => rfl, rfl, rfl⟩, fun _ _ h => ⟨_, withBody_sized (RequestForm.wellFormed h).1⟩⟩
  · exact ⟨.run, handleSessionArm, ⟨fun _ _ _ => rfl, rfl, rfl⟩, fun _ _ h => ⟨_, withBody_sized (RequestForm.wellFormed h).1⟩⟩
  · exact ⟨.run, handleSessionDisarm, ⟨fun _ _ _ => rfl, rfl, rfl⟩, fun _ _ h => ⟨_, withBody_sized (RequestForm.wellFormed h).1⟩⟩
  · exact ⟨.run, handleSessionEnd, ⟨fun _ _ _ => rfl, rfl, rfl⟩, fun _ _ h => ⟨_, withBody_sized (RequestForm.wellFormed h).1⟩⟩
  · exact ⟨.run, handleRoomQuery, ⟨fun _ _ _ => rfl, rfl, rfl⟩, fun _ _ h => ⟨_, withBody_sized (RequestForm.wellFormed h).1⟩⟩
  · refine ⟨.run, handleNext, ⟨fun _ _ _ => rfl, rfl, rfl⟩, fun _ _ h => ?_⟩
    obtain ⟨size, coded, -⟩ := RequestForm.wellFormed h
    obtain ⟨replace, read⟩ := readNext_eq_some size (coded (1, 2) (by simp))
    exact ⟨_, withBody_of_some read⟩
  · exact ⟨.run, handleQueueClear, ⟨fun _ _ _ => rfl, rfl, rfl⟩, fun _ _ h => ⟨_, withBody_sized (RequestForm.wellFormed h).1⟩⟩
  · exact ⟨.run, handleQueueQuery, ⟨fun _ _ _ => rfl, rfl, rfl⟩, fun _ _ h => ⟨_, withBody_sized (RequestForm.wellFormed h).1⟩⟩

/-- The requests on an installed seat reach it by its number (R85, R97 to R99). -/
theorem handedTo_onSeat (hf : f ∈ requestForms) (kind : f.kind ∈ ([0x11, 0x12, 0x13, 0x14, 0x17] : List Byte)) :
    ∃ allowed handle, f.HandedTo allowed handle ∧
      ∀ body s, ¬ f.Malformed body → ∃ g, handle body s = s.onSeat (word16At body 0) g := by
  simp only [List.mem_cons, List.not_mem_nil, or_false] at kind
  rcases kind with kind | kind | kind | kind | kind
  · obtain rfl := form_eq_of_kind (g := requestForms[0x10]) hf (List.getElem_mem _) kind
    exact ⟨.run, handleMicOpen, ⟨fun _ _ _ => rfl, rfl, rfl⟩, fun _ _ h => ⟨_, withBody_sized (RequestForm.wellFormed h).1⟩⟩
  · obtain rfl := form_eq_of_kind (g := requestForms[0x11]) hf (List.getElem_mem _) kind
    exact ⟨.run, handleMicClose, ⟨fun _ _ _ => rfl, rfl, rfl⟩, fun _ _ h => ⟨_, withBody_sized (RequestForm.wellFormed h).1⟩⟩
  · obtain rfl := form_eq_of_kind (g := requestForms[0x12]) hf (List.getElem_mem _) kind
    exact ⟨.run, handleRequestAdd, ⟨fun _ _ _ => rfl, rfl, rfl⟩, fun _ _ h => ⟨_, withBody_sized (RequestForm.wellFormed h).1⟩⟩
  · obtain rfl := form_eq_of_kind (g := requestForms[0x13]) hf (List.getElem_mem _) kind
    exact ⟨.run, handleRequestCancel, ⟨fun _ _ _ => rfl, rfl, rfl⟩, fun _ _ h => ⟨_, withBody_sized (RequestForm.wellFormed h).1⟩⟩
  · obtain rfl := form_eq_of_kind (g := requestForms[0x16]) hf (List.getElem_mem _) kind
    exact ⟨.run, handleSeatTrim, ⟨fun _ _ _ => rfl, rfl, rfl⟩, fun _ _ h => ⟨_, withBody_sized (RequestForm.wellFormed h).1⟩⟩

theorem readBoothSource_eq_some (size : body.length = 3) (coded : byteAt body 1 < 2) : readBoothSource body =
    some (byteAt body 0, if byteAt body 1 = 1 then .relay (byteAt body 2) else .floor) := by
  unfold readBoothSource sourceAt
  rw [sized_of_length size]
  obtain zero | one : byteAt body 1 = 0 ∨ byteAt body 1 = 1 := by omega
  · rw [zero]
    rfl
  · rw [one]
    rfl

/-- BOOTH_SOURCE refuses a relay code out of range, and else reaches the booth (R146). -/
theorem handleBoothSource_eq (size : body.length = 3) (coded : byteAt body 1 < 2) : handleBoothSource body s =
    if byteAt body 1 = 1 ∧ (byteAt body 2 < 1 ∨ 63 < byteAt body 2) then refuse s .badValue
    else s.onBooth (byteAt body 0) fun booth =>
      if (if byteAt body 1 = 1 then Source.relay (byteAt body 2) else .floor).relays booth.language then refuse s .badValue
      else (s.resource (byteAt body 0) (if byteAt body 1 = 1 then .relay (byteAt body 2) else .floor),
        .ok (.listen ((s.resource (byteAt body 0) (if byteAt body 1 = 1 then .relay (byteAt body 2) else .floor)).boothAt
          (byteAt body 0)).listen)) := by
  refine (withBody_of_some (readBoothSource_eq_some size coded)).trans (if_congr ?_ rfl rfl)
  by_cases relay : byteAt body 1 = 1
  · simp [relay, Source.inRange]
  · simp [relay, Source.inRange]

/-- The requests on an installed booth reach it by its number, but for a BOOTH_SOURCE whose relay code is out of range (R140, R146,
R147). -/
theorem handedTo_onBooth (hf : f ∈ requestForms) (kind : f.kind ∈ ([0x1A, 0x1B, 0x1C] : List Byte)) :
    ∃ allowed handle, f.HandedTo allowed handle ∧ ∀ body s, ¬ f.Malformed body →
      (∃ g, handle body s = s.onBooth (byteAt body 0) g) ∨
      (handle body s = refuse s .badValue ∧ f.kind = 0x1A ∧ byteAt body 1 = 1 ∧ ¬ (1 ≤ byteAt body 2 ∧ byteAt body 2 ≤ 63)) := by
  simp only [List.mem_cons, List.not_mem_nil, or_false] at kind
  rcases kind with kind | kind | kind
  · obtain rfl := form_eq_of_kind (g := requestForms[0x19]) hf (List.getElem_mem _) kind
    refine ⟨.run, handleBoothSource, ⟨fun _ _ _ => rfl, rfl, rfl⟩, fun body s h => ?_⟩
    obtain ⟨size, coded, -⟩ := RequestForm.wellFormed h
    rw [handleBoothSource_eq size (coded (1, 2) (List.mem_singleton_self _))]
    split
    · next out => exact .inr ⟨rfl, rfl, out.1, by omega⟩
    · exact .inl ⟨_, rfl⟩
  · obtain rfl := form_eq_of_kind (g := requestForms[0x1A]) hf (List.getElem_mem _) kind
    exact ⟨.run, handleBoothTrim, ⟨fun _ _ _ => rfl, rfl, rfl⟩,
      fun _ _ h => .inl ⟨_, withBody_sized (RequestForm.wellFormed h).1⟩⟩
  · obtain rfl := form_eq_of_kind (g := requestForms[0x1B]) hf (List.getElem_mem _) kind
    exact ⟨.run, handleBoothOff, ⟨fun _ _ _ => rfl, rfl, rfl⟩,
      fun _ _ h => .inl ⟨_, withBody_sized (RequestForm.wellFormed h).1⟩⟩

theorem readPartitionDeclare_eq_some (size : body.length = 2) (coded : byteAt body 1 < 2) :
    ∃ wall, readPartitionDeclare body = some (byteAt body 0, wall) := by
  unfold readPartitionDeclare
  rw [sized_of_length size, codedAt_of_lt coded]
  exact ⟨_, rfl⟩

theorem readSlotQuery_eq_some (size : body.length = 2) (coded : byteAt body 0 < 2) :
    readSlotQuery body = some (decide (byteAt body 0 = 1), byteAt body 1) := by
  have list : codedAt [false, true] body 0 = some (decide (byteAt body 0 = 1)) := yesNoAt_of_le (Nat.le_of_lt_succ coded)
  unfold readSlotQuery
  rw [sized_of_length size, list]

end

end Sys2Proof.Machine

open Sys2Proof.Machine

/-- Settles O53. The forms are gone through for what they share, and again for what they name; the statement's `refused` is an exec
that answers with the status. -/
theorem sharedChecksRefuseRequests : Obligations.SharedChecksRefuseRequests := by
  unfold Obligations.SharedChecksRefuseRequests
  intro s f tag body refused malformed first second pair hf take hrefused hmalformed hfirst hsecond hpair
  subst hfirst hsecond hpair
  have wf : malformed ↔ f.Malformed body := hmalformed
  simp only [hrefused, wf]
  refine ⟨refused_wrongPhase hf take, refused_malformed hf take, fun phase right => ⟨fun room => ?_, fun kind => ?_,
    fun kind => ?_, fun kind relay => ?_, fun kind => ?_, fun kind => ?_, fun kind => ?_, fun kind => ?_, fun kind => ?_,
    fun kind => ?_⟩⟩
  · obtain ⟨allowed, handle, handed, reach⟩ := handedTo_inRoom hf room
    obtain ⟨g, reached⟩ := reach body s.popInput right
    exact ⟨fun out => handed.refused take phase (reached.trans (State.inRoom_of_outside (segmentOk_eq_false.2 out) _)),
      fun low high out => handed.refused take phase
        (reached.trans (State.inRoom_of_not_installed (s := s.popInput) (segmentOk_iff.2 ⟨low, high⟩) out _))⟩
  · obtain ⟨allowed, handle, handed, reach⟩ := handedTo_onSeat hf kind
    obtain ⟨g, reached⟩ := reach body s.popInput right
    exact ⟨fun out => handed.refused take phase (reached.trans (State.onSeat_of_outside (seatNumberOk_eq_false.2 out) _)),
      fun h1 h2 h3 out => handed.refused take phase
        (reached.trans (State.onSeat_of_not_installed (s := s.popInput) (seatNumberOk_iff.2 ⟨h1, h2, h3⟩) out _))⟩
  · obtain ⟨allowed, handle, handed, reach⟩ := handedTo_onBooth hf kind
    obtain ⟨g, reached⟩ | ⟨refuses, source, relay, range⟩ := reach body s.popInput right
    · exact ⟨fun out => handed.refused take phase (reached.trans (State.onBooth_of_outside (boothOk_eq_false.2 out) _)),
        fun low high out _ => handed.refused take phase
          (reached.trans (State.onBooth_of_not_installed (s := s.popInput) (boothOk_iff.2 ⟨low, high⟩) out _))⟩
    · exact ⟨fun _ => handed.refused take phase refuses, fun _ _ _ inRange => absurd (inRange source relay) range⟩
  · obtain rfl := form_eq_of_kind (g := requestForms[0x19]) hf (List.getElem_mem _) kind
    obtain ⟨size, coded, -⟩ := RequestForm.wellFormed right
    have reached := handleBoothSource_eq (s := s.popInput) size (coded (1, 2) (List.mem_singleton_self _))
    have handed : requestForms[0x19].HandedTo .run handleBoothSource := ⟨fun _ _ _ => rfl, rfl, rfl⟩
    refine ⟨fun out => handed.refused take phase (reached.trans (if_pos ⟨relay, out⟩)), fun low high inst same => ?_⟩
    by_cases out : byteAt body 2 < 1 ∨ 63 < byteAt body 2
    · exact handed.refused take phase (reached.trans (if_pos ⟨relay, out⟩))
    · refine handed.refused take phase (reached.trans ((if_neg fun h => out h.2).trans ?_))
      rw [State.onBooth_of_installed low high inst, if_pos relay]
      exact if_pos (by simp [Source.relays, same])
  · obtain rfl := form_eq_of_kind (g := requestForms[0x1B]) hf (List.getElem_mem _) kind
    intro low high inst none1 none2
    have handed : requestForms[0x1B].HandedTo .run handleBoothOff := ⟨fun _ _ _ => rfl, rfl, rfl⟩
    refine handed.refused take phase ((withBody_sized (RequestForm.wellFormed right).1).trans
      ((State.onBooth_of_installed (s := s) low high inst _).trans ?_))
    have ownerless : s.popInput.boothOwner (byteAt body 0) = none := by
      have e1 : (s.popInput.console (2 * byteAt body 0 - 1)).owned = none := none1
      have e2 : (s.popInput.console (2 * byteAt body 0)).owned = none := none2
      simp [State.boothOwner, e1, e2]
    simp only [ownerless]
  · obtain rfl := form_eq_of_kind (g := requestForms[0x07]) hf (List.getElem_mem _) kind
    obtain ⟨size, coded, -⟩ := RequestForm.wellFormed right
    obtain ⟨wall, read⟩ := readPartitionDeclare_eq_some size (coded (1, 2) (List.mem_singleton_self _))
    have handed : requestForms[0x07].HandedTo .both handlePartitionDeclare := ⟨fun _ _ _ => rfl, rfl, rfl⟩
    refine ⟨fun out => handed.refused take phase ((withBody_of_some read).trans (if_pos ?_)),
      fun low high out => handed.refused take phase ((withBody_of_some read).trans ((if_neg ?_).trans (if_pos ?_)))⟩
    · simp [partitionOk]
      omega
    · simp [partitionOk, low, high]
    · exact (congrArg Bool.not out : (!(s.popInput.partition _).installed) = true)
  · obtain rfl := form_eq_of_kind (g := requestForms[0x17]) hf (List.getElem_mem _) kind
    have handed : requestForms[0x17].HandedTo .both handleSeatQuery := ⟨fun _ _ _ => rfl, rfl, rfl⟩
    exact fun out => handed.refused take phase ((withBody_sized (RequestForm.wellFormed right).1).trans
      (if_neg (Bool.eq_false_iff.1 (seatNumberOk_eq_false.2 out))))
  · obtain rfl := form_eq_of_kind (g := requestForms[0x18]) hf (List.getElem_mem _) kind
    intro a r room out
    have handed : requestForms[0x18].HandedTo .run handleQueueQuery := ⟨fun _ _ _ => rfl, rfl, rfl⟩
    exact handed.refused take phase ((withBody_sized (RequestForm.wellFormed right).1).trans
      ((State.inRoom_of_roomAt room _).trans (if_pos (by simpa using out))))
  · obtain rfl := form_eq_of_kind (g := requestForms[0x1C]) hf (List.getElem_mem _) kind
    have handed : requestForms[0x1C].HandedTo .both handleBoothQuery := ⟨fun _ _ _ => rfl, rfl, rfl⟩
    exact fun out => handed.refused take phase ((withBody_sized (RequestForm.wellFormed right).1).trans
      (if_neg (Bool.eq_false_iff.1 (boothOk_eq_false.2 out))))
  · obtain rfl := form_eq_of_kind (g := requestForms[0x1D]) hf (List.getElem_mem _) kind
    obtain ⟨size, coded, -⟩ := RequestForm.wellFormed right
    have handed : requestForms[0x1D].HandedTo .both handleSlotQuery := ⟨fun _ _ _ => rfl, rfl, rfl⟩
    have read := readSlotQuery_eq_some size (coded (0, 2) (List.mem_singleton_self _))
    exact ⟨fun slot out => handed.refused take phase ((withBody_of_some read).trans (if_pos (by simp [slot, out]))),
      fun list out => handed.refused take phase ((withBody_of_some read).trans (if_pos (by simpa [list] using out)))⟩
end

section
/-! SUPPORT. The settings of a room, and SESSION_ARM and SESSION_DISARM (O10, O13). -/

namespace Sys2Proof.Machine

section
variable {s : State} {a k word : Nat} {r : Room} {p : Profile} {body bytes : List Byte}

theorem State.modRoom_of_room (h : s.room a = some r) (f : Room → Room) : s.modRoom a f = s.setRoom a (some (f r)) := by
  unfold State.modRoom
  rw [h]

theorem State.modRoom_of_none (h : s.room a = none) (f : Room → Room) : s.modRoom a f = s := by
  unfold State.modRoom
  rw [h]

/-- A room is written under its anchor: what the table then holds. -/
theorem State.setRoom_rooms (s : State) (a : Nat) (x : Room) :
    (s.setRoom a (some x)).room a = some x ∧ ∀ b, b ≠ a → (s.setRoom a (some x)).room b = s.room b :=
  ⟨State.setRoom_room_same .., fun _ hb => (State.setRoom_room ..).trans (if_neg hb)⟩

/-! ## ROOM_SET and LEVEL_SET -/

/-- Whether a body has a structural error does not depend on the profile it is read over. -/
theorem profileFrom_isNone {sel : Nat → Bool} {b : List Byte} (old old' : Profile) (h : profileFrom sel old b = none) :
    profileFrom sel old' b = none := by
  rw [profileFrom_eq_none] at h ⊢
  exact h

theorem handleRoomSet_of_refused (read : readRoomSet body = some (k, word, bytes)) (at_ : s.RoomAt k a r)
    (refused : selectionRefused word = true) : handleRoomSet body s.popInput = refuse s.popInput .badValue := by
  refine (withBody_of_some read).trans ?_
  dsimp only
  split
  · rfl
  · rw [State.inRoom_of_roomAt at_]
    exact if_pos refused

/-- A ROOM_SET with a selection that may be made gives the room the profile that its bytes make (R22). -/
theorem handleRoomSet_of_profile (read : readRoomSet body = some (k, word, bytes)) (at_ : s.RoomAt k a r)
    (selected : selectionRefused word = false) (profile : profileFrom (selection word) r.profile bytes = some p) :
    handleRoomSet body s.popInput =
      (s.popInput.setProfile r p, .okClamped (profileClamps (selection word) bytes) (.room a)) := by
  have noLanguages : selection word 14 = false := by
    simp only [selectionRefused, Bool.or_eq_false_iff] at selected
    exact selected.1.2
  have same : (fun k => selection word k && decide (k ≠ 14)) = selection word := by
    funext k
    by_cases h : k = 14
    · rw [h, noLanguages]
      rfl
    · simp [h]
  refine (withBody_of_some read).trans ?_
  dsimp only
  split
  · next none =>
    rw [same] at none
    rw [profileFrom_isNone _ r.profile none] at profile
    cases profile
  · rw [State.inRoom_of_roomAt at_, at_.anchor, if_neg (Bool.eq_false_iff.1 selected), profile]

theorem Profile.mayPromote_iff {old : Profile} : old.mayPromote p = true ↔
    p.floorMode ≠ old.floorMode ∨ p.overflow ≠ old.overflow ∨ p.openLimit ≠ old.openLimit := by
  unfold Profile.mayPromote
  rw [ne_comm (a := p.floorMode), ne_comm (a := p.overflow), ne_comm (a := p.openLimit)]
  simp [or_assoc]

theorem State.setProfile_of_room (room : s.room a = some r) (anchor : r.anchor = a) : s.setProfile r p =
    if r.profile.mayPromote p then (s.setRoom a (some { r with profile := p })).promote a
    else s.setRoom a (some { r with profile := p }) := by
  subst anchor
  unfold State.setProfile
  rw [State.modRoom_of_room room]

theorem handleLevelSet_eq {kb xb : Byte} (at_ : s.RoomAt kb.toNat a r) : handleLevelSet [kb, xb] s.popInput =
    (s.popInput.setRoom a (some (r.withRequest (clampInt (-120) 0 xb.toInt))),
      .okClamped (clampInt (-120) 0 xb.toInt ≠ xb.toInt) (.levels a (clampInt (-120) 0 xb.toInt) r.ceiling
        (min (clampInt (-120) 0 xb.toInt) r.ceiling) r.level)) := by
  refine (State.inRoom_of_roomAt at_ _).trans ?_
  rw [at_.anchor]
  rfl

theorem Room.withRequest_eq (r : Room) (l : Int) : r.withRequest l = { r with
    profile := { r.profile with level := l }
    ramp := if min l r.ceiling ≠ min r.profile.level r.ceiling ∧ r.level ≠ min l r.ceiling then .ramping else r.ramp } := by
  unfold Room.withRequest Room.target
  dsimp only
  congr 1
  refine if_congr ?_ rfl rfl
  rw [Bool.and_eq_true, decide_eq_true_eq, decide_eq_true_eq]

/-! ## SESSION_ARM and SESSION_DISARM -/

/-- A byte is below 16 exactly if none of its bits 4 to 7 is set. -/
theorem lt_sixteen_iff (b : Byte) : b.toNat < 16 ↔ ∀ i, 4 ≤ i → i < 8 → b.getLsbD i = false := by
  constructor
  · intro low i h4 _
    exact Nat.testBit_lt_two_pow (low.trans_le (Nat.pow_le_pow_right (n := 2) (by decide) h4))
  · intro clear
    refine Nat.lt_pow_two_of_testBit (n := 4) _ fun i h4 => ?_
    by_cases h8 : i < 8
    · exact clear i h4 h8
    · exact BitVec.getLsbD_of_ge b i (by omega)

/-- The timer that SESSION_ARM gives, none for all ones (R27). -/
def givenTimer (t3 t2 t1 t0 : Byte) : Option Nat :=
  if word32 t3 t2 t1 t0 = 4294967295 then none else some (word32 t3 t2 t1 t0)

theorem handleSessionArm_eq {kb cb t3 t2 t1 t0 : Byte} (at_ : s.RoomAt kb.toNat a r) :
    handleSessionArm [kb, cb, t3, t2, t1, t0] s.popInput =
      if 16 ≤ cb.toNat then refuse s.popInput .badValue
      else if ((wakeOf cb.toNat).timer && decide (givenTimer t3 t2 t1 t0 = none)) = true then refuse s.popInput .badValue
      else if r.session ≠ .dormant then refuse s.popInput .wrongState
      else (s.popInput.arm r (wakeOf cb.toNat) ((givenTimer t3 t2 t1 t0).map (clampNat 1 86400)),
        .okClamped (givenTimer t3 t2 t1 t0 ≠ (givenTimer t3 t2 t1 t0).map (clampNat 1 86400)) (.room a)) := by
  refine (State.inRoom_of_roomAt at_ _).trans ?_
  rw [at_.anchor]
  rfl

theorem handleSessionDisarm_eq {kb : Byte} (at_ : s.RoomAt kb.toNat a r) : handleSessionDisarm [kb] s.popInput =
    if r.session = .armed then (s.popInput.disarm r, .ok (.room a)) else refuse s.popInput .wrongState := by
  refine (State.inRoom_of_roomAt at_ _).trans ?_
  rw [at_.anchor]

end

end Sys2Proof.Machine

open Sys2Proof.Machine

/-- Settles O10. -/
theorem roomAndLevelSetStoreTheirFields : Obligations.RoomAndLevelSetStoreTheirFields := by
  unfold Obligations.RoomAndLevelSetStoreTheirFields
  refine ⟨fun s tag body bytes k word a r p take run read at_ => ⟨fun refused => ?_, fun selected profile hm ho hl => ?_,
    fun selected profile changed => ?_⟩, fun s tag kb xb a r l take run at_ hl => ?_⟩
  · exact congrArg Host.Outcome.next (State.request_of_refuse take (by simp [Allowed.permits, run])
      (handleRoomSet_of_refused read at_ refused))
  · have handled := handleRoomSet_of_profile read at_ selected profile
    have same : ¬ r.profile.mayPromote p = true := by
      rw [Profile.mayPromote_iff]
      simp [hm, ho, hl]
    rw [State.setProfile_of_room (s := s.popInput) at_.room at_.anchor, if_neg same] at handled
    exact ⟨_, congrArg Host.Outcome.next (State.request_of_handled take (by simp [Allowed.permits, run]) handled),
      (State.setRoom_rooms s.popInput a _).1, (State.setRoom_rooms s.popInput a _).2, rfl⟩
  · have handled := handleRoomSet_of_profile read at_ selected profile
    rw [State.setProfile_of_room (s := s.popInput) at_.room at_.anchor, if_pos (Profile.mayPromote_iff.2 changed)] at handled
    exact ⟨s.popInput.setRoom a (some { r with profile := p }), (State.setRoom_rooms s.popInput a _).1,
      (State.setRoom_rooms s.popInput a _).2, rfl,
      congrArg Host.Outcome.next (State.request_of_handled take (by simp [Allowed.permits, run]) handled)⟩
  · have handled := handleLevelSet_eq (xb := xb) at_
    rw [clampInt_eq _ _ _ (by decide), ← hl] at handled
    exact ⟨_, _, congrArg Host.Outcome.next (State.request_of_handled take (by simp [Allowed.permits, run]) handled),
      (State.setRoom_rooms s.popInput a _).1, r.withRequest_eq l, rfl, (State.setRoom_rooms s.popInput a _).2, rfl⟩

/-- Settles O13. -/
theorem sessionArmAndDisarm : Obligations.SessionArmAndDisarm := by
  unfold Obligations.SessionArmAndDisarm
  refine ⟨fun s tag kb cb t3 t2 t1 t0 a r timer take run at_ htimer => ⟨fun wrong => ?_, fun clear given => ?_⟩,
    fun s tag kb a r take run at_ => ⟨fun armed => ?_, fun other => ?_⟩⟩
  · refine congrArg Host.Outcome.next (State.request_of_refuse take (by simp [Allowed.permits, run]) ?_)
    rw [handleSessionArm_eq at_]
    by_cases high : 16 ≤ cb.toNat
    · exact if_pos high
    · rw [if_neg high]
      rcases wrong with ⟨i, h4, h8, set⟩ | ⟨set, none⟩
      · have clear := (lt_sixteen_iff cb).1 (Nat.lt_of_not_le high) i h4 h8
        rw [set] at clear
        cases clear
      · have waits : (wakeOf cb.toNat).timer = true := set
        rw [htimer] at none
        exact if_pos (by rw [waits, givenTimer, none]; rfl)
  · have low : ¬ 16 ≤ cb.toNat := Nat.not_le.2 ((lt_sixteen_iff cb).2 clear)
    have timed : ¬ ((wakeOf cb.toNat).timer && decide (givenTimer t3 t2 t1 t0 = none)) = true := by
      rw [Bool.and_eq_true, decide_eq_true_eq]
      rintro ⟨set, none⟩
      exact given set (htimer.trans none)
    have handled := handleSessionArm_eq (cb := cb) (t3 := t3) (t2 := t2) (t1 := t1) (t0 := t0) at_
    rw [if_neg low, if_neg timed] at handled
    refine ⟨fun other => ?_, fun dormant => ?_⟩
    · rw [if_pos other] at handled
      exact congrArg Host.Outcome.next (State.request_of_refuse take (by simp [Allowed.permits, run]) handled)
    · rw [if_neg (not_not_intro dormant)] at handled
      have timer_eq : givenTimer t3 t2 t1 t0 = timer := htimer.symm
      have clamp : clampNat 1 86400 = fun n => max 1 (min 86400 n) := funext fun n => clampNat_eq _ _ _ (by decide)
      obtain rfl := at_.anchor
      rw [State.arm, dormant, timer_eq, clamp, Option.map_map] at handled
      exact ⟨_, congrArg Host.Outcome.next (State.request_of_handled take (by simp [Allowed.permits, run]) handled),
        (State.setRoom_rooms s.popInput r.anchor _).1, (State.setRoom_rooms s.popInput r.anchor _).2, rfl⟩
  · have handled := handleSessionDisarm_eq at_
    obtain rfl := at_.anchor
    rw [if_pos armed, State.disarm, armed] at handled
    exact ⟨_, congrArg Host.Outcome.next (State.request_of_handled take (by simp [Allowed.permits, run]) handled),
      (State.setRoom_rooms s.popInput r.anchor _).1, (State.setRoom_rooms s.popInput r.anchor _).2, rfl⟩
  · have handled := handleSessionDisarm_eq at_
    rw [if_neg other] at handled
    exact congrArg Host.Outcome.next (State.request_of_refuse take (by simp [Allowed.permits, run]) handled)

end

section
/-! SUPPORT. The floor's operations, each said once: what it makes of the seat and its room, what it reports, and what it leaves. -/

namespace Sys2Proof.Machine

/-! ## Buses: only queues -/

namespace State

section
variable {s t u : State}

theorem QueuesOnly.refl (s : State) : s.QueuesOnly s := fun _ => rfl

theorem QueuesOnly.trans (h : s.QueuesOnly t) (k : t.QueuesOnly u) : s.QueuesOnly u := fun i => by
  rw [k i, h i]

theorem QueuesOnly.of_buses (h : t.buses = s.buses) : s.QueuesOnly t := fun i => by
  unfold bus
  rw [h]

theorem join_bus_other {i j : Nat} (h : j ≠ i) (it : Item) : (s.join i it).bus j = s.bus j := by
  unfold join
  split
  · rfl
  · exact (setBus_bus ..).trans (if_neg h)

theorem join_queuesOnly (i : Nat) (it : Item) : s.QueuesOnly (s.join i it) := fun j => by
  unfold join
  split
  · rfl
  · rw [setBus_bus]
    split
    · subst_vars
      rfl
    · rfl

theorem join_eq (i : Nat) (it : Item) : s.join i it = { s with buses := (s.join i it).buses } := by
  unfold join
  split <;> rfl

theorem check_eq (i a : Nat) : s.check i a = { s with buses := (s.check i a).buses } := by
  unfold check
  split
  · exact join_eq i _
  · rfl

theorem check_bus_other {i j : Nat} (h : j ≠ i) (a : Nat) : (s.check i a).bus j = s.bus j := by
  unfold check
  split
  · exact join_bus_other h _
  · rfl

theorem check_queuesOnly (i a : Nat) : s.QueuesOnly (s.check i a) := by
  unfold check
  split
  · exact join_queuesOnly i _
  · exact .refl s

/-- From `s` to `t` no item of a unit that is not PRESENT has joined a queue. -/
def NoStrays (s t : State) : Prop :=
  ∀ i a, (s.unit i a).presence ≠ .present → Item.unit a ∈ (t.bus i).queue → Item.unit a ∈ (s.bus i).queue

theorem NoStrays.refl (s : State) : s.NoStrays s := fun _ _ _ listed => listed

theorem NoStrays.trans (h : s.NoStrays t) (k : t.NoStrays u) (kept : s.QueuesOnly t) : s.NoStrays u := fun i a away listed =>
  h i a away (k i a (by unfold unit at away ⊢; rwa [kept i]) listed)

theorem NoStrays.of_buses (h : t.buses = s.buses) : s.NoStrays t := fun i a _ listed => by
  unfold bus at listed ⊢
  rwa [← h]

theorem mem_join {i j : Nat} {it x : Item} (h : x ∈ ((s.join i it).bus j).queue) : x ∈ (s.bus j).queue ∨ j = i ∧ x = it := by
  unfold join at h
  split at h
  · exact .inl h
  · rw [setBus_bus] at h
    split at h
    · next here =>
      subst here
      rcases List.mem_append.1 h with old | new
      · exact .inl old
      · exact .inr ⟨rfl, List.mem_singleton.1 new⟩
    · exact .inl h

theorem NoStrays.joinMap (i k : Nat) : s.NoStrays (s.join i (.map k)) := fun _ _ _ listed => by
  rcases mem_join listed with old | ⟨-, wrong⟩
  · exact old
  · cases wrong

theorem NoStrays.check (i a : Nat) : s.NoStrays (s.check i a) := fun j b away listed => by
  unfold State.check at listed
  split at listed
  · next meets =>
    rcases mem_join listed with old | ⟨rfl, same⟩
    · exact old
    · obtain rfl := Item.unit.inj same
      simp only [Bool.and_eq_true, decide_eq_true_eq] at meets
      exact absurd meets.1.2 away
  · exact listed

/-! ## What the floor's operations leave -/

/-- From `s` to `t` nothing has happened but to room contexts, seats, the floor's three counts, pending queues and the link. -/
structure OnFloor (s t : State) : Prop where
  pending : t.pending = s.pending
  resetLow : t.resetLow = s.resetLow
  hall : t.hall = { s.hall with rooms := t.hall.rooms }
  groups : t.floor.groups = s.floor.groups
  queues : s.QueuesOnly t
  booth : t.booth = s.booth
  dist : t.dist = s.dist
  mix : t.mix = s.mix
  counts : t.counts = s.counts

namespace OnFloor

theorem refl (s : State) : s.OnFloor s := ⟨rfl, rfl, rfl, rfl, .refl s, rfl, rfl, rfl, rfl⟩

theorem trans (h : s.OnFloor t) (k : t.OnFloor u) : s.OnFloor u where
  pending := k.pending.trans h.pending
  resetLow := k.resetLow.trans h.resetLow
  hall := by rw [k.hall, h.hall]
  groups := k.groups.trans h.groups
  queues := h.queues.trans k.queues
  booth := k.booth.trans h.booth
  dist := k.dist.trans h.dist
  mix := k.mix.trans h.mix
  counts := k.counts.trans h.counts

theorem fold {α : Type} {f : State → α → State} (hf : ∀ (v : State) x, v.OnFloor (f v x)) (xs : List α) (s : State) :
    s.OnFloor (xs.foldl f s) := by
  induction xs generalizing s with
  | nil => exact refl s
  | cons x xs ih => exact (hf s x).trans (ih _)

theorem anchorOf (h : s.OnFloor t) (k : Nat) : t.anchorOf k = s.anchorOf k := by
  unfold State.anchorOf
  rw [h.hall]

theorem group (h : s.OnFloor t) (g : Nat) : t.group g = s.group g := by
  unfold State.group
  rw [h.groups]

theorem memberOf (h : s.OnFloor t) (g n : Nat) : t.memberOf g n = s.memberOf g n := by
  unfold State.memberOf
  rw [h.group]

theorem blocked (h : s.OnFloor t) (n : Nat) : t.blocked n = s.blocked n := by
  unfold State.blocked
  simp only [h.memberOf, h.group]

theorem countersOff (h : s.OnFloor t) (off : s.CountersOff) : t.CountersOff where
  off := fun c hc => by
    unfold State.counter
    rw [h.counts]
    exact off.off c hc
  none := by rw [h.counts, off.none]
  open_ := by rw [h.counts, off.open_]

/-- The whole state after work on the floor. -/
theorem eq (h : s.OnFloor t) : t = { s with
    hall := { s.hall with rooms := t.hall.rooms }
    floor := { s.floor with seats := t.floor.seats, openingCount := t.floor.openingCount, liveCount := t.floor.liveCount
                            stampCount := t.floor.stampCount }
    buses := t.buses
    link := t.link } := by
  obtain ⟨pending, resetLow, hall, groups, -, booth, dist, mix, counts⟩ := h
  cases s
  cases t
  subst pending resetLow booth dist mix counts
  dsimp only at hall groups ⊢
  rw [← hall, ← groups]

end OnFloor

/-- A seat is written. -/
theorem OnFloor.setSeat (n : Nat) (x : Seat) : s.OnFloor (s.setSeat n x) := ⟨rfl, rfl, rfl, rfl, .refl s, rfl, rfl, rfl, rfl⟩

theorem OnFloor.setRoom (a : Nat) (x : Option Room) : s.OnFloor (s.setRoom a x) :=
  ⟨rfl, rfl, rfl, rfl, .refl s, rfl, rfl, rfl, rfl⟩

theorem OnFloor.note (x : Notice) : s.OnFloor (s.note x) := ⟨rfl, rfl, rfl, rfl, .refl s, rfl, rfl, rfl, rfl⟩

theorem OnFloor.noteMic (n : Nat) (old : Mic) (c : MicCause) : s.OnFloor (s.noteMic n old c) := .note _

theorem OnFloor.countOpening : s.OnFloor s.countOpening := ⟨rfl, rfl, rfl, rfl, .refl s, rfl, rfl, rfl, rfl⟩

theorem OnFloor.countLive : s.OnFloor s.countLive := ⟨rfl, rfl, rfl, rfl, .refl s, rfl, rfl, rfl, rfl⟩

theorem OnFloor.countStamp : s.OnFloor s.countStamp := ⟨rfl, rfl, rfl, rfl, .refl s, rfl, rfl, rfl, rfl⟩

theorem OnFloor.join (i : Nat) (it : Item) : s.OnFloor (s.join i it) := by
  rw [join_eq]
  exact ⟨rfl, rfl, rfl, rfl, join_eq (s := s) i it ▸ join_queuesOnly i it, rfl, rfl, rfl, rfl⟩

theorem OnFloor.check (i a : Nat) : s.OnFloor (s.check i a) := by
  unfold State.check
  split
  · exact .join i _
  · exact .refl s

theorem OnFloor.modRoom (a : Nat) (f : Room → Room) : s.OnFloor (s.modRoom a f) := by
  unfold State.modRoom
  split
  · exact .refl s
  · exact .setRoom a _

theorem OnFloor.modSeatRoom (n : Nat) (f : Room → Room) : s.OnFloor (s.modSeatRoom n f) := by
  unfold State.modSeatRoom
  split
  · exact .refl s
  · exact .modRoom _ f

theorem OnFloor.reseat (n : Nat) : s.OnFloor (s.reseat n) := (OnFloor.setSeat n _).trans (.check _ _)

theorem OnFloor.unqueue (n : Nat) : s.OnFloor (s.unqueue n) := (OnFloor.modSeatRoom n _).trans (.setSeat n _)

theorem OnFloor.enterOpening (n : Nat) (c : MicCause) (g : Option Nat) : s.OnFloor (s.enterOpening n c g) := by
  unfold State.enterOpening
  dsimp only
  refine .trans (.trans (.trans (.trans (.trans ?_ (.setSeat n _)) .countOpening) (.modSeatRoom n _)) (.noteMic n _ c)) (.reseat n)
  split
  · exact .unqueue n
  · exact .refl s

theorem OnFloor.enterClosing (n : Nat) (c : MicCause) : s.OnFloor (s.enterClosing n c) :=
  ((OnFloor.setSeat n _).trans (.noteMic n _ c)).trans (.reseat n)

theorem OnFloor.withdraw (n : Nat) (c : MicCause) : s.OnFloor (s.withdraw n c) :=
  (((OnFloor.unqueue n).trans (.setSeat n _)).trans (.noteMic n _ c)).trans (.reseat n)

theorem OnFloor.takeCandidate (a : Nat) (e : Entry) (c : MicCause) : s.OnFloor (s.takeCandidate a e c) :=
  (OnFloor.enterOpening _ c none).trans (.modRoom a _)

theorem OnFloor.promoteRun (fuel a : Nat) (s : State) : s.OnFloor (Machine.promoteRun fuel a s) := by
  induction fuel generalizing s with
  | zero => exact .refl s
  | succ fuel ih =>
    unfold Machine.promoteRun
    split
    · exact .refl s
    · split
      · split
        · exact .refl s
        · split
          · exact .refl s
          · exact (OnFloor.takeCandidate a _ _).trans (ih _)
      · exact .refl s

theorem OnFloor.promote (a : Nat) : s.OnFloor (s.promote a) := by
  unfold State.promote
  split
  · exact .refl s
  · exact .promoteRun _ a s

end

end State

/-! ## Counters that are off -/

section
variable {s : State} {o : Occurrence}

theorem State.takeOccurrence_of_off {c : Nat} (h : (s.counter c).enabled = false) : s.takeOccurrence o c = s := by
  unfold State.takeOccurrence
  simp [h]

/-- With no counter enabled an occurrence changes nothing (R185). -/
theorem State.settleCounts_raise (h : s.CountersOff) : (s.raise o).settleCounts = s := by
  have taken : counterNumbers.foldl (fun t c => t.takeOccurrence o c) s = s :=
    foldl_of_fixed _ _ fun c hc => State.takeOccurrence_of_off (h.off c hc)
  have raised : (s.raise o).counts.raised = [o] := by rw [State.raise_counts_raised, h.none]; rfl
  have emptied : { s.raise o with counts := { (s.raise o).counts with raised := [] } } = s := by
    rw [← h.none]
    rfl
  have none_left : ∀ fuel, addOccurrences fuel s = s := by
    intro fuel
    cases fuel with
    | zero => rfl
    | succ fuel =>
      unfold addOccurrences
      rw [h.none]
  unfold State.settleCounts
  rw [if_neg (show ¬ (s.raise o).counts.deferring = true by rw [State.raise_counts_deferring, h.open_]; decide), raised,
    List.length_singleton, Nat.add_comm]
  unfold addOccurrences
  rw [raised]
  dsimp only
  rw [emptied, taken, none_left]

theorem State.refusePress_of_off (h : s.CountersOff) (n : Nat) (c : RefusedCause) :
    s.refusePress n c = s.note (.requestRefused n (s.seatAnchor n) c) :=
  State.settleCounts_raise ((State.OnFloor.note _).countersOff h)

/-- With no counter enabled a join ends with the seat's indication. -/
theorem State.joinQueue_of_off (h : s.CountersOff) (n : Nat) (c : MicCause) : s.joinQueue n c =
    let t := s.modSeatRoom n (fun r =>
      { r with queue := r.queue ++ [{ seat := n, stamp := s.floor.stampCount, segment := (s.seat n).segment }] })
    ((t.setSeat n { t.seat n with mic := .queued, stamp := some s.floor.stampCount }).countStamp.noteMic n .idle c).reseat n :=
  State.settleCounts_raise (State.OnFloor.countersOff
    (((((State.OnFloor.modSeatRoom n _).trans (.setSeat n _)).trans .countStamp).trans (.noteMic n _ c)).trans (.reseat n)) h)

theorem State.OnFloor.joinQueue (h : s.CountersOff) (n : Nat) (c : MicCause) : s.OnFloor (s.joinQueue n c) := by
  rw [State.joinQueue_of_off h]
  exact ((((State.OnFloor.modSeatRoom n _).trans (.setSeat n _)).trans .countStamp).trans (.noteMic n _ c)).trans (.reseat n)

end

end Sys2Proof.Machine
end

section
/-! SUPPORT. What the floor's operations make of seats, rooms and the link: an equation for each. -/

namespace Sys2Proof.Machine

/-! ## Tables -/

/-- A test that a written record meets exactly if the old one did holds somewhere in a table as before. -/
theorem any_tput {α : Type} {d v : α} {p : Nat × α → Bool} (hd : ∀ n, p (n, d) = false) (tb : Table α) (k : Nat)
    (h : p (k, v) = p (k, tget d tb k)) : (tput tb k v).any p = tb.any p := by
  induction tb with
  | nil => simpa [tput, hd] using h
  | cons x r ih =>
    obtain ⟨j, w⟩ := x
    by_cases same : k = j
    · subst same
      rw [tget, if_pos rfl] at h
      simp [tput, h]
    · have next : tget d ((j, w) :: r) k = tget d r k := by rw [tget, if_neg (Ne.symm same)]
      rw [next] at h
      unfold tput
      by_cases before : k < j
      · rw [if_pos before]
        have := ih h
        by_cases found : p (k, v) = true
        · have listed : r.any p = true := by
            by_contra none
            have absent : p (k, tget d r k) = false := by
              by_cases default : tget d r k = d
              · rw [default, hd]
              · have := List.any_eq_false.1 (Bool.not_eq_true _ ▸ none) _ (Kept.mem_of_tget default rfl)
                simpa using this
            rw [h, absent] at found
            cases found
          simp [listed]
        · simp [found]
      · rw [if_neg before, if_neg same, List.any_cons, List.any_cons, ih h]

theorem any_tset {α : Type} [DecidableEq α] {d v : α} {p : Nat × α → Bool} (hd : ∀ n, p (n, d) = false) (tb : Table α) (k : Nat)
    (h : p (k, v) = p (k, tget d tb k)) (hv : v ≠ d) : (tset d tb k v).any p = tb.any p := by
  rw [tset, if_neg hv]
  exact any_tput hd tb k h

namespace State

section
variable {s t : State} {n m a b : Nat} {x : Seat} {r : Room} {c : MicCause} {old : Mic} {g : Option Nat}

/-- Free slots do not change with a seat that keeps its slot. -/
theorem freeSlot_setSeat (hslot : x.slot = (s.seat n).slot) (hx : x ≠ Seat.initial) (i : Nat) :
    (s.setSeat n x).freeSlot i = s.freeSlot i := by
  unfold freeSlot
  refine congrArg (fun f => (List.range Config.upstreamSlots).find? f) (funext fun k => congrArg Bool.not ?_)
  refine any_tset (fun _ => by simp [Seat.initial]) _ _ ?_ hx
  show (decide (seatBus n = i) && decide (x.slot = some k)) = _
  rw [hslot]
  rfl

theorem ne_initial_of_mic (h : x.mic ≠ .absent) : x ≠ Seat.initial := fun e => h (by rw [e]; rfl)

theorem freeSlot_of_seats (h : t.floor.seats = s.floor.seats) (i : Nat) : t.freeSlot i = s.freeSlot i := by
  unfold freeSlot
  rw [h]

/-! ## Joining a queue of due items -/

@[simp] theorem check_hall (i k : Nat) : (s.check i k).hall = s.hall := by rw [check_eq]
@[simp] theorem check_floor (i k : Nat) : (s.check i k).floor = s.floor := by rw [check_eq]
@[simp] theorem check_link (i k : Nat) : (s.check i k).link = s.link := by rw [check_eq]

/-! ## Forming an indication -/

theorem reseat_seat : (s.reseat n).seat m = if m = n then { s.seat n with indication := s.indicationOf n } else s.seat m := by
  have floor : (s.reseat n).floor = (s.setSeat n { s.seat n with indication := s.indicationOf n }).floor := check_floor _ _
  rw [State.seat, floor]
  exact setSeat_seat ..

@[simp] theorem reseat_hall : (s.reseat n).hall = s.hall := check_hall _ _
@[simp] theorem reseat_link : (s.reseat n).link = s.link := check_link _ _
@[simp] theorem reseat_openingCount : (s.reseat n).floor.openingCount = s.floor.openingCount := by
  unfold reseat; rw [check_floor]; rfl
@[simp] theorem reseat_liveCount : (s.reseat n).floor.liveCount = s.floor.liveCount := by
  unfold reseat; rw [check_floor]; rfl
@[simp] theorem reseat_stampCount : (s.reseat n).floor.stampCount = s.floor.stampCount := by
  unfold reseat; rw [check_floor]; rfl
@[simp] theorem reseat_room : (s.reseat n).room m = s.room m := by unfold room; rw [reseat_hall]

theorem reseat_bus_other {i : Nat} (h : i ≠ seatBus n) : (s.reseat n).bus i = s.bus i := check_bus_other h _

/-! ## A seat's room -/

theorem modSeatRoom_of_room (ha : s.seatAnchor n = some a) (hr : s.room a = some r) (f : Room → Room) :
    s.modSeatRoom n f = s.setRoom a (some (f r)) := by
  unfold modSeatRoom
  rw [ha]
  exact modRoom_of_room hr f

/-- The indication of a seat in a room. -/
theorem indicationOf_eq (ha : s.seatAnchor n = some a) (hr : s.room a = some r) :
    s.indicationOf n = seatIndication (s.seat n) (some r.session) (s.blocked n) := by
  unfold indicationOf seatRoom roomOf
  rw [show s.anchorOf (s.seat n).segment = some a from ha]
  show seatIndication _ ((s.room a).map Room.session) _ = _
  rw [hr]
  rfl

/-- A seat's entry leaves the queue of its room (R115). -/
theorem unqueue_eq (ha : s.seatAnchor n = some a) (hr : s.room a = some r) : s.unqueue n =
    (s.setRoom a (some { r with queue := r.queue.filter (fun e => e.seat ≠ n) })).setSeat n { s.seat n with stamp := none } := by
  unfold unqueue
  rw [modSeatRoom_of_room ha hr]

/-! ## Opening (R87, R88, R115) -/

/-- The seat that has entered OPENING. -/
def openedSeat (s : State) (n : Nat) (g : Option Nat) : Seat :=
  { s.seat n with
    mic := .opening, slot := s.freeSlot (seatBus n), openingNumber := some s.floor.openingCount, grant := g
    stamp := if (s.seat n).mic = .queued then none else (s.seat n).stamp, indication := some .speaking }

/-- The room that the seat has opened in. -/
def openedRoom (s : State) (n : Nat) (r : Room) : Room :=
  { r with live := r.live ++ [n]
           queue := if (s.seat n).mic = .queued then r.queue.filter (fun e => decide (e.seat ≠ n)) else r.queue }

/-- The seat takes its place on the live list, its slot and its number, and is reported and shown. -/
def openAs (s : State) (n : Nat) (old : Mic) (c : MicCause) (g : Option Nat) : State :=
  (((s.setSeat n { s.seat n with
      mic := .opening, slot := s.freeSlot (seatBus n), openingNumber := some s.floor.openingCount, grant := g
    }).countOpening.modSeatRoom n (fun r => { r with live := r.live ++ [n] })).noteMic n old c).reseat n

theorem enterOpening_eq_openAs : s.enterOpening n c g =
    (if (s.seat n).mic = .queued then s.unqueue n else s).openAs n (s.seat n).mic c g := rfl

theorem openAs_eq (ha : s.seatAnchor n = some a) (hr : s.room a = some r) (session : r.session = .inSession) :
    (∀ m, (s.openAs n old c g).seat m = if m = n then { s.seat n with
      mic := .opening, slot := s.freeSlot (seatBus n), openingNumber := some s.floor.openingCount, grant := g
      indication := some .speaking } else s.seat m) ∧
    (∀ b, (s.openAs n old c g).room b = if b = a then some { r with live := r.live ++ [n] } else s.room b) ∧
    (s.openAs n old c g).floor.openingCount = s.floor.openingCount + 1 ∧
    (s.openAs n old c g).floor.liveCount = s.floor.liveCount ∧
    (s.openAs n old c g).floor.stampCount = s.floor.stampCount ∧
    (s.openAs n old c g).link =
      s.link.raise (.micState n (some a) old .opening c (s.seat n).muted (s.freeSlot (seatBus n))) := by
  obtain ⟨y, hy⟩ : ∃ y : Seat, y = { s.seat n with
    mic := .opening, slot := s.freeSlot (seatBus n), openingNumber := some s.floor.openingCount, grant := g } := ⟨_, rfl⟩
  have seat : (s.setSeat n y).seat n = y := setSeat_seat_same ..
  have anchor : (s.setSeat n y).seatAnchor n = some a := by
    rw [← ha, seatAnchor, seat, hy]
    rfl
  have room : (s.setSeat n y).room a = some r := hr
  have opened : s.openAs n old c g =
      ((((s.setSeat n y).countOpening.setRoom a (some { r with live := r.live ++ [n] })).noteMic n old c).reseat n) := by
    rw [openAs, ← hy, modSeatRoom_of_room (r := r) (s := (s.setSeat n y).countOpening) anchor room]
  obtain ⟨z, hz⟩ : ∃ z, z = ((s.setSeat n y).countOpening.setRoom a (some { r with live := r.live ++ [n] })) := ⟨_, rfl⟩
  have zseat : ∀ m, z.seat m = if m = n then y else s.seat m := fun m => by rw [hz]; exact setSeat_seat ..
  have zroom : ∀ b, z.room b = if b = a then some { r with live := r.live ++ [n] } else s.room b := fun b => by
    rw [hz]; exact setRoom_room ..
  have zanchor : z.seatAnchor n = some a := by rw [hz]; exact anchor
  have shown : z.indicationOf n = some .speaking := by
    rw [indicationOf_eq zanchor ((zroom a).trans (if_pos rfl)), zseat, if_pos rfl, hy, session]
    rfl
  rw [opened, ← hz]
  refine ⟨fun m => ?_, fun b => ?_, ?_, ?_, ?_, ?_⟩
  · rw [reseat_seat]
    show (if m = n then { z.seat n with indication := z.indicationOf n } else z.seat m) = _
    rw [shown, zseat, zseat, if_pos rfl, hy]
    split
    · rfl
    · rfl
  · rw [reseat_room]
    exact zroom b
  · rw [reseat_openingCount, hz]
    rfl
  · rw [reseat_liveCount, hz]
    rfl
  · rw [reseat_stampCount, hz]
    rfl
  · rw [reseat_link]
    show z.link.raise (.micState n (z.seatAnchor n) old (z.seat n).mic c (z.seat n).muted (z.seat n).slot) = _
    rw [zanchor, zseat, if_pos rfl, hz, hy]
    rfl

/-- What a seat's entry into OPENING does in a room that is IN_SESSION. -/
theorem enterOpening_eq (ha : s.seatAnchor n = some a) (hr : s.room a = some r) (session : r.session = .inSession) :
    (∀ m, (s.enterOpening n c g).seat m = if m = n then s.openedSeat n g else s.seat m) ∧
    (∀ b, (s.enterOpening n c g).room b = if b = a then some (s.openedRoom n r) else s.room b) ∧
    (s.enterOpening n c g).floor.openingCount = s.floor.openingCount + 1 ∧
    (s.enterOpening n c g).floor.liveCount = s.floor.liveCount ∧
    (s.enterOpening n c g).floor.stampCount = s.floor.stampCount ∧
    (s.enterOpening n c g).link =
      s.link.raise (.micState n (some a) (s.seat n).mic .opening c (s.seat n).muted (s.freeSlot (seatBus n))) := by
  rw [enterOpening_eq_openAs]
  by_cases queued : (s.seat n).mic = .queued
  · rw [if_pos queued]
    obtain ⟨z, hz⟩ : ∃ z, z = s.unqueue n := ⟨_, rfl⟩
    rw [← hz]
    rw [unqueue_eq ha hr] at hz
    have zseat : ∀ m, z.seat m = if m = n then { s.seat n with stamp := none } else s.seat m := fun m => by
      rw [hz]; exact setSeat_seat ..
    have zroom : ∀ b, z.room b = if b = a then some { r with queue := r.queue.filter (fun e => e.seat ≠ n) } else s.room b :=
      fun b => by rw [hz]; exact setRoom_room ..
    have zanchor : z.seatAnchor n = some a := by
      rw [← ha, seatAnchor, zseat, if_pos rfl, hz]
      rfl
    have zfree : z.freeSlot (seatBus n) = s.freeSlot (seatBus n) := by
      rw [hz]
      refine freeSlot_setSeat (s := s.setRoom a _) (x := { s.seat n with stamp := none }) rfl (ne_initial_of_mic ?_) _
      rw [queued]
      decide
    obtain ⟨seats, rooms, opening, live, stamp, link⟩ :=
      openAs_eq (old := (s.seat n).mic) (c := c) (g := g) zanchor ((zroom a).trans (if_pos rfl)) session
    refine ⟨fun m => ?_, fun b => ?_, ?_, ?_, ?_, ?_⟩
    · rw [seats, zseat, zseat, if_pos rfl, zfree, openedSeat, if_pos queued, hz]
      split
      · rfl
      · rfl
    · rw [rooms, zroom, openedRoom, if_pos queued]
      split
      · rfl
      · rfl
    · rw [opening, hz]
      rfl
    · rw [live, hz]
      rfl
    · rw [stamp, hz]
      rfl
    · rw [link, zseat, if_pos rfl, zfree, hz]
      rfl
  · rw [if_neg queued]
    have opened := openAs_eq (old := (s.seat n).mic) (c := c) (g := g) ha hr session
    rw [openedSeat, openedRoom, if_neg queued, if_neg queued]
    exact opened

/-! ## A seat that changes its state (R89, R91, R94, R98) -/

/-- A seat is written, its change of state reported and its indication formed again. -/
def moveSeat (s : State) (n : Nat) (x : Seat) (old : Mic) (c : MicCause) : State :=
  ((s.setSeat n x).noteMic n old c).reseat n

theorem OnFloor.moveSeat : s.OnFloor (s.moveSeat n x old c) := ((OnFloor.setSeat n x).trans (.noteMic n old c)).trans (.reseat n)

@[simp] theorem moveSeat_hall : (s.moveSeat n x old c).hall = s.hall := reseat_hall
@[simp] theorem moveSeat_room : (s.moveSeat n x old c).room b = s.room b := reseat_room
@[simp] theorem moveSeat_openingCount : (s.moveSeat n x old c).floor.openingCount = s.floor.openingCount := reseat_openingCount
@[simp] theorem moveSeat_liveCount : (s.moveSeat n x old c).floor.liveCount = s.floor.liveCount := reseat_liveCount
@[simp] theorem moveSeat_stampCount : (s.moveSeat n x old c).floor.stampCount = s.floor.stampCount := reseat_stampCount

/-- What the seat is to show in its new state. -/
def movedIndication (s : State) (n : Nat) (x : Seat) : Option Indication :=
  seatIndication x ((s.seatRoom n).map Room.session) (s.blocked n)

theorem movedIndication_of_room (ha : s.seatAnchor n = some a) (hr : s.room a = some r) :
    s.movedIndication n x = seatIndication x (some r.session) (s.blocked n) := by
  have room : s.seatRoom n = some r := by
    unfold seatRoom roomOf
    rw [show s.anchorOf (s.seat n).segment = some a from ha]
    exact hr
  rw [movedIndication, room]
  rfl

theorem moveSeat_seat (hx : x.segment = (s.seat n).segment) : (s.moveSeat n x old c).seat m =
    if m = n then { x with indication := s.movedIndication n x } else s.seat m := by
  have seat : ((s.setSeat n x).noteMic n old c).seat n = x := setSeat_seat_same ..
  have shown : ((s.setSeat n x).noteMic n old c).indicationOf n = s.movedIndication n x := by
    unfold indicationOf movedIndication seatRoom
    rw [seat, hx]
    rfl
  rw [moveSeat, reseat_seat, seat, shown]
  split
  · rfl
  · exact (setSeat_seat ..).trans (if_neg ‹_›)

theorem moveSeat_link (hx : x.segment = (s.seat n).segment) :
    (s.moveSeat n x old c).link = s.link.raise (.micState n (s.seatAnchor n) old x.mic c x.muted x.slot) := by
  have seat : (s.setSeat n x).seat n = x := setSeat_seat_same ..
  rw [moveSeat, reseat_link]
  show s.link.raise (.micState n ((s.setSeat n x).seatAnchor n) old ((s.setSeat n x).seat n).mic c
    ((s.setSeat n x).seat n).muted ((s.setSeat n x).seat n).slot) = _
  rw [seatAnchor, seat, hx]
  rfl

/-- The seat that has gone to CLOSING (R91). -/
def closingSeat (x : Seat) : Seat :=
  { x with mic := .closing, clock := none, liveNumber := none, grant := none, warned := false, limitReported := false,
           muted := false, secondDue := false }

theorem enterClosing_seat : (s.enterClosing n c).seat m =
    if m = n then { closingSeat (s.seat n) with indication := s.movedIndication n (closingSeat (s.seat n)) } else s.seat m :=
  moveSeat_seat rfl

theorem enterClosing_link : (s.enterClosing n c).link =
    s.link.raise (.micState n (s.seatAnchor n) (s.seat n).mic .closing c false (s.seat n).slot) :=
  moveSeat_link rfl

@[simp] theorem enterClosing_hall : (s.enterClosing n c).hall = s.hall := moveSeat_hall
@[simp] theorem enterClosing_room : (s.enterClosing n c).room b = s.room b := moveSeat_room

/-- The seat that has left the queue for IDLE. -/
def withdrawnSeat (x : Seat) : Seat := { x with mic := .idle, stamp := none }

section
variable (ha : s.seatAnchor n = some a) (hr : s.room a = some r)
include ha hr

theorem unqueue_seat : (s.unqueue n).seat m = if m = n then { s.seat n with stamp := none } else s.seat m := by
  rw [unqueue_eq ha hr]
  exact setSeat_seat ..

theorem unqueue_room : (s.unqueue n).room b =
    if b = a then some { r with queue := r.queue.filter (fun e => e.seat ≠ n) } else s.room b := by
  rw [unqueue_eq ha hr]
  exact setRoom_room ..

theorem unqueue_link : (s.unqueue n).link = s.link := by
  rw [unqueue_eq ha hr]
  rfl

theorem unqueue_counts : (s.unqueue n).floor = { s.floor with seats := (s.unqueue n).floor.seats } := by
  rw [unqueue_eq ha hr]
  rfl

theorem unqueue_seatAnchor : (s.unqueue n).seatAnchor n = some a := by
  rw [← ha, seatAnchor, unqueue_seat ha hr, if_pos rfl, (OnFloor.unqueue n).anchorOf]
  rfl

/-- What a withdrawal from the queue of its room does to a delegate (R91 (1), R98, R99). -/
theorem withdraw_eq :
    (∀ m, (s.withdraw n c).seat m = if m = n then { withdrawnSeat (s.seat n) with
      indication := seatIndication (withdrawnSeat (s.seat n)) (some r.session) (s.blocked n) } else s.seat m) ∧
    (∀ b, (s.withdraw n c).room b =
      if b = a then some { r with queue := r.queue.filter (fun e => decide (e.seat ≠ n)) } else s.room b) ∧
    (s.withdraw n c).floor.openingCount = s.floor.openingCount ∧
    (s.withdraw n c).floor.liveCount = s.floor.liveCount ∧
    (s.withdraw n c).floor.stampCount = s.floor.stampCount ∧
    (s.withdraw n c).link =
      s.link.raise (.micState n (some a) .queued .idle c (s.seat n).muted (s.seat n).slot) := by
  have moved : s.withdraw n c = (s.unqueue n).moveSeat n { (s.unqueue n).seat n with mic := .idle } .queued c := rfl
  have seat : { (s.unqueue n).seat n with mic := .idle } = withdrawnSeat (s.seat n) := by
    rw [unqueue_seat ha hr, if_pos rfl]
    rfl
  have segment : (withdrawnSeat (s.seat n)).segment = ((s.unqueue n).seat n).segment := by rw [← seat]
  rw [moved, seat]
  refine ⟨fun m => ?_, fun b => ?_, ?_, ?_, ?_, ?_⟩
  · rw [moveSeat_seat segment, movedIndication_of_room (unqueue_seatAnchor ha hr) ((unqueue_room ha hr).trans (if_pos rfl)),
      (OnFloor.unqueue n).blocked]
    split
    · rfl
    · exact (unqueue_seat ha hr).trans (if_neg ‹_›)
  · exact moveSeat_room.trans (unqueue_room ha hr)
  · rw [moveSeat_openingCount, unqueue_counts ha hr]
  · rw [moveSeat_liveCount, unqueue_counts ha hr]
  · rw [moveSeat_stampCount, unqueue_counts ha hr]
  · rw [moveSeat_link segment, unqueue_link ha hr, unqueue_seatAnchor ha hr]
    rfl

/-- The seat that has joined the queue of its room (R114). -/
def queuedSeat (s : State) (n : Nat) : Seat := { s.seat n with mic := .queued, stamp := some s.floor.stampCount }

/-- What joining the queue of its room does to a delegate, with no counter enabled (R114). -/
theorem joinQueue_eq (off : s.CountersOff) :
    (∀ m, (s.joinQueue n c).seat m = if m = n then { s.queuedSeat n with
      indication := seatIndication (s.queuedSeat n) (some r.session) (s.blocked n) } else s.seat m) ∧
    (∀ b, (s.joinQueue n c).room b = if b = a then
      some { r with queue := r.queue ++ [⟨n, s.floor.stampCount, (s.seat n).segment⟩] } else s.room b) ∧
    (s.joinQueue n c).floor.openingCount = s.floor.openingCount ∧
    (s.joinQueue n c).floor.liveCount = s.floor.liveCount ∧
    (s.joinQueue n c).floor.stampCount = s.floor.stampCount + 1 ∧
    (s.joinQueue n c).link = s.link.raise (.micState n (some a) .idle .queued c (s.seat n).muted (s.seat n).slot) := by
  obtain ⟨z, hz⟩ : ∃ z, z = (s.setRoom a (some { r with
    queue := r.queue ++ [⟨n, s.floor.stampCount, (s.seat n).segment⟩] })).countStamp := ⟨_, rfl⟩
  have moved : s.joinQueue n c = z.moveSeat n (s.queuedSeat n) .idle c := by
    rw [joinQueue_of_off off, modSeatRoom_of_room ha hr, hz]
    rfl
  have zroom : ∀ b, z.room b = if b = a then
      some { r with queue := r.queue ++ [⟨n, s.floor.stampCount, (s.seat n).segment⟩] } else s.room b :=
    fun b => by rw [hz]; exact setRoom_room ..
  have zseat : ∀ m, z.seat m = s.seat m := fun m => by rw [hz]; rfl
  have zanchor : z.seatAnchor n = some a := by rw [hz]; exact ha
  have segment : (s.queuedSeat n).segment = (z.seat n).segment := by rw [zseat]; rfl
  have zblocked : z.blocked n = s.blocked n := by
    rw [hz]
    exact ((OnFloor.setRoom a _).trans .countStamp).blocked n
  rw [moved]
  refine ⟨fun m => ?_, fun b => ?_, ?_, ?_, ?_, ?_⟩
  · rw [moveSeat_seat segment, movedIndication_of_room zanchor ((zroom a).trans (if_pos rfl)), zblocked, zseat]
  · exact moveSeat_room.trans (zroom b)
  · rw [moveSeat_openingCount, hz]
    rfl
  · rw [moveSeat_liveCount, hz]
    rfl
  · rw [moveSeat_stampCount, hz]
    rfl
  · rw [moveSeat_link segment, zanchor, hz]
    rfl

end

/-! ## Bus controllers that the operations leave -/

theorem unqueue_buses : (s.unqueue n).buses = s.buses := by
  unfold unqueue modSeatRoom modRoom
  split
  · rfl
  · split <;> rfl

theorem modSeatRoom_buses (f : Room → Room) : (s.modSeatRoom n f).buses = s.buses := by
  unfold modSeatRoom modRoom
  split
  · rfl
  · split <;> rfl

theorem enterOpening_bus_other {i : Nat} (h : i ≠ seatBus n) : (s.enterOpening n c g).bus i = s.bus i := by
  rw [enterOpening_eq_openAs, openAs, reseat_bus_other h]
  show tget _ (State.modSeatRoom _ n _).buses i = _
  rw [modSeatRoom_buses]
  show tget _ (if (s.seat n).mic = .queued then s.unqueue n else s).buses i = _
  split
  · rw [unqueue_buses]
    rfl
  · rfl

end

end State

end Sys2Proof.Machine
end

section
/-! SUPPORT. The open test, promotion, and the requests of chapters 5 and 6 on seats and queues (O20, O21, O22 but QUEUE_CLEAR). -/

namespace Sys2Proof.Machine

namespace State

section
variable {s t : State} {n m a b : Nat} {r : Room} {c : MicCause} {e : Entry}

theorem seatRoom_of_room (ha : s.seatAnchor n = some a) (hr : s.room a = some r) : s.seatRoom n = some r := by
  unfold seatRoom roomOf
  rw [show s.anchorOf (s.seat n).segment = some a from ha]
  exact hr

/-! ## The open test (R88) -/

/-- The conditions of the open test that the room and the seat's class give. -/
def BelowLimits (s : State) (n : Nat) (r : Room) : Prop :=
  ((s.seat n).cls = .delegate → r.closing = false ∧ s.delegateCount r < r.profile.openLimit) ∧
    ((s.seat n).cls = .chair → s.chairCount r < r.profile.chairLimit)

theorem limit_of_not_below (h : ¬ s.BelowLimits n r) :
    (s.seat n).cls = .delegate ∧ (r.closing = true ∨ r.profile.openLimit ≤ s.delegateCount r) ∨
      (s.seat n).cls = .chair ∧ r.profile.chairLimit ≤ s.chairCount r := by
  unfold BelowLimits at h
  rw [not_and_or, Classical.not_imp, Classical.not_imp, not_and_or, Bool.not_eq_false, Nat.not_lt, Nat.not_lt] at h
  exact h

section
variable (hr : s.seatRoom n = some r)
include hr

theorem openTest_of_no_session (session : r.session ≠ .inSession) : s.openTest n = some .wrongState := by
  simp [openTest, hr, session]

theorem openTest_of_below (session : r.session = .inSession) (below : s.BelowLimits n r) : s.openTest n =
    if s.freeSlot (seatBus n) = none then some .busFull
    else if s.floor.openingCount = Config.allOnes32 then some .atLimit else none := by
  unfold openTest
  rw [hr]
  dsimp only
  rw [if_neg (not_not_intro session)]
  cases cls : (s.seat n).cls
  · obtain ⟨closing, count⟩ := below.1 cls
    simp [closing, Nat.not_le.2 count]
  · have count := below.2 cls
    simp [Nat.not_le.2 count]

theorem openTest_of_limit (session : r.session = .inSession)
    (limit : (s.seat n).cls = .delegate ∧ (r.closing = true ∨ r.profile.openLimit ≤ s.delegateCount r) ∨
      (s.seat n).cls = .chair ∧ r.profile.chairLimit ≤ s.chairCount r) : s.openTest n = some .atLimit := by
  unfold openTest
  rw [hr]
  dsimp only
  rw [if_neg (not_not_intro session)]
  rcases limit with ⟨cls, closing | count⟩ | ⟨cls, count⟩
  · simp [cls, closing]
  · simp [cls, count]
  · simp [cls, count]

theorem openTest_eq_none_iff : s.openTest n = none ↔ r.session = .inSession ∧ s.BelowLimits n r ∧
    s.freeSlot (seatBus n) ≠ none ∧ s.floor.openingCount ≠ Config.allOnes32 := by
  constructor
  · intro passes
    have session : r.session = .inSession := by
      by_contra out
      rw [openTest_of_no_session hr out] at passes
      cases passes
    have below : s.BelowLimits n r := by
      by_contra beyond
      rw [openTest_of_limit hr session (limit_of_not_below beyond)] at passes
      cases passes
    rw [openTest_of_below hr session below] at passes
    split at passes
    · cases passes
    · split at passes
      · cases passes
      · exact ⟨session, below, ‹_›, ‹_›⟩
  · rintro ⟨session, below, free, count⟩
    rw [openTest_of_below hr session below, if_neg free, if_neg count]

end

/-! ## Promotion (R105) -/

theorem promotes_iff : s.promotes r = true ↔ r.session = .inSession ∧
    (r.profile.floorMode = .request ∨ r.profile.floorMode = .openFloor ∧ r.profile.overflow = .queue) ∧
    r.closing = false ∧ s.delegateCount r < r.profile.openLimit := by
  simp [promotes, and_assoc]

theorem promoteRun_of_not_promotes (hr : s.room a = some r) (h : s.promotes r = false) (fuel : Nat) :
    promoteRun fuel a s = s := by
  cases fuel with
  | zero => rfl
  | succ fuel =>
    unfold promoteRun
    rw [hr]
    dsimp only
    rw [if_neg (Bool.eq_false_iff.1 h)]

theorem promoteRun_of_no_candidate (hr : s.room a = some r) (h : s.candidate r = none) (fuel : Nat) :
    promoteRun fuel a s = s := by
  cases fuel with
  | zero => rfl
  | succ fuel =>
    unfold promoteRun
    rw [hr]
    dsimp only
    rw [h]
    split <;> rfl

theorem promoteRun_of_candidate (hr : s.room a = some r) (promotes : s.promotes r = true) (h : s.candidate r = some e)
    (test : s.openTest e.seat = none) (fuel : Nat) :
    promoteRun (fuel + 1) a s = promoteRun fuel a (s.takeCandidate a e .promoted) := by
  rw [promoteRun, hr]
  dsimp only
  rw [if_pos promotes, h]
  dsimp only
  rw [test]

theorem promote_of_room (hr : s.room a = some r) : s.promote a = promoteRun r.queue.length a s := by
  unfold promote
  rw [hr]

theorem candidate_mem (h : s.candidate r = some e) : e ∈ r.queue := by
  cases service : r.profile.service
  · rw [candidate_arrival service] at h
    exact (mem_topEntries.1 (List.mem_of_mem_head? h)).1
  · rw [candidate_rotating service] at h
    obtain ⟨k, -, found⟩ := List.exists_of_findSome?_eq_some h
    exact (mem_topEntries.1 (List.mem_of_find?_eq_some found)).1

theorem candidate_of_no_queue (h : r.queue = []) : s.candidate r = none := by
  rw [← Option.not_isSome_iff_eq_none, Option.isSome_iff_exists]
  rintro ⟨e, he⟩
  have := candidate_mem he
  rw [h] at this
  cases this

/-- What a candidate that is taken does (R115, R120). -/
theorem takeCandidate_eq (ha : s.seatAnchor e.seat = some a) (hr : s.room a = some r) (session : r.session = .inSession) :
    (∀ m, (s.takeCandidate a e c).seat m = if m = e.seat then s.openedSeat e.seat none else s.seat m) ∧
    (∀ b, (s.takeCandidate a e c).room b =
      if b = a then some { s.openedRoom e.seat r with rotation := some e.segment } else s.room b) ∧
    (s.takeCandidate a e c).floor.openingCount = s.floor.openingCount + 1 ∧
    (s.takeCandidate a e c).floor.liveCount = s.floor.liveCount ∧
    (s.takeCandidate a e c).floor.stampCount = s.floor.stampCount ∧
    (s.takeCandidate a e c).link = s.link.raise
      (.micState e.seat (some a) (s.seat e.seat).mic .opening c (s.seat e.seat).muted (s.freeSlot (seatBus e.seat))) := by
  obtain ⟨seats, rooms, opening, live, stamp, link⟩ := enterOpening_eq (c := c) (g := none) ha hr session
  have taken : s.takeCandidate a e c =
      (s.enterOpening e.seat c none).setRoom a (some { s.openedRoom e.seat r with rotation := some e.segment }) :=
    modRoom_of_room ((rooms a).trans (if_pos rfl)) _
  rw [taken]
  refine ⟨seats, fun b => ?_, opening, live, stamp, link⟩
  rw [setRoom_room]
  split
  · rfl
  · exact (rooms b).trans (if_neg ‹_›)

/-- Promotion does nothing in a room where nobody waits. -/
theorem promote_of_no_queue (hr : s.room a = some r) (h : r.queue = []) : s.promote a = s := by
  rw [promote_of_room hr]
  exact promoteRun_of_no_candidate hr (candidate_of_no_queue h) _

theorem promote_of_not_promotes (hr : s.room a = some r) (h : s.promotes r = false) : s.promote a = s := by
  rw [promote_of_room hr]
  exact promoteRun_of_not_promotes hr h _

/-! ## Counts of a room (R87) -/

theorem delegateCount_congr {x : Room} (hl : x.live = r.live)
    (h : ∀ m ∈ r.live, (t.seat m).cls = (s.seat m).cls ∧ (t.seat m).mic.onFloor = (s.seat m).mic.onFloor) :
    t.delegateCount x = s.delegateCount r := by
  unfold delegateCount
  rw [hl]
  refine congrArg List.length (List.filter_congr fun m hm => ?_)
  rw [(h m hm).1, (h m hm).2]

end

end State

end Sys2Proof.Machine
end

section
/-! SUPPORT. The requests on seats and queues: MIC_OPEN and MIC_CLOSE, REQUEST_ADD and REQUEST_CANCEL (O20, O21). -/

namespace Sys2Proof.Machine

namespace State

section
variable {s t : State} {n m a b : Nat} {r : Room} {l : LinkUnit} {opening live stamp : Nat} {b0 b1 d1 d0 : Byte}

theorem OnFloor.popInput : s.OnFloor s.popInput := ⟨rfl, rfl, rfl, rfl, .refl s, rfl, rfl, rfl, rfl⟩

theorem OnFloor.reply (x : Reply) : s.OnFloor (s.reply x) := ⟨rfl, rfl, rfl, rfl, .refl s, rfl, rfl, rfl, rfl⟩

/-- The whole state after work on the floor, with the floor's counts and the link said. -/
theorem OnFloor.eq_with (h : s.OnFloor t) (ho : t.floor.openingCount = opening) (hv : t.floor.liveCount = live)
    (hs : t.floor.stampCount = stamp) (hl : t.link = l) : t = { s with
      hall := { s.hall with rooms := t.hall.rooms }
      floor := { s.floor with seats := t.floor.seats, openingCount := opening, liveCount := live, stampCount := stamp }
      buses := t.buses
      link := l } := by
  subst ho hv hs hl
  exact h.eq

/-- The same where the room table is as it was. -/
theorem OnFloor.eq_of_hall (h : s.OnFloor t) (hall : t.hall = s.hall) (ho : t.floor.openingCount = opening)
    (hv : t.floor.liveCount = live) (hs : t.floor.stampCount = stamp) (hl : t.link = l) : t = { s with
      floor := { s.floor with seats := t.floor.seats, openingCount := opening, liveCount := live, stampCount := stamp }
      buses := t.buses
      link := l } := by
  have eq := h.eq_with ho hv hs hl
  rw [hall] at eq
  exact eq

/-! ## MIC_OPEN and MIC_CLOSE (R97, R98) -/

/-- The duration that MIC_OPEN gives, none for all ones. -/
def givenGrant (d1 d0 : Byte) : Option Nat := if word16 d1 d0 = 65535 then none else some (word16 d1 d0)

theorem handleMicOpen_eq : handleMicOpen [b0, b1, d1, d0] s = s.onSeat (word16 b0 b1) fun seat =>
    if !(s.seatInSession (word16 b0 b1)) then refuse s .wrongState
    else if seat.mic ≠ .idle && seat.mic ≠ .queued then refuse s .wrongState
    else
      match s.openTest (word16 b0 b1) with
      | some f => refuse s f.status
      | none =>
        (s.enterOpening (word16 b0 b1) .host ((givenGrant d1 d0).map clampGrant),
          .okClamped (givenGrant d1 d0 ≠ (givenGrant d1 d0).map clampGrant)
            (.slotTaken ((s.enterOpening (word16 b0 b1) .host ((givenGrant d1 d0).map clampGrant)).seat (word16 b0 b1)).slot)) :=
  rfl

theorem seatInSession_eq (h : s.seatRoom n = some r) : s.seatInSession n = decide (r.session = .inSession) := by
  simp [seatInSession, h]

theorem SeatAt.popInput (h : s.SeatAt n a r) : s.popInput.SeatAt n a r := ⟨h.number, h.installed, h.map, h.room, h.anchor⟩

theorem handleMicOpen_of_no_state (at_ : s.SeatAt (word16 b0 b1) a r)
    (h : r.session ≠ .inSession ∨ (s.seat (word16 b0 b1)).mic ≠ .idle ∧ (s.seat (word16 b0 b1)).mic ≠ .queued) :
    handleMicOpen [b0, b1, d1, d0] s.popInput = refuse s.popInput .wrongState := by
  refine (handleMicOpen_eq (s := s.popInput)).trans ((State.onSeat_of_installed (s := s) at_.number at_.installed _).trans ?_)
  rw [seatInSession_eq (s := s.popInput) (State.seatRoom_of_seatAt at_.popInput)]
  by_cases session : r.session = .inSession
  · rw [if_neg (by simp [session])]
    exact if_pos (by simpa using h.resolve_left (not_not_intro session))
  · exact if_pos (by simp [session])

theorem handleMicOpen_of_state (at_ : s.SeatAt (word16 b0 b1) a r) (session : r.session = .inSession)
    (mic : (s.seat (word16 b0 b1)).mic = .idle ∨ (s.seat (word16 b0 b1)).mic = .queued) :
    handleMicOpen [b0, b1, d1, d0] s.popInput =
      match s.openTest (word16 b0 b1) with
      | some f => refuse s.popInput f.status
      | none =>
        (s.popInput.enterOpening (word16 b0 b1) .host ((givenGrant d1 d0).map clampGrant),
          .okClamped (givenGrant d1 d0 ≠ (givenGrant d1 d0).map clampGrant)
            (.slotTaken ((s.popInput.enterOpening (word16 b0 b1) .host ((givenGrant d1 d0).map clampGrant)).seat
              (word16 b0 b1)).slot)) := by
  refine (handleMicOpen_eq (s := s.popInput)).trans ((State.onSeat_of_installed (s := s) at_.number at_.installed _).trans ?_)
  rw [seatInSession_eq (s := s.popInput) (State.seatRoom_of_seatAt at_.popInput), if_neg (by simp [session]),
    if_neg (by rcases mic with h | h <;> simp [h])]
  rfl

theorem handleMicClose_eq : handleMicClose [b0, b1] s = s.onSeat (word16 b0 b1) fun seat =>
    match seat.mic with
    | .queued => (s.withdraw (word16 b0 b1) .host, .ok .nothing)
    | .opening | .live => ((s.enterClosing (word16 b0 b1) .host).promoteSeat (word16 b0 b1), .ok .nothing)
    | _ => refuse s .wrongState := rfl

theorem promoteSeat_of_anchor (h : s.seatAnchor n = some a) : s.promoteSeat n = s.promote a := by
  unfold promoteSeat
  rw [h]

theorem enterClosing_openingCount {c : MicCause} : (s.enterClosing n c).floor.openingCount = s.floor.openingCount :=
  moveSeat_openingCount

theorem enterClosing_liveCount {c : MicCause} : (s.enterClosing n c).floor.liveCount = s.floor.liveCount := moveSeat_liveCount

theorem enterClosing_stampCount {c : MicCause} : (s.enterClosing n c).floor.stampCount = s.floor.stampCount :=
  moveSeat_stampCount

theorem enterClosing_seatAnchor {c : MicCause} : (s.enterClosing n c).seatAnchor m = s.seatAnchor m := by
  rw [seatAnchor, enterClosing_seat, (OnFloor.enterClosing n c).anchorOf]
  split
  · subst_vars
    rfl
  · rfl

theorem handleMicClose_of_onFloor (at_ : s.SeatAt (word16 b0 b1) a r)
    (mic : (s.seat (word16 b0 b1)).mic = .opening ∨ (s.seat (word16 b0 b1)).mic = .live) :
    handleMicClose [b0, b1] s.popInput = ((s.popInput.enterClosing (word16 b0 b1) .host).promote a, .ok .nothing) := by
  refine (handleMicClose_eq (s := s.popInput)).trans ((State.onSeat_of_installed (s := s) at_.number at_.installed _).trans ?_)
  rw [← promoteSeat_of_anchor (s := s.popInput.enterClosing (word16 b0 b1) .host) (enterClosing_seatAnchor.trans at_.map)]
  rcases mic with h | h <;> rw [h]

theorem handleMicClose_of_queued (at_ : s.SeatAt (word16 b0 b1) a r) (mic : (s.seat (word16 b0 b1)).mic = .queued) :
    handleMicClose [b0, b1] s.popInput = (s.popInput.withdraw (word16 b0 b1) .host, .ok .nothing) := by
  refine (handleMicClose_eq (s := s.popInput)).trans ((State.onSeat_of_installed (s := s) at_.number at_.installed _).trans ?_)
  rw [mic]

theorem handleMicClose_of_other (at_ : s.SeatAt (word16 b0 b1) a r)
    (mic : (s.seat (word16 b0 b1)).mic = .absent ∨ (s.seat (word16 b0 b1)).mic = .idle ∨
      (s.seat (word16 b0 b1)).mic = .closing ∨ (s.seat (word16 b0 b1)).mic = .holdOff) :
    handleMicClose [b0, b1] s.popInput = refuse s.popInput .wrongState := by
  refine (handleMicClose_eq (s := s.popInput)).trans ((State.onSeat_of_installed (s := s) at_.number at_.installed _).trans ?_)
  rcases mic with h | h | h | h <;> rw [h]

/-! ## REQUEST_ADD and REQUEST_CANCEL (R99) -/

theorem handleRequestAdd_eq : handleRequestAdd [b0, b1] s = s.onSeat (word16 b0 b1) fun seat =>
    if seat.cls = .chair then refuse s .badValue
    else
      match s.seatRoom (word16 b0 b1) with
      | none => refuse s .wrongState
      | some r =>
        if r.session ≠ .inSession then refuse s .wrongState
        else if seat.mic ≠ .idle then refuse s .wrongState
        else if s.blocked (word16 b0 b1) then refuse s .blocked
        else if s.queueFull r then refuse s .queueFull
        else
          ((s.joinQueue (word16 b0 b1) .host).promote r.anchor,
            .ok (.mic (((s.joinQueue (word16 b0 b1) .host).promote r.anchor).seat (word16 b0 b1)).mic)) := rfl

theorem handleRequestAdd_of_seatAt (at_ : s.SeatAt (word16 b0 b1) a r) : handleRequestAdd [b0, b1] s.popInput =
    if (s.seat (word16 b0 b1)).cls = .chair then refuse s.popInput .badValue
    else if r.session ≠ .inSession then refuse s.popInput .wrongState
    else if (s.seat (word16 b0 b1)).mic ≠ .idle then refuse s.popInput .wrongState
    else if s.blocked (word16 b0 b1) then refuse s.popInput .blocked
    else if s.queueFull r then refuse s.popInput .queueFull
    else
      ((s.popInput.joinQueue (word16 b0 b1) .host).promote a,
        .ok (.mic ((((s.popInput.joinQueue (word16 b0 b1) .host).promote a).seat (word16 b0 b1)).mic))) := by
  have room : s.popInput.seatRoom (word16 b0 b1) = some r := State.seatRoom_of_seatAt at_.popInput
  obtain rfl := at_.anchor
  refine (handleRequestAdd_eq (s := s.popInput)).trans ((State.onSeat_of_installed (s := s) at_.number at_.installed _).trans ?_)
  rw [room]
  rfl

theorem queueFull_iff : s.queueFull r = true ↔ 32 ≤ r.queue.length ∨ s.floor.stampCount = 4294967295 := by
  simp [queueFull, Config.queueLimit, Config.allOnes32]

theorem handleRequestAdd_of_idle (at_ : s.SeatAt (word16 b0 b1) a r) (cls : (s.seat (word16 b0 b1)).cls = .delegate)
    (session : r.session = .inSession) (mic : (s.seat (word16 b0 b1)).mic = .idle) (free : s.blocked (word16 b0 b1) = false)
    (room : r.queue.length < 32) (stamps : s.floor.stampCount ≠ 4294967295) : handleRequestAdd [b0, b1] s.popInput =
      ((s.popInput.joinQueue (word16 b0 b1) .host).promote a,
        .ok (.mic ((((s.popInput.joinQueue (word16 b0 b1) .host).promote a).seat (word16 b0 b1)).mic))) := by
  have notFull : ¬ s.queueFull r = true := by
    rw [queueFull_iff]
    omega
  rw [handleRequestAdd_of_seatAt at_, if_neg (by rw [cls]; decide), if_neg (not_not_intro session), if_neg (not_not_intro mic),
    if_neg (Bool.eq_false_iff.1 free), if_neg notFull]

theorem handleRequestCancel_eq : handleRequestCancel [b0, b1] s = s.onSeat (word16 b0 b1) fun seat =>
    if seat.cls = .chair then refuse s .badValue
    else if seat.mic = .queued then (s.withdraw (word16 b0 b1) .host, .ok .nothing)
    else refuse s .wrongState := rfl

theorem handleRequestCancel_of_seatAt (at_ : s.SeatAt (word16 b0 b1) a r) : handleRequestCancel [b0, b1] s.popInput =
    if (s.seat (word16 b0 b1)).cls = .chair then refuse s.popInput .badValue
    else if (s.seat (word16 b0 b1)).mic = .queued then (s.popInput.withdraw (word16 b0 b1) .host, .ok .nothing)
    else refuse s.popInput .wrongState := by
  exact (handleRequestCancel_eq (s := s.popInput)).trans (State.onSeat_of_installed (s := s) at_.number at_.installed _)

end

end State

end Sys2Proof.Machine

open Sys2Proof.Machine

/-- Settles O20. -/
theorem micOpenAndClose : Obligations.MicOpenAndClose := by
  unfold Obligations.MicOpenAndClose
  refine ⟨fun s tag b0 b1 d1 d0 n take hn => ?_, fun s tag b0 b1 n a r take run hn at_ => ?_⟩ <;> subst hn
  · refine ⟨fun config => ?_, fun run wrong => ?_, fun run h1 h2 h3 out => ?_, fun a r run at_ => ⟨fun state => ?_,
      fun session mic => ⟨fun limit => ?_, fun d c free => ?_, fun d c free count => ?_⟩,
      fun k d session mic delegate chair free count hd => ?_⟩⟩
    · exact congrArg Host.Outcome.next (State.request_of_not_permits take (by simp [Allowed.permits, config]))
    · exact congrArg Host.Outcome.next (State.request_of_refuse take (by simp [Allowed.permits, run])
        (State.handleMicOpen_eq.trans (State.onSeat_of_outside (seatNumberOk_eq_false.2 wrong) _)))
    · exact congrArg Host.Outcome.next (State.request_of_refuse take (by simp [Allowed.permits, run])
        (State.handleMicOpen_eq.trans
          (State.onSeat_of_not_installed (s := s.popInput) (seatNumberOk_iff.2 ⟨h1, h2, h3⟩) out _)))
    · exact congrArg Host.Outcome.next (State.request_of_refuse take (by simp [Allowed.permits, run])
        (State.handleMicOpen_of_no_state at_ state))
    · have test := State.openTest_of_limit (State.seatRoom_of_seatAt at_) session limit
      refine congrArg Host.Outcome.next (State.request_of_refuse take (by simp [Allowed.permits, run])
        ((State.handleMicOpen_of_state at_ session mic).trans ?_))
      rw [test]
      rfl
    · have test := State.openTest_of_below (State.seatRoom_of_seatAt at_) session ⟨d, c⟩
      rw [if_pos free] at test
      refine congrArg Host.Outcome.next (State.request_of_refuse take (by simp [Allowed.permits, run])
        ((State.handleMicOpen_of_state at_ session mic).trans ?_))
      rw [test]
      rfl
    · have test := State.openTest_of_below (State.seatRoom_of_seatAt at_) session ⟨d, c⟩
      rw [if_neg free, if_pos count] at test
      refine congrArg Host.Outcome.next (State.request_of_refuse take (by simp [Allowed.permits, run])
        ((State.handleMicOpen_of_state at_ session mic).trans ?_))
      rw [test]
      rfl
    · have test := (State.openTest_eq_none_iff (State.seatRoom_of_seatAt at_)).2
        ⟨session, ⟨delegate, chair⟩, by rw [free]; exact Option.some_ne_none k, count⟩
      have handled := State.handleMicOpen_of_state (d1 := d1) (d0 := d0) at_ session mic
      rw [test] at handled
      have grant : State.givenGrant d1 d0 = d := hd.symm
      have clamp : clampGrant = fun x => max 10 (min 3600 x) := funext fun x => clampNat_eq _ _ _ (by decide)
      obtain ⟨seats, rooms, opening, live, stamp, link⟩ := State.enterOpening_eq (s := s.popInput) (c := .host)
        (g := d.map clampGrant) at_.map at_.room session
      have seat := (seats (word16 b0 b1)).trans (if_pos rfl)
      have free' : s.popInput.freeSlot (seatBus (word16 b0 b1)) = some k := free
      rw [State.openedSeat, free'] at seat
      rw [free'] at link
      rw [grant, seat, clamp] at handled
      have onFloor := (State.OnFloor.popInput (s := s) |>.trans (.enterOpening (word16 b0 b1) .host (d.map clampGrant))).trans (.reply
        ⟨0x11, tag, .okClamped (decide (d ≠ d.map (fun x => max 10 (min 3600 x)))) (.slotTaken (some k))⟩)
      rw [clamp] at *
      exact ⟨_, congrArg Host.Outcome.next (State.request_of_handled take (by simp [Allowed.permits, run]) handled), seat,
        fun m hm => (seats m).trans (if_neg hm), (rooms a).trans (if_pos rfl), fun b hb => (rooms b).trans (if_neg hb),
        fun i hi => State.enterOpening_bus_other hi, onFloor.queues,
        onFloor.eq_with opening live stamp (congrArg (LinkUnit.answer · _) link)⟩
  · refine ⟨fun mic => ?_, fun mic nobody => ?_, fun mic => ?_, fun mic => ?_⟩
    · have handled := State.handleMicClose_of_onFloor at_ mic
      have onFloor := State.OnFloor.popInput (s := s) |>.trans (.enterClosing (word16 b0 b1) .host)
      refine ⟨s.popInput.enterClosing (word16 b0 b1) .host, ?_, fun session => ?_, fun m hm => ?_, onFloor.queues, ?_,
        congrArg Host.Outcome.next (State.request_of_handled take (by simp [Allowed.permits, run]) handled)⟩
      · rw [State.enterClosing_seat, if_pos rfl]
        rfl
      · rw [State.enterClosing_seat, if_pos rfl, State.movedIndication_of_room (s := s.popInput) at_.map at_.room, session]
        rfl
      · rw [State.enterClosing_seat, if_neg hm]
        rfl
      · refine onFloor.eq_of_hall State.enterClosing_hall State.enterClosing_openingCount State.enterClosing_liveCount
          State.enterClosing_stampCount ?_
        rw [State.enterClosing_link, show s.popInput.seatAnchor _ = some a from at_.map]
        rfl
    · have handled := State.handleMicClose_of_onFloor at_ mic
      rw [State.promote_of_no_queue (s := s.popInput.enterClosing (word16 b0 b1) .host) (State.enterClosing_room.trans at_.room)
        nobody] at handled
      have onFloor := (State.OnFloor.popInput (s := s) |>.trans (.enterClosing (word16 b0 b1) .host)).trans
        (.reply ⟨0x12, tag, .ok .nothing⟩)
      refine ⟨_, congrArg Host.Outcome.next (State.request_of_handled take (by simp [Allowed.permits, run]) handled),
        ?_, fun m hm => ?_, onFloor.queues, ?_⟩
      · rw [State.reply_seat, State.enterClosing_seat, if_pos rfl]
        rfl
      · rw [State.reply_seat, State.enterClosing_seat, if_neg hm]
        rfl
      · refine onFloor.eq_of_hall State.enterClosing_hall State.enterClosing_openingCount State.enterClosing_liveCount
          State.enterClosing_stampCount ?_
        rw [State.reply_link, State.enterClosing_link, show s.popInput.seatAnchor _ = some a from at_.map]
        rfl
    · have handled := State.handleMicClose_of_queued at_ mic
      obtain ⟨seats, rooms, opening, live, stamp, link⟩ :=
        State.withdraw_eq (s := s.popInput) (c := .host) at_.map at_.room
      have onFloor := (State.OnFloor.popInput (s := s) |>.trans (.withdraw (word16 b0 b1) .host)).trans
        (.reply ⟨0x12, tag, .ok .nothing⟩)
      refine ⟨_, congrArg Host.Outcome.next (State.request_of_handled take (by simp [Allowed.permits, run]) handled),
        ?_, fun m hm => (seats m).trans (if_neg hm), onFloor.queues, (rooms a).trans (if_pos rfl),
        fun b hb => (rooms b).trans (if_neg hb), onFloor.eq_with opening live stamp (congrArg (LinkUnit.answer · _) link)⟩
      rw [State.reply_seat, seats, if_pos rfl]
      rfl
    · exact congrArg Host.Outcome.next (State.request_of_refuse take (by simp [Allowed.permits, run])
        (State.handleMicClose_of_other at_ mic))

/-- Settles O21. -/
theorem requestsJoinAndLeaveTheQueue : Obligations.RequestsJoinAndLeaveTheQueue := by
  unfold Obligations.RequestsJoinAndLeaveTheQueue
  refine ⟨fun s tag b0 b1 n a r take run hn at_ cls session mic free room stamps chair off => ?_,
    fun s tag b0 b1 n a r run hn at_ => ⟨fun refused take hrefused => ⟨fun cls => ?_, fun cls => ⟨fun state => ?_,
      fun session mic => ⟨fun blocked => ?_, fun free full => ?_⟩⟩⟩, fun refused take hrefused => ⟨fun cls => ?_,
      fun cls mic => ?_⟩⟩, fun s tag b0 b1 n a r take run hn at_ cls mic => ?_⟩ <;> subst hn
  · have handled := State.handleRequestAdd_of_idle at_ cls session mic free room stamps
    have off' := (State.OnFloor.popInput (s := s)).countersOff off
    obtain ⟨seats, rooms, opening, live, stamp, link⟩ :=
      State.joinQueue_eq (s := s.popInput) (c := .host) at_.map at_.room off'
    have stays : (s.popInput.joinQueue (word16 b0 b1) .host).promote a = s.popInput.joinQueue (word16 b0 b1) .host :=
      State.promote_of_not_promotes ((rooms a).trans (if_pos rfl)) (by simp [State.promotes, chair])
    have seat := (seats (word16 b0 b1)).trans (if_pos rfl)
    rw [stays, seat] at handled
    have onFloor := (State.OnFloor.popInput (s := s) |>.trans (.joinQueue off' (word16 b0 b1) .host)).trans
      (.reply ⟨0x13, tag, .ok (.mic .queued)⟩)
    refine ⟨_, congrArg Host.Outcome.next (State.request_of_handled take (by simp [Allowed.permits, run]) handled), ?_,
      fun m hm => (seats m).trans (if_neg hm), onFloor.queues, (rooms a).trans (if_pos rfl),
      fun b hb => (rooms b).trans (if_neg hb), onFloor.eq_with opening live stamp (congrArg (LinkUnit.answer · _) link)⟩
    rw [State.reply_seat, seat, session]
    rfl
  · rw [hrefused]
    exact congrArg Host.Outcome.next (State.request_of_refuse take (by simp [Allowed.permits, run])
      ((State.handleRequestAdd_of_seatAt at_).trans (if_pos cls)))
  · rw [hrefused]
    refine congrArg Host.Outcome.next (State.request_of_refuse take (by simp [Allowed.permits, run])
      ((State.handleRequestAdd_of_seatAt at_).trans ((if_neg (by rw [cls]; decide)).trans ?_)))
    by_cases session : r.session = .inSession
    · exact (if_neg (not_not_intro session)).trans (if_pos (state.resolve_left (not_not_intro session)))
    · exact if_pos session
  · rw [hrefused]
    exact congrArg Host.Outcome.next (State.request_of_refuse take (by simp [Allowed.permits, run])
      ((State.handleRequestAdd_of_seatAt at_).trans ((if_neg (by rw [cls]; decide)).trans ((if_neg (not_not_intro session)).trans
        ((if_neg (not_not_intro mic)).trans (if_pos blocked))))))
  · rw [hrefused]
    exact congrArg Host.Outcome.next (State.request_of_refuse take (by simp [Allowed.permits, run])
      ((State.handleRequestAdd_of_seatAt at_).trans ((if_neg (by rw [cls]; decide)).trans ((if_neg (not_not_intro session)).trans
        ((if_neg (not_not_intro mic)).trans ((if_neg (Bool.eq_false_iff.1 free)).trans
          (if_pos (State.queueFull_iff.2 full))))))))
  · rw [hrefused]
    exact congrArg Host.Outcome.next (State.request_of_refuse take (by simp [Allowed.permits, run])
      ((State.handleRequestCancel_of_seatAt at_).trans (if_pos cls)))
  · rw [hrefused]
    exact congrArg Host.Outcome.next (State.request_of_refuse take (by simp [Allowed.permits, run])
      ((State.handleRequestCancel_of_seatAt at_).trans ((if_neg (by rw [cls]; decide)).trans (if_neg mic))))
  · have handled := State.handleRequestCancel_of_seatAt at_
    rw [if_neg (by rw [cls]; decide), if_pos mic] at handled
    obtain ⟨seats, rooms, opening, live, stamp, -⟩ := State.withdraw_eq (s := s.popInput) (c := .host) at_.map at_.room
    have onFloor := (State.OnFloor.popInput (s := s) |>.trans (.withdraw (word16 b0 b1) .host)).trans
      (.reply ⟨0x14, tag, .ok .nothing⟩)
    refine ⟨_, congrArg Host.Outcome.next (State.request_of_handled take (by simp [Allowed.permits, run]) handled), ?_,
      fun m hm => (seats m).trans (if_neg hm), onFloor.queues, (rooms a).trans (if_pos rfl),
      fun b hb => (rooms b).trans (if_neg hb), onFloor.eq_with opening live stamp rfl⟩
    rw [State.reply_seat, seats, if_pos rfl]
    rfl

end

section
/-! SUPPORT. Drops: what the counter unit and the emptying of a queue take from queues and seats, and what they leave (R115, R125, R190). -/

namespace Sys2Proof.Machine

namespace State

section
variable {s t u : State} {n m a b : Nat} {r : Room} {c : DropCause}

/-! ## What drops leave -/

theorem setRoom_canonical {x : Option Room} (h : twf none s.hall.rooms = true) : twf none (s.setRoom a x).hall.rooms = true := by
  unfold setRoom
  exact twf_tset none s.hall.rooms a x h

theorem reseat_floor : (s.reseat n).floor = (s.setSeat n { s.seat n with indication := s.indicationOf n }).floor := check_floor _ _

/-- A seat is IDLE and without a stamp, as a drop leaves it (R115). -/
def Dropped (t : State) (n : Nat) : Prop := (t.seat n).mic = .idle ∧ (t.seat n).stamp = none

/-- A seat that is as it was or has been dropped, but for its indication. -/
def Shed (x y : Seat) : Prop :=
  y = { x with indication := y.indication } ∨ y = { x with mic := .idle, stamp := none, indication := y.indication }

/-- From `s` to `t` nothing has happened but that entries have been dropped, indications formed, groups blocked, occurrences and
notices raised and counters changed. -/
structure Sheds (s t : State) : Prop where
  pending : t.pending = s.pending
  resetLow : t.resetLow = s.resetLow
  hall : t.hall = { s.hall with rooms := t.hall.rooms }
  floor : t.floor = { s.floor with seats := t.floor.seats, groups := t.floor.groups }
  queues : s.QueuesOnly t
  booth : t.booth = s.booth
  dist : t.dist = s.dist
  mix : t.mix = s.mix
  canonical : twf none s.hall.rooms = true → twf none t.hall.rooms = true
  noRoom : ∀ b, s.room b = none → t.room b = none
  room : ∀ b r, s.room b = some r → ∃ q, t.room b = some { r with queue := q } ∧ q.Sublist r.queue ∧
    ∀ e ∈ r.queue, e ∉ q → t.Dropped e.seat
  seat : ∀ m, Shed (s.seat m) (t.seat m)
  strays : s.NoStrays t

theorem Shed.refl (x : Seat) : Shed x x := .inl rfl

theorem Shed.trans {x y z : Seat} (h : Shed x y) (k : Shed y z) : Shed x z := by
  rcases h with h | h
  · rcases k with k | k
    · exact .inl (by rw [k, h])
    · exact .inr (by rw [k, h])
  · rcases k with k | k
    · exact .inr (by rw [k, h])
    · exact .inr (by rw [k, h])

theorem Shed.stays_dropped {x y : Seat} (h : Shed x y) (hm : x.mic = .idle) (hs : x.stamp = none) :
    y.mic = .idle ∧ y.stamp = none := by
  rcases h with h | h
  · rw [h]
    exact ⟨hm, hs⟩
  · rw [h]
    exact ⟨rfl, rfl⟩

namespace Sheds

theorem refl (s : State) : s.Sheds s where
  pending := rfl
  resetLow := rfl
  hall := rfl
  floor := rfl
  queues := .refl s
  booth := rfl
  dist := rfl
  mix := rfl
  canonical := id
  noRoom _ h := h
  room _ r h := ⟨r.queue, h, .refl _, fun _ he out => absurd he out⟩
  seat _ := .refl _
  strays := .refl s

theorem trans (h : s.Sheds t) (k : t.Sheds u) : s.Sheds u where
  pending := k.pending.trans h.pending
  resetLow := k.resetLow.trans h.resetLow
  hall := by rw [k.hall, h.hall]
  floor := by rw [k.floor, h.floor]
  queues := h.queues.trans k.queues
  booth := k.booth.trans h.booth
  dist := k.dist.trans h.dist
  mix := k.mix.trans h.mix
  canonical := k.canonical ∘ h.canonical
  noRoom b none := k.noRoom b (h.noRoom b none)
  room b r hr := by
    obtain ⟨q, hq, sub, dropped⟩ := h.room b r hr
    obtain ⟨p, hp, sub', dropped'⟩ := k.room b _ hq
    refine ⟨p, hp, sub'.trans sub, fun e he out => ?_⟩
    by_cases listed : e ∈ q
    · exact dropped' e listed out
    · exact (k.seat e.seat).stays_dropped (dropped e he listed).1 (dropped e he listed).2
  seat m := (h.seat m).trans (k.seat m)
  strays := h.strays.trans k.strays h.queues

theorem fold {α : Type} {f : State → α → State} (hf : ∀ (v : State) x, v.Sheds (f v x)) (xs : List α) (s : State) :
    s.Sheds (xs.foldl f s) := by
  induction xs generalizing s with
  | nil => exact refl s
  | cons x xs ih => exact (hf s x).trans (ih _)

theorem anchorOf (h : s.Sheds t) (k : Nat) : t.anchorOf k = s.anchorOf k := by
  unfold State.anchorOf
  rw [h.hall]

theorem openingCount (h : s.Sheds t) : t.floor.openingCount = s.floor.openingCount :=
  (congrArg FloorUnit.openingCount h.floor :)

theorem liveCount (h : s.Sheds t) : t.floor.liveCount = s.floor.liveCount :=
  (congrArg FloorUnit.liveCount h.floor :)

theorem stampCount (h : s.Sheds t) : t.floor.stampCount = s.floor.stampCount :=
  (congrArg FloorUnit.stampCount h.floor :)

theorem seat_segment (h : s.Sheds t) (m : Nat) : (t.seat m).segment = (s.seat m).segment := by
  rcases h.seat m with e | e <;> rw [e]

theorem seatAnchor (h : s.Sheds t) (m : Nat) : t.seatAnchor m = s.seatAnchor m := by
  unfold State.seatAnchor
  rw [h.seat_segment, h.anchorOf]

/-- A state that differs only in counters, groups and the link, and has the same rooms and seats. -/
theorem of_same (hp : t.pending = s.pending) (hr : t.resetLow = s.resetLow) (hh : t.hall = s.hall)
    (hf : t.floor = { s.floor with groups := t.floor.groups }) (hu : t.buses = s.buses) (hb : t.booth = s.booth)
    (hd : t.dist = s.dist) (hm : t.mix = s.mix) : s.Sheds t where
  pending := hp
  resetLow := hr
  hall := by rw [hh]
  floor := by rw [hf]
  queues := .of_buses hu
  booth := hb
  dist := hd
  mix := hm
  canonical h := by rwa [hh]
  noRoom b none := by
    unfold State.room
    rw [hh]
    exact none
  room b r room := ⟨r.queue, by unfold State.room; rw [hh]; exact room, .refl _, fun _ he out => absurd he out⟩
  seat m := by
    unfold State.seat
    rw [hf]
    exact .refl _
  strays := .of_buses hu

theorem setGroup (g : Nat) (x : Group) : s.Sheds (s.setGroup g x) := of_same rfl rfl rfl rfl rfl rfl rfl rfl
theorem setCounter (c : Nat) (x : Counter) : s.Sheds (s.setCounter c x) := of_same rfl rfl rfl rfl rfl rfl rfl rfl
theorem setCounts (x : CounterUnit) : s.Sheds { s with counts := x } := of_same rfl rfl rfl rfl rfl rfl rfl rfl
theorem note (x : Notice) : s.Sheds (s.note x) := of_same rfl rfl rfl rfl rfl rfl rfl rfl
theorem raise (o : Occurrence) : s.Sheds (s.raise o) := of_same rfl rfl rfl rfl rfl rfl rfl rfl
theorem raiseSeat (e : CountEvent) (n : Nat) : s.Sheds (s.raiseSeat e n) := raise _
theorem raiseBooth (e : CountEvent) (n : Nat) : s.Sheds (s.raiseBooth e n) := raise _

/-- An indication that is formed again is all that changes of a seat. -/
theorem reseat (n : Nat) : s.Sheds (s.reseat n) where
  pending := (OnFloor.reseat n).pending
  resetLow := (OnFloor.reseat n).resetLow
  hall := (OnFloor.reseat n).hall
  floor := by
    rw [reseat_floor]
    rfl
  queues := (OnFloor.reseat n).queues
  booth := (OnFloor.reseat n).booth
  dist := (OnFloor.reseat n).dist
  mix := (OnFloor.reseat n).mix
  canonical h := by rwa [reseat_hall]
  noRoom b none := reseat_room.trans none
  room b r room := ⟨r.queue, reseat_room.trans room, .refl _, fun _ he out => absurd he out⟩
  seat m := by
    rw [reseat_seat]
    split
    · subst_vars
      exact .inl rfl
    · exact .refl _
  strays := NoStrays.check (s := s.setSeat n { s.seat n with indication := s.indicationOf n }) _ _

theorem reform (n : Nat) : s.Sheds (s.reform n) := by
  unfold State.reform
  split
  · exact refl s
  · exact reseat n

theorem reformAll (ns : List Nat) : s.Sheds (s.reformAll ns) := fold (fun _ n => reform n) ns s

end Sheds

/-! ## One drop -/

/-- The room of a seat whose entry leaves loses it, and no other room anything. -/
theorem unqueue_room_of_some (hr : s.room b = some r) : (s.unqueue n).room b = some { r with
    queue := if s.seatAnchor n = some b then r.queue.filter (fun e => decide (e.seat ≠ n)) else r.queue } := by
  cases ha : s.seatAnchor n with
  | none =>
    have kept : s.modSeatRoom n (fun r => { r with queue := r.queue.filter (fun e => e.seat ≠ n) }) = s := by
      unfold modSeatRoom
      rw [ha]
    show (State.modSeatRoom s n _).room b = _
    rw [kept, hr, if_neg (by simp)]
  | some a =>
    by_cases same : a = b
    · subst same
      rw [unqueue_room ha hr, if_pos rfl, if_pos rfl]
    · rw [if_neg (fun e => same (Option.some.inj e))]
      cases q : s.room a with
      | some q' => exact (unqueue_room ha q).trans ((if_neg (Ne.symm same)).trans hr)
      | none =>
        have kept : s.modSeatRoom n (fun r => { r with queue := r.queue.filter (fun e => e.seat ≠ n) }) = s := by
          unfold modSeatRoom
          rw [ha]
          exact modRoom_of_none q _
        show (State.modSeatRoom s n _).room b = _
        rw [kept, hr]

theorem unqueue_seat_eq : (s.unqueue n).seat m = if m = n then { s.seat n with stamp := none } else s.seat m := by
  unfold unqueue
  have seats : (s.modSeatRoom n (fun r => { r with queue := r.queue.filter (fun e => e.seat ≠ n) })).floor = s.floor := by
    unfold modSeatRoom modRoom
    split
    · rfl
    · split <;> rfl
  rw [setSeat_seat]
  split
  · rfl
  · unfold State.seat
    rw [seats]

theorem unqueue_room_of_none (hr : s.room b = none) : (s.unqueue n).room b = none := by
  show (State.modSeatRoom s n _).room b = none
  unfold modSeatRoom modRoom
  split
  · exact hr
  · split
    · exact hr
    · next room =>
      rw [setRoom_room, if_neg, hr]
      rintro rfl
      rw [hr] at room
      cases room

/-- A drop before its occurrence is raised: the entry has left, the seat is IDLE and REQUEST_DROPPED has been raised. -/
def unqueued (s : State) (n : Nat) (c : DropCause) : State :=
  let u := (s.unqueue n).setSeat n { (s.unqueue n).seat n with mic := .idle }
  u.note (.requestDropped n (u.seatAnchor n) (s.seat n).stamp c)

theorem drop_eq_raise : s.drop n c = (s.unqueued n c).raiseSeat .requestDropped n := rfl

theorem OnFloor.unqueued : s.OnFloor (s.unqueued n c) := ((OnFloor.unqueue n).trans (.setSeat n _)).trans (.note _)

theorem unqueued_room : (s.unqueued n c).room b = (s.unqueue n).room b := rfl

theorem unqueued_seat :
    (s.unqueued n c).seat m = if m = n then { s.seat n with mic := .idle, stamp := none } else s.seat m := by
  show ((s.unqueue n).setSeat n { (s.unqueue n).seat n with mic := .idle }).seat m = _
  rw [setSeat_seat]
  split
  · rw [unqueue_seat_eq, if_pos rfl]
  · rw [unqueue_seat_eq, if_neg ‹_›]

theorem unqueued_dropped : (s.unqueued n c).Dropped n := by
  unfold Dropped
  rw [unqueued_seat, if_pos rfl]
  exact ⟨rfl, rfl⟩

theorem unqueued_floor : (s.unqueued n c).floor = { s.floor with seats := (s.unqueued n c).floor.seats } := by
  have written : (s.unqueued n c).floor = { (s.unqueue n).floor with seats := (s.unqueued n c).floor.seats } := rfl
  have kept : (s.unqueue n).floor = { s.floor with seats := (s.unqueue n).floor.seats } := by
    unfold unqueue modSeatRoom modRoom
    split
    · rfl
    · split <;> rfl
  rw [written, kept]

theorem Sheds.unqueued : s.Sheds (s.unqueued n c) where
  pending := OnFloor.unqueued.pending
  resetLow := OnFloor.unqueued.resetLow
  hall := OnFloor.unqueued.hall
  floor := by rw [unqueued_floor]
  queues := OnFloor.unqueued.queues
  booth := OnFloor.unqueued.booth
  dist := OnFloor.unqueued.dist
  mix := OnFloor.unqueued.mix
  canonical h := by
    show twf none (State.modSeatRoom s n _).hall.rooms = true
    unfold modSeatRoom modRoom
    split
    · exact h
    · split
      · exact h
      · exact setRoom_canonical h
  noRoom b none := unqueued_room.trans (unqueue_room_of_none none)
  room b r hr := by
    refine ⟨_, unqueued_room.trans (unqueue_room_of_some hr), ?_, fun e he out => ?_⟩
    · split
      · exact List.filter_sublist
      · exact .refl _
    · have same : e.seat = n := by
        by_contra other
        apply out
        split
        · exact List.mem_filter.2 ⟨he, decide_eq_true other⟩
        · exact he
      exact same ▸ unqueued_dropped
  seat m := by
    rw [unqueued_seat]
    split
    · subst_vars
      exact .inr rfl
    · exact .refl _
  strays := .of_buses (by
    show (State.modSeatRoom s n _).buses = s.buses
    unfold modSeatRoom modRoom
    split
    · rfl
    · split <;> rfl)

theorem Sheds.drop (n : Nat) (c : DropCause) : s.Sheds (s.drop n c) := Sheds.unqueued.trans (.raiseSeat .requestDropped n)

theorem drop_room : (s.drop n c).room b = (s.unqueue n).room b := rfl

/-! ## The counter unit -/

theorem Sheds.counterBlocks (g : Nat) : s.Sheds (s.counterBlocks g) := by
  unfold State.counterBlocks
  dsimp only
  split
  · exact .refl s
  · split
    · exact (((Sheds.setGroup g _).trans (.note _)).trans (.fold (fun _ n => .drop n _) _ _)).trans (.reformAll _)
    · split
      · exact (Sheds.setGroup g _).trans (.note _)
      · exact .setGroup g _

theorem Sheds.addCounter (c k : Nat) : s.Sheds (s.addCounter c k) := by
  unfold State.addCounter
  dsimp only
  split
  · exact .setCounter c _
  · split
    · exact ((Sheds.setCounter c _).trans (.note _)).trans (.counterBlocks _)
    · exact (Sheds.setCounter c _).trans (.note _)

theorem Sheds.takeOccurrence (o : Occurrence) (c : Nat) : s.Sheds (s.takeOccurrence o c) := by
  unfold State.takeOccurrence
  dsimp only
  split
  · split
    · exact .addCounter c 1
    · exact .setCounter c _
  · exact .refl s

theorem Sheds.addOccurrences (fuel : Nat) (s : State) : s.Sheds (Machine.addOccurrences fuel s) := by
  induction fuel generalizing s with
  | zero => exact .refl s
  | succ fuel ih =>
    unfold Machine.addOccurrences
    split
    · exact .refl s
    · exact ((Sheds.setCounts _).trans (.fold (fun _ c => .takeOccurrence _ c) _ _)).trans (ih _)

/-- The counter unit takes entries from queues and leaves everything else of the floor, the rooms and the booths (R190). -/
theorem Sheds.settleCounts : s.Sheds s.settleCounts := by
  unfold State.settleCounts
  split
  · exact .refl s
  · exact .addOccurrences _ s

/-! ## Emptying a queue (R116) -/

theorem Sheds.dropNow (n : Nat) (c : DropCause) : s.Sheds (s.dropNow n c) := ((Sheds.drop n c).trans (.reseat n)).trans .settleCounts

theorem Sheds.dropQueue (fuel a : Nat) (c : DropCause) (s : State) : s.Sheds (Machine.dropQueue fuel a c s) := by
  induction fuel generalizing s with
  | zero => exact .refl s
  | succ fuel ih =>
    unfold Machine.dropQueue
    split
    · exact .refl s
    · split
      · exact .refl s
      · exact (Sheds.dropNow _ c).trans (ih _)

theorem Sheds.emptyQueue (a : Nat) (c : DropCause) : s.Sheds (s.emptyQueue a c) := by
  unfold State.emptyQueue
  split
  · exact .refl s
  · exact .dropQueue _ a c s

/-- After a drop an entry of the dropped seat stands in no queue that the seat's segment belongs to. -/
theorem dropNow_room (ha : s.seatAnchor n = some a) (hr : s.room a = some r) : ∃ q, (s.dropNow n c).room a = some { r with queue := q } ∧
    q.Sublist (r.queue.filter (fun e => decide (e.seat ≠ n))) := by
  have dropped : ((s.drop n c).reseat n).room a = some { r with queue := r.queue.filter (fun e => decide (e.seat ≠ n)) } := by
    rw [reseat_room, drop_room, unqueue_room_of_some hr, if_pos ha]
  obtain ⟨q, hq, sub, -⟩ := Sheds.settleCounts.room a _ dropped
  exact ⟨q, hq, sub⟩

theorem dropQueue_empties (fuel : Nat) (s : State) (r : Room) (hr : s.room a = some r) (long : r.queue.length ≤ fuel)
    (right : ∀ e ∈ r.queue, s.seatAnchor e.seat = some a) : (dropQueue fuel a c s).room a = some { r with queue := [] } := by
  induction fuel generalizing s r with
  | zero =>
    have nobody : r.queue = [] := List.length_eq_zero_iff.1 (Nat.le_zero.1 long)
    rw [dropQueue, hr, ← nobody]
  | succ fuel ih =>
    unfold dropQueue
    rw [hr]
    dsimp only
    cases hq : r.queue with
    | nil =>
      dsimp only
      rw [hr, ← hq]
    | cons e es =>
      dsimp only
      have anchor := right e (by rw [hq]; exact List.mem_cons_self)
      obtain ⟨q, room, sub⟩ := dropNow_room (c := c) anchor hr
      rw [hq, List.filter_cons_of_neg (by simp)] at sub
      have sub' : q.Sublist es := sub.trans List.filter_sublist
      have short : q.length ≤ fuel := by
        have := sub'.length_le
        rw [hq, List.length_cons] at long
        omega
      refine ih _ { r with queue := q } room short fun f hf => ?_
      rw [(Sheds.dropNow e.seat c).seatAnchor]
      exact right f (by rw [hq]; exact List.mem_cons_of_mem e (sub'.subset hf))

/-- A queue whose entries stand in the room of their seats is emptied whole. -/
theorem emptyQueue_room (hr : s.room a = some r) (right : ∀ e ∈ r.queue, s.seatAnchor e.seat = some a) :
    (s.emptyQueue a c).room a = some { r with queue := [] } := by
  unfold emptyQueue
  rw [hr]
  exact dropQueue_empties _ s r hr le_rfl right

theorem emptyQueue_dropped (hr : s.room a = some r) (right : ∀ e ∈ r.queue, s.seatAnchor e.seat = some a) :
    ∀ e ∈ r.queue, (s.emptyQueue a c).Dropped e.seat := by
  obtain ⟨q, room, -, dropped⟩ := (Sheds.emptyQueue (s := s) a c).room a r hr
  rw [emptyQueue_room hr right] at room
  have none : q = [] := (congrArg Room.queue (Option.some.inj room)).symm
  exact fun e he => dropped e he (by rw [none]; exact List.not_mem_nil)

/-! ## Emptying a queue while no counter is enabled -/

theorem check_raise {o : Occurrence} {i : Nat} : (s.raise o).check i a = (s.check i a).raise o := by
  unfold check join
  rw [apply_ite (fun t => State.raise t o), apply_ite (fun t => State.raise t o)]
  rfl

theorem reseat_raise {o : Occurrence} : (s.raise o).reseat n = (s.reseat n).raise o := by
  unfold reseat
  exact check_raise (s := s.setSeat n { s.seat n with indication := s.indicationOf n })

/-- With no counter enabled a drop is all that happens. -/
theorem dropNow_of_off (off : s.CountersOff) : s.dropNow n c = (s.unqueued n c).reseat n := by
  unfold dropNow
  rw [drop_eq_raise, raiseSeat, reseat_raise]
  exact settleCounts_raise ((OnFloor.unqueued.trans (.reseat n)).countersOff off)

theorem OnFloor.dropNow (off : s.CountersOff) : s.OnFloor (s.dropNow n c) := by
  rw [dropNow_of_off off]
  exact OnFloor.unqueued.trans (.reseat n)

theorem dropNow_seat_other (off : s.CountersOff) (h : m ≠ n) : (s.dropNow n c).seat m = s.seat m := by
  rw [dropNow_of_off off, reseat_seat, if_neg h]
  exact (setSeat_seat ..).trans ((if_neg h).trans (unqueue_seat_eq.trans (if_neg h)))

theorem dropNow_room_other (off : s.CountersOff) (ha : s.seatAnchor n = some a) (h : b ≠ a) :
    (s.dropNow n c).room b = s.room b := by
  rw [dropNow_of_off off, reseat_room]
  show (s.unqueue n).room b = s.room b
  cases hb : s.room b with
  | none => exact unqueue_room_of_none hb
  | some x => rw [unqueue_room_of_some hb, if_neg (fun e => h (Option.some.inj (ha.symm.trans e)).symm)]

/-- What emptying a queue leaves while no counter is enabled. -/
theorem dropQueue_of_off (fuel : Nat) (s : State) (r : Room) (off : s.CountersOff) (hr : s.room a = some r)
    (right : ∀ e ∈ r.queue, s.seatAnchor e.seat = some a) :
    s.OnFloor (dropQueue fuel a c s) ∧ (∀ b, b ≠ a → (dropQueue fuel a c s).room b = s.room b) ∧
      ∀ m, (∀ e ∈ r.queue, e.seat ≠ m) → (dropQueue fuel a c s).seat m = s.seat m := by
  induction fuel generalizing s r with
  | zero => exact ⟨.refl s, fun _ _ => rfl, fun _ _ => rfl⟩
  | succ fuel ih =>
    unfold dropQueue
    rw [hr]
    dsimp only
    cases hq : r.queue with
    | nil => exact ⟨.refl s, fun _ _ => rfl, fun _ _ => rfl⟩
    | cons e es =>
      dsimp only
      have listed : e ∈ r.queue := by
        rw [hq]
        exact List.mem_cons_self
      obtain ⟨q, room, sub⟩ := dropNow_room (c := c) (right e listed) hr
      have sub' : ∀ f ∈ q, f ∈ r.queue := fun f hf => (sub.trans List.filter_sublist).subset hf
      have onFloor := OnFloor.dropNow (n := e.seat) (c := c) off
      obtain ⟨later, rooms, seats⟩ := ih (s.dropNow e.seat c) _ (onFloor.countersOff off) room fun f hf => by
        rw [(Sheds.dropNow e.seat c).seatAnchor]
        exact right f (sub' f hf)
      refine ⟨onFloor.trans later, fun b hb => (rooms b hb).trans (dropNow_room_other off (right e listed) hb), fun m hm => ?_⟩
      rw [← hq] at hm
      rw [seats m fun f hf => hm f (sub' f hf)]
      exact dropNow_seat_other off (Ne.symm (hm e listed))

theorem emptyQueue_of_off (off : s.CountersOff) (hr : s.room a = some r) (right : ∀ e ∈ r.queue, s.seatAnchor e.seat = some a) :
    s.OnFloor (s.emptyQueue a c) ∧ (∀ b, b ≠ a → (s.emptyQueue a c).room b = s.room b) ∧
      ∀ m, (∀ e ∈ r.queue, e.seat ≠ m) → (s.emptyQueue a c).seat m = s.seat m := by
  unfold emptyQueue
  rw [hr]
  exact dropQueue_of_off _ s r off hr right

end

end State

end Sys2Proof.Machine
end

section
/-! SUPPORT. NEXT and QUEUE_CLEAR (O22). -/

namespace Sys2Proof.Machine

/-! ## The delegate that NEXT REPLACE closes (R106) -/

theorem lowestBy_mem {f : Nat → Nat} {xs : List Nat} {m : Nat} (h : lowestBy f xs = some m) : m ∈ xs := by
  induction xs generalizing m with
  | nil => cases h
  | cons n ns ih =>
    unfold lowestBy at h
    cases hl : lowestBy f ns with
    | none =>
      rw [hl] at h
      obtain rfl := Option.some.inj h
      exact List.mem_cons_self
    | some k =>
      rw [hl] at h
      dsimp only at h
      split at h
      · obtain rfl := Option.some.inj h
        exact List.mem_cons_of_mem n (ih hl)
      · obtain rfl := Option.some.inj h
        exact List.mem_cons_self

theorem lowestBy_eq_none {f : Nat → Nat} {xs : List Nat} (h : lowestBy f xs = none) : xs = [] := by
  cases xs with
  | nil => rfl
  | cons n ns =>
    unfold lowestBy at h
    split at h
    · cases h
    · split at h <;> cases h

/-- The one element below all others is found. -/
theorem lowestBy_eq_some {f : Nat → Nat} {xs : List Nat} {v : Nat} (listed : v ∈ xs) (least : ∀ m ∈ xs, m ≠ v → f v < f m) :
    lowestBy f xs = some v := by
  induction xs with
  | nil => cases listed
  | cons n ns ih =>
    have below : ∀ m ∈ ns, m ≠ v → f v < f m := fun m hm => least m (List.mem_cons_of_mem n hm)
    unfold lowestBy
    cases hl : lowestBy f ns with
    | none =>
      rw [lowestBy_eq_none hl, List.mem_singleton] at listed
      rw [listed]
    | some k =>
      dsimp only
      by_cases later : v ∈ ns
      · obtain rfl := Option.some.inj (hl.symm.trans (ih later below))
        by_cases same : n = k
        · rw [same]
          exact ite_self _
        · exact if_pos (least n List.mem_cons_self same)
      · obtain rfl := (List.mem_cons.1 listed).resolve_right later
        refine if_neg (Nat.not_lt.2 (Nat.le_of_lt (below k (lowestBy_mem hl) ?_)))
        rintro rfl
        exact later (lowestBy_mem hl)

namespace State

section
variable {s : State} {n m a v : Nat} {r : Room} {x : Seat} {c : MicCause} {old : Mic} {e : Entry} {kb mb : Byte}

theorem replaced_of_replaced (h : s.Replaced r v) : s.replaced r = some v := by
  obtain ⟨listed, cls, ⟨mic, k, number, least⟩ | ⟨mic, noLive, k, number, least⟩⟩ := h
  · have found : lowestBy (fun n => ((s.seat n).liveNumber).getD 0)
        ((r.live.filter (fun n => (s.seat n).cls = .delegate)).filter (fun n => (s.seat n).mic = .live)) = some v := by
      refine lowestBy_eq_some (by simp [listed, cls, mic]) fun m hm other => ?_
      rw [List.mem_filter, List.mem_filter, decide_eq_true_eq, decide_eq_true_eq] at hm
      obtain ⟨⟨hm, mcls⟩, mmic⟩ := hm
      obtain ⟨j, hj, lt⟩ := least m hm other mcls mmic
      rw [number, hj]
      exact lt
    unfold replaced
    dsimp only
    rw [found]
  · have none_live : (r.live.filter (fun n => (s.seat n).cls = .delegate)).filter (fun n => (s.seat n).mic = .live) = [] := by
      rw [List.filter_eq_nil_iff]
      intro m hm
      rw [List.mem_filter, decide_eq_true_eq] at hm
      rw [decide_eq_true_eq]
      exact noLive m hm.1 hm.2
    unfold replaced
    dsimp only
    rw [none_live]
    refine lowestBy_eq_some (by simp [listed, cls, mic]) fun m hm other => ?_
    rw [List.mem_filter, List.mem_filter, decide_eq_true_eq, decide_eq_true_eq] at hm
    obtain ⟨⟨hm, mcls⟩, mmic⟩ := hm
    obtain ⟨j, hj, lt⟩ := least m hm other mcls mmic
    show s.openingOf v < s.openingOf m
    unfold openingOf
    rw [number, hj]
    exact lt

theorem Replaced.mic (h : s.Replaced r v) : (s.seat v).mic = .live ∨ (s.seat v).mic = .opening := by
  obtain ⟨-, -, ⟨mic, -⟩ | ⟨mic, -⟩⟩ := h
  · exact .inl mic
  · exact .inr mic

/-- Free slots do not change with a seat that moves and keeps its slot. -/
theorem moveSeat_freeSlot (hslot : x.slot = (s.seat n).slot) (hx : x.mic ≠ .absent) (i : Nat) :
    (s.moveSeat n x old c).freeSlot i = s.freeSlot i := by
  have seat : ((s.setSeat n x).noteMic n old c).seat n = x := setSeat_seat_same ..
  have written : (s.moveSeat n x old c).floor.seats =
      (((s.setSeat n x).noteMic n old c).setSeat n { ((s.setSeat n x).noteMic n old c).seat n with
        indication := ((s.setSeat n x).noteMic n old c).indicationOf n }).floor.seats :=
    congrArg FloorUnit.seats reseat_floor
  rw [freeSlot_of_seats written]
  refine (freeSlot_setSeat (s := (s.setSeat n x).noteMic n old c) ?_ (ne_initial_of_mic ?_) i).trans
    (freeSlot_setSeat hslot (ne_initial_of_mic hx) i)
  · rfl
  · rw [seat]
    exact hx

theorem enterClosing_freeSlot (i : Nat) : (s.enterClosing n c).freeSlot i = s.freeSlot i :=
  moveSeat_freeSlot (x := closingSeat (s.seat n)) rfl Mic.noConfusion i

/-! ## NEXT (R106) -/

theorem readNext_of_le (h : mb.toNat ≤ 1) : readNext [kb, mb] = some (kb.toNat, decide (mb = 1)) := by
  have manner : mb = 0 ∨ mb = 1 := by
    rcases Nat.le_one_iff_eq_zero_or_eq_one.1 h with zero | one
    · exact .inl (BitVec.eq_of_toNat_eq zero)
    · exact .inr (BitVec.eq_of_toNat_eq one)
  rcases manner with rfl | rfl <;> rfl

/-- NEXT in the room that it names. -/
theorem handleNext_of_roomAt (at_ : s.RoomAt kb.toNat a r) (manner : mb.toNat ≤ 1) : handleNext [kb, mb] s.popInput =
    if r.session ≠ .inSession then refuse s.popInput .wrongState
    else if r.closing then refuse s.popInput .atLimit
    else if r.queue = [] then refuse s.popInput .queueEmpty
    else
      match s.candidate r with
      | none => refuse s.popInput .busFull
      | some e =>
        if s.floor.openingCount = Config.allOnes32 then refuse s.popInput .atLimit
        else if s.delegateCount r < r.profile.openLimit then s.popInput.serveNext a e
        else if decide (mb = 1) && s.delegateCount r = r.profile.openLimit then
          match s.replaced r with
          | none => refuse s.popInput .atLimit
          | some n => s.popInput.replaceNext a e n
        else refuse s.popInput .atLimit := by
  obtain rfl := at_.anchor
  unfold handleNext
  rw [withBody_of_some (readNext_of_le manner)]
  exact State.inRoom_of_roomAt at_ _

section
variable (at_ : s.RoomAt kb.toNat a r) (manner : mb.toNat ≤ 1) (session : r.session = .inSession)
include at_ manner session

theorem handleNext_of_closing (closing : r.closing = true) : handleNext [kb, mb] s.popInput = refuse s.popInput .atLimit := by
  rw [handleNext_of_roomAt at_ manner, if_neg (not_not_intro session), if_pos closing]

section
variable (closing : r.closing = false)
include closing

theorem handleNext_of_no_queue (nobody : r.queue = []) : handleNext [kb, mb] s.popInput = refuse s.popInput .queueEmpty := by
  rw [handleNext_of_roomAt at_ manner, if_neg (not_not_intro session), if_neg (Bool.eq_false_iff.1 closing), if_pos nobody]

section
variable (waiting : r.queue ≠ [])
include waiting

theorem handleNext_of_no_candidate (none : s.candidate r = none) : handleNext [kb, mb] s.popInput = refuse s.popInput .busFull := by
  rw [handleNext_of_roomAt at_ manner, if_neg (not_not_intro session), if_neg (Bool.eq_false_iff.1 closing), if_neg waiting, none]

theorem handleNext_of_candidate (he : s.candidate r = some e) : handleNext [kb, mb] s.popInput =
    if s.floor.openingCount = Config.allOnes32 then refuse s.popInput .atLimit
    else if s.delegateCount r < r.profile.openLimit then s.popInput.serveNext a e
    else if decide (mb = 1) && s.delegateCount r = r.profile.openLimit then
      match s.replaced r with
      | none => refuse s.popInput .atLimit
      | some n => s.popInput.replaceNext a e n
    else refuse s.popInput .atLimit := by
  rw [handleNext_of_roomAt at_ manner, if_neg (not_not_intro session), if_neg (Bool.eq_false_iff.1 closing), if_neg waiting, he]

end

end

/-- Beyond the limit, or PLAIN at it, NEXT is refused whatever else holds. -/
theorem handleNext_of_limit (waiting : r.queue ≠ []) (he : s.candidate r = some e)
    (limit : mb = 0 ∧ r.profile.openLimit ≤ s.delegateCount r ∨ mb = 1 ∧ r.profile.openLimit < s.delegateCount r) :
    handleNext [kb, mb] s.popInput = refuse s.popInput .atLimit := by
  cases closing : r.closing with
  | true => exact handleNext_of_closing at_ manner session closing
  | false =>
    rw [handleNext_of_candidate at_ manner session closing waiting he]
    split
    · rfl
    · rcases limit with ⟨rfl, limit⟩ | ⟨rfl, limit⟩
      · rw [if_neg (Nat.not_lt.2 limit), if_neg (by simp)]
      · rw [if_neg (by omega), if_neg (by simp; omega)]

end

/-- Where every bus of the queue is full there is no candidate, in either service order. -/
theorem candidate_of_full (full : ∀ e ∈ r.queue, s.freeSlot (seatBus e.seat) = none) : s.candidate r = none := by
  have nobody : s.topEntries r = [] := topEntries_eq_nil.2 fun e he => by
    rw [eligible, full e he]
    rfl
  cases service : r.profile.service
  · rw [candidate_arrival service, nobody]
    rfl
  · rw [candidate_rotating service, nobody, List.findSome?_eq_none_iff]
    exact fun k _ => rfl

/-- Where a bus of the queue has a free slot there is a candidate. -/
theorem candidate_of_free (segments : ∀ e ∈ r.queue, e.segment ∈ r.segments)
    (free : ∃ e ∈ r.queue, s.freeSlot (seatBus e.seat) ≠ none) : ∃ e, s.candidate r = some e := by
  obtain ⟨e, he, free⟩ := free
  rw [← Option.isSome_iff_exists, Option.isSome_iff_ne_none]
  intro none
  have noneEligible : ∀ e ∈ r.queue, s.eligible e = false := by
    cases service : r.profile.service
    · exact (candidate_arrival_eq_none service).1 none
    · exact (candidate_rotating_eq_none service segments).1 none
  have := noneEligible e he
  rw [eligible, Option.isSome_eq_false_iff, Option.isNone_iff_eq_none] at this
  exact free this

end

end State

end Sys2Proof.Machine

open Sys2Proof.Machine

/-- Settles O22. -/
theorem nextAndQueueClear : Obligations.NextAndQueueClear := by
  unfold Obligations.NextAndQueueClear
  refine ⟨fun s tag kb mb a r e take run manner at_ session closing waiting he below count anchor queued => ?_,
    fun s tag kb a v r e take run at_ session closing waiting he limit count anchor queued vanchor replaced => ?_,
    fun s tag kb mb a r e take run at_ session waiting he limit => ?_,
    fun s tag kb mb a r refused take run manner at_ hrefused => ?_, fun s tag kb a r take run at_ right => ?_⟩
  · have handled := State.handleNext_of_candidate at_ manner session closing waiting he
    rw [if_neg (show ¬ s.floor.openingCount = Sys2Proof.Config.allOnes32 from count), if_pos below] at handled
    obtain ⟨seats, rooms, opening, live, stamp, link⟩ :=
      State.takeCandidate_eq (s := s.popInput) (c := .next) anchor at_.room session
    have onFloor := (State.OnFloor.popInput (s := s) |>.trans (.takeCandidate a e .next)).trans
      (.reply ⟨0x15, tag, .ok (.promoted a e.seat none)⟩)
    refine ⟨_, congrArg Host.Outcome.next (State.request_of_handled take (by simp [Allowed.permits, run]) handled), ?_,
      fun m hm => (seats m).trans (if_neg hm), onFloor.queues, ?_, fun b hb => (rooms b).trans (if_neg hb), ?_⟩
    · refine (seats e.seat).trans ((if_pos rfl).trans ?_)
      rw [State.openedSeat, if_pos (show (s.popInput.seat e.seat).mic = .queued from queued)]
      rfl
    · refine (rooms a).trans ((if_pos rfl).trans ?_)
      rw [State.openedRoom, if_pos (show (s.popInput.seat e.seat).mic = .queued from queued)]
    · refine onFloor.eq_with opening live stamp (congrArg (LinkUnit.answer · _) (link.trans ?_))
      rw [show (s.popInput.seat e.seat).mic = .queued from queued]
      rfl
  · have handled := State.handleNext_of_candidate (mb := 1) at_ (by decide) session closing waiting he
    rw [if_neg (show ¬ s.floor.openingCount = Sys2Proof.Config.allOnes32 from count), if_neg (by omega), if_pos (by simp [limit]),
      State.replaced_of_replaced replaced] at handled
    obtain ⟨z, hz⟩ : ∃ z, z = s.popInput.enterClosing v .replaced := ⟨_, rfl⟩
    have other : e.seat ≠ v := by
      intro same
      rw [same] at queued
      rcases replaced.mic with mic | mic <;> rw [mic] at queued <;> cases queued
    have zseat : ∀ m, z.seat m = if m = v then _ else s.popInput.seat m := fun m => by
      rw [hz]
      exact State.enterClosing_seat
    have zcandidate : z.seat e.seat = s.seat e.seat := (zseat e.seat).trans (if_neg other)
    have zfree : z.freeSlot (seatBus e.seat) = s.freeSlot (seatBus e.seat) := by
      rw [hz]
      exact State.enterClosing_freeSlot (s := s.popInput) _
    have zlink : z.link = s.popInput.link.raise
        (.micState v (some a) (s.seat v).mic .closing .replaced false (s.seat v).slot) := by
      rw [hz, State.enterClosing_link, show s.popInput.seatAnchor v = some a from vanchor]
      rfl
    obtain ⟨seats, rooms, opening, live, stamp, link⟩ := State.takeCandidate_eq (s := z) (c := .next) (a := a) (r := r)
      (by rw [hz]; exact State.enterClosing_seatAnchor.trans anchor) (by rw [hz]; exact State.enterClosing_room.trans at_.room) session
    have onFloor : s.OnFloor (z.takeCandidate a e .next) := by
      rw [hz]
      exact (State.OnFloor.popInput.trans (.enterClosing v .replaced)).trans (.takeCandidate a e .next)
    refine ⟨z.takeCandidate a e .next, ?_, ?_, fun m hv he => ?_, onFloor.queues, ?_, fun b hb => ?_, ?_, ?_⟩
    · rw [seats, if_neg (Ne.symm other), zseat, if_pos rfl, State.movedIndication_of_room (s := s.popInput) vanchor at_.room, session]
      rfl
    · rw [seats, if_pos rfl, State.openedSeat, zcandidate, if_pos queued, zfree, hz, State.enterClosing_openingCount]
      rfl
    · rw [seats, if_neg he, zseat, if_neg hv]
      rfl
    · rw [rooms, if_pos rfl, State.openedRoom, zcandidate, if_pos queued]
    · rw [rooms, if_neg hb, hz]
      exact State.enterClosing_room
    · refine onFloor.eq_with (opening.trans ?_) (live.trans ?_) (stamp.trans ?_) (link.trans ?_)
      · rw [hz, State.enterClosing_openingCount]
        rfl
      · rw [hz, State.enterClosing_liveCount]
        rfl
      · rw [hz, State.enterClosing_stampCount]
        rfl
      · rw [zlink, zcandidate, queued, zfree]
        rfl
    · rw [hz]
      exact congrArg Host.Outcome.next (State.request_of_handled take (by simp [Allowed.permits, run]) handled)
  · have manner : mb.toNat ≤ 1 := by
      rcases limit with ⟨rfl, -⟩ | ⟨rfl, -⟩ <;> decide
    exact congrArg Host.Outcome.next (State.request_of_refuse take (by simp [Allowed.permits, run])
      (State.handleNext_of_limit at_ manner session waiting he limit))
  · have answered : ∀ x, handleNext [kb, mb] s.popInput = refuse s.popInput x → refused x := fun x h =>
      (hrefused x).2 (congrArg Host.Outcome.next (State.request_of_refuse take (by simp [Allowed.permits, run]) h))
    refine ⟨fun session => answered _ ?_, fun session closing => answered _ (State.handleNext_of_closing at_ manner session closing),
      fun session closing nobody => answered _ (State.handleNext_of_no_queue at_ manner session closing nobody),
      fun session closing waiting full => answered _
        (State.handleNext_of_no_candidate at_ manner session closing waiting (State.candidate_of_full full)),
      fun session closing free segments count => answered _ ?_⟩
    · rw [State.handleNext_of_roomAt at_ manner, if_pos session]
    · obtain ⟨e, he⟩ := State.candidate_of_free segments free
      rw [State.handleNext_of_candidate at_ manner session closing (List.ne_nil_of_mem (State.candidate_mem he)) he]
      exact if_pos count
  · have handled : handleQueueClear [kb] s.popInput =
        (s.popInput.emptyQueue a .queueClear, .ok (.cleared a r.queue.length)) := by
      obtain rfl := at_.anchor
      exact State.inRoom_of_roomAt at_ _
    have sheds := State.Sheds.emptyQueue (s := s.popInput) a .queueClear
    refine ⟨_, _, congrArg Host.Outcome.next (State.request_of_handled take (by simp [Allowed.permits, run]) handled),
      State.emptyQueue_room (s := s.popInput) at_.room right, rfl, State.emptyQueue_dropped (s := s.popInput) at_.room right,
      sheds.hall, fun off => ?_⟩
    obtain ⟨onFloor, rooms, seats⟩ := State.emptyQueue_of_off (s := s.popInput) (c := .queueClear)
      ((State.OnFloor.popInput (s := s)).countersOff off) at_.room right
    have onFloor' := (State.OnFloor.popInput (s := s) |>.trans onFloor).trans (.reply ⟨0x16, tag, .ok (.cleared a r.queue.length)⟩)
    exact ⟨rooms, seats, onFloor'.queues, onFloor'.eq_with sheds.openingCount sheds.liveCount sheds.stampCount
      rfl⟩

end

section
/-! SUPPORT. What every work of the floor unit, the booth unit and the channels leaves alone: one frame for all of it. -/

namespace Sys2Proof.Machine

/-- What of a room context only the requests on rooms and a change of walls alter. -/
def Room.fixed (r : Room) : Room :=
  { r with session := .dormant, wake := Wake.empty, timer := none, live := [], queue := [], rotation := none, priority := false }

/-- What of a seat only SEAT_SET and SEAT_TRIM alter. -/
def Seat.fixed (x : Seat) : Seat :=
  { Seat.initial with installed := x.installed, cls := x.cls, segment := x.segment, trim := x.trim }

namespace State

section
variable {s t u : State} {n m a b c : Nat} {r : Room}

/-- From `s` to `t` rooms keep their walls, profiles and levels, seats their installation, booths all but their listen states,
bus controllers all but their queues; nothing is mixed, and no command or pin is touched. -/
structure Works (s t : State) : Prop where
  pending : t.pending = s.pending
  resetLow : t.resetLow = s.resetLow
  hall : t.hall = { s.hall with rooms := t.hall.rooms }
  queues : s.QueuesOnly t
  mix : t.mix = s.mix
  canonical : twf none s.hall.rooms = true → twf none t.hall.rooms = true
  rooms : ∀ b, (t.room b).map Room.fixed = (s.room b).map Room.fixed
  seats : ∀ m, (t.seat m).fixed = (s.seat m).fixed
  booths : ∀ b, t.boothAt b = { s.boothAt b with listen := (t.boothAt b).listen }
  strays : s.NoStrays t

/-! ## The entry into IN_SESSION in its parts (R32) -/

/-- The room context that has entered IN_SESSION. -/
def sessionRoom (r : Room) : Room := { r with session := .inSession, wake := Wake.empty, timer := none }

/-- The entry's room, its notice, its channels and maps. -/
def entered (s : State) (a : Nat) (r : Room) (c : SessionCause) (w : Option Waker) : State :=
  (((s.modRoom a sessionRoom).note (.sessionState a r.session .inSession c w none)).makeChannels
    (r.profile.languages.map (fun c => ⟨a, c⟩))).queueMaps r.segments

/-- The seats have left NO_SESSION. -/
def seated (s : State) (a : Nat) (r : Room) (c : SessionCause) (w : Option Waker) : State :=
  (s.entered a r c w).reformAll ((s.entered a r c w).presentIn r.segments)

/-- PRIORITY that is held is taken up. -/
def takeUp (s : State) (a : Nat) (segments : List Nat) : State :=
  if s.chairsHolding segments = [] then s else s.activate a (s.chairsHolding segments)

theorem enterSession_of_room {cause : SessionCause} {w : Option Waker} (hr : s.room a = some r) :
    s.enterSession a cause w = (((s.seated a r cause w).takeUp a r.segments).boothWork a).promote a := by
  unfold enterSession
  rw [hr]
  rfl

/-- A press asks to speak (R90): the seat joins the queue, and promotion runs; a full queue refuses it. -/
def ask (s : State) (n a : Nat) (r : Room) : State :=
  if s.queueFull r then s.refusePress n .queueFull else (s.joinQueue n .press).promote a

theorem pressIdleDelegate_eq : s.pressIdleDelegate n a r =
    if s.blocked n then s.refusePress n .blocked
    else
      match r.profile.floorMode with
      | .openFloor =>
        match s.openTest n with
        | none => s.enterOpening n .press none
        | some f =>
          match r.profile.overflow with
          | .queue => s.ask n a r
          | .refuse => s.refusePress n f.refused
      | _ => s.ask n a r := rfl

namespace Works

theorem refl (s : State) : s.Works s := ⟨rfl, rfl, rfl, .refl s, rfl, id, fun _ => rfl, fun _ => rfl, fun _ => rfl, .refl s⟩

theorem trans (h : s.Works t) (k : t.Works u) : s.Works u where
  pending := k.pending.trans h.pending
  resetLow := k.resetLow.trans h.resetLow
  hall := by rw [k.hall, h.hall]
  queues := h.queues.trans k.queues
  mix := k.mix.trans h.mix
  canonical := k.canonical ∘ h.canonical
  rooms b := (k.rooms b).trans (h.rooms b)
  seats m := (k.seats m).trans (h.seats m)
  booths b := by rw [k.booths, h.booths]
  strays := h.strays.trans k.strays h.queues

theorem fold {α : Type} {f : State → α → State} (hf : ∀ (v : State) x, v.Works (f v x)) (xs : List α) (s : State) :
    s.Works (xs.foldl f s) := by
  induction xs generalizing s with
  | nil => exact refl s
  | cons x xs ih => exact (hf s x).trans (ih _)

theorem anchorOf (h : s.Works t) (k : Nat) : t.anchorOf k = s.anchorOf k := by
  unfold State.anchorOf
  rw [h.hall]

theorem seat_segment (h : s.Works t) (m : Nat) : (t.seat m).segment = (s.seat m).segment := (congrArg Seat.segment (h.seats m) :)

theorem seatAnchor (h : s.Works t) (m : Nat) : t.seatAnchor m = s.seatAnchor m := by
  unfold State.seatAnchor
  rw [h.seat_segment, h.anchorOf]

theorem boothAnchor (h : s.Works t) (b : Nat) : t.boothAnchor b = s.boothAnchor b := by
  unfold State.boothAnchor
  rw [h.booths, h.anchorOf]

theorem unit (h : s.Works t) (i a : Nat) : t.unit i a = s.unit i a := by
  unfold State.unit
  rw [h.queues i]

/-- A state that differs only in the link, the counters, the channels, the consoles and the groups. -/
theorem of_same (hp : t.pending = s.pending) (hr : t.resetLow = s.resetLow) (hh : t.hall = s.hall)
    (hf : t.floor.seats = s.floor.seats) (hu : t.buses = s.buses) (hb : t.booth.booths = s.booth.booths) (hm : t.mix = s.mix) :
    s.Works t where
  pending := hp
  resetLow := hr
  hall := by rw [hh]
  queues := .of_buses hu
  mix := hm
  canonical h := by rwa [hh]
  rooms b := by
    unfold State.room
    rw [hh]
  seats m := by
    unfold State.seat
    rw [hf]
  booths b := by
    unfold State.boothAt
    rw [hb]
  strays := .of_buses hu

theorem of_sheds (h : s.Sheds t) : s.Works t where
  pending := h.pending
  resetLow := h.resetLow
  hall := h.hall
  queues := h.queues
  mix := h.mix
  canonical := h.canonical
  rooms b := by
    cases hr : s.room b with
    | none => rw [h.noRoom b hr]
    | some r =>
      obtain ⟨q, hq, -⟩ := h.room b r hr
      rw [hq]
      rfl
  seats m := by
    rcases h.seat m with e | e <;> rw [e] <;> rfl
  booths b := by
    unfold State.boothAt
    rw [h.booth]
  strays := h.strays

/-! ## Writes -/

theorem note (x : Notice) : s.Works (s.note x) := of_same rfl rfl rfl rfl rfl rfl rfl
theorem raise (o : Occurrence) : s.Works (s.raise o) := of_same rfl rfl rfl rfl rfl rfl rfl
theorem raiseSeat (e : CountEvent) (n : Nat) : s.Works (s.raiseSeat e n) := raise _
theorem raiseBooth (e : CountEvent) (b : Nat) : s.Works (s.raiseBooth e b) := raise _
theorem noteMic (n : Nat) (old : Mic) (c : MicCause) : s.Works (s.noteMic n old c) := note _
theorem noteConsole (c : Nat) (old : ConsoleState) (k : BoothCause) (x : Option Nat) : s.Works (s.noteConsole c old k x) := note _
theorem countOpening : s.Works s.countOpening := of_same rfl rfl rfl rfl rfl rfl rfl
theorem countLive : s.Works s.countLive := of_same rfl rfl rfl rfl rfl rfl rfl
theorem countStamp : s.Works s.countStamp := of_same rfl rfl rfl rfl rfl rfl rfl
theorem setConsole (c : Nat) (x : Console) : s.Works (s.setConsole c x) := of_same rfl rfl rfl rfl rfl rfl rfl
theorem setSlot (k : Nat) (x : Option Key) : s.Works (s.setSlot k x) := of_same rfl rfl rfl rfl rfl rfl rfl
theorem setUnserved (ks : List Key) : s.Works (s.setUnserved ks) := of_same rfl rfl rfl rfl rfl rfl rfl
theorem settleCounts : s.Works s.settleCounts := of_sheds .settleCounts

theorem setSeat (n : Nat) (x : Seat) (hx : x.fixed = (s.seat n).fixed) : s.Works (s.setSeat n x) where
  pending := rfl
  resetLow := rfl
  hall := rfl
  queues := .refl s
  mix := rfl
  canonical := id
  rooms _ := rfl
  seats m := by
    rw [setSeat_seat]
    split
    · subst_vars
      exact hx
    · rfl
  booths _ := rfl
  strays := .refl s

theorem modRoom (a : Nat) (f : Room → Room) (hf : ∀ r : Room, (f r).fixed = r.fixed) : s.Works (s.modRoom a f) := by
  unfold State.modRoom
  split
  · exact refl s
  · next r hr =>
    refine ⟨rfl, rfl, rfl, .refl s, rfl, setRoom_canonical, fun b => ?_, fun _ => rfl, fun _ => rfl, .refl s⟩
    rw [setRoom_room]
    split
    · subst_vars
      rw [hr]
      exact congrArg some (hf r)
    · rfl

theorem modSeatRoom (n : Nat) (f : Room → Room) (hf : ∀ r : Room, (f r).fixed = r.fixed) : s.Works (s.modSeatRoom n f) := by
  unfold State.modSeatRoom
  split
  · exact refl s
  · exact modRoom _ f hf

theorem setListen (b : Nat) (x : Listen) : s.Works (s.setBooth b { s.boothAt b with listen := x }) :=
  ⟨rfl, rfl, rfl, .refl s, rfl, id, fun _ => rfl, fun _ => rfl, fun d => by
    rw [setBooth_boothAt]
    split
    · subst_vars
      rfl
    · rfl, .refl s⟩

/-- A state that differs only in pending queues, which no unit has joined that is not PRESENT. -/
theorem of_queues (eq : t = { s with buses := t.buses }) (queues : s.QueuesOnly t) (strays : s.NoStrays t) : s.Works t :=
  ⟨by rw [eq], by rw [eq], by rw [eq], queues, by rw [eq], fun h => by rwa [eq], fun _ => by rw [eq]; rfl, fun _ => by rw [eq]; rfl,
    fun _ => by rw [eq]; rfl, strays⟩

theorem joinMap (i k : Nat) : s.Works (s.join i (.map k)) := of_queues (join_eq i _) (join_queuesOnly i _) (.joinMap i k)

theorem check (i a : Nat) : s.Works (s.check i a) := of_queues (check_eq i a) (check_queuesOnly i a) (.check i a)

theorem queueMaps (ks : List Nat) : s.Works (s.queueMaps ks) := fold (fun _ _ => fold (fun _ _ => joinMap _ _) _ _) _ _

theorem queueRoomMaps (a : Nat) : s.Works (s.queueRoomMaps a) := by
  unfold State.queueRoomMaps
  split
  · exact refl s
  · exact queueMaps _

/-! ## Seats -/

theorem reseat (n : Nat) : s.Works (s.reseat n) := of_sheds (.reseat n)

theorem reformAll (ns : List Nat) : s.Works (s.reformAll ns) := of_sheds (.reformAll ns)

theorem unqueue (n : Nat) : s.Works (s.unqueue n) :=
  (modSeatRoom n _ fun _ => by rfl).trans (setSeat n _ (by rw [State.modSeatRoom_seat]; rfl))

theorem emptyQueue (a : Nat) (c : DropCause) : s.Works (s.emptyQueue a c) := of_sheds (.emptyQueue a c)

theorem enterOpening (n : Nat) (c : MicCause) (g : Option Nat) : s.Works (s.enterOpening n c g) := by
  unfold State.enterOpening
  dsimp only
  refine .trans (.trans (.trans (.trans (.trans ?_ (setSeat n _ (by rfl))) countOpening) (modSeatRoom n _ fun _ => by rfl)) (noteMic n _ c))
    (reseat n)
  split
  · exact unqueue n
  · exact refl s

theorem enterClosing (n : Nat) (c : MicCause) : s.Works (s.enterClosing n c) :=
  ((setSeat n _ (by rfl)).trans (noteMic n _ c)).trans (reseat n)

theorem withdraw (n : Nat) (c : MicCause) : s.Works (s.withdraw n c) :=
  (((unqueue n).trans (setSeat n _ (by rfl))).trans (noteMic n _ c)).trans (reseat n)

theorem refusePress (n : Nat) (c : RefusedCause) : s.Works (s.refusePress n c) := ((note _).trans (raiseSeat _ n)).trans settleCounts

theorem joinQueue (n : Nat) (c : MicCause) : s.Works (s.joinQueue n c) :=
  ((((((modSeatRoom n _ fun _ => by rfl).trans (setSeat n _ (by rfl))).trans countStamp).trans (noteMic n _ c)).trans (reseat n)).trans
    (raiseSeat _ n)).trans settleCounts

theorem takeCandidate (a : Nat) (e : Entry) (c : MicCause) : s.Works (s.takeCandidate a e c) :=
  (enterOpening _ c none).trans (modRoom a _ fun _ => by rfl)

theorem promoteRun (fuel a : Nat) (s : State) : s.Works (Machine.promoteRun fuel a s) := by
  induction fuel generalizing s with
  | zero => exact refl s
  | succ fuel ih =>
    unfold Machine.promoteRun
    split
    · exact refl s
    · split
      · split
        · exact refl s
        · split
          · exact refl s
          · exact (takeCandidate a _ _).trans (ih _)
      · exact refl s

theorem promote (a : Nat) : s.Works (s.promote a) := by
  unfold State.promote
  split
  · exact refl s
  · exact promoteRun _ a s

theorem promoteSeat (n : Nat) : s.Works (s.promoteSeat n) := by
  unfold State.promoteSeat
  split
  · exact refl s
  · exact promote _

theorem promoteAfterSlot (n : Nat) : s.Works (s.promoteAfterSlot n) := (promoteSeat n).trans (fold (fun _ a => promote a) _ _)

/-! ## Priority -/

theorem mute (n : Nat) : s.Works (s.mute n) := (setSeat n _ (by rfl)).trans (noteMic n _ _)

theorem muteAll (a : Nat) : s.Works (s.muteAll a) := by
  unfold State.muteAll
  split
  · exact refl s
  · exact fold (fun _ n => mute n) _ _

theorem closeAll (a : Nat) : s.Works (s.closeAll a) := by
  unfold State.closeAll
  split
  · exact refl s
  · exact fold (fun _ n => enterClosing n _) _ _

theorem act (a : Nat) : s.Works (s.act a) := by
  unfold State.act
  split
  · exact refl s
  · split
    · exact muteAll a
    · exact closeAll a
    · exact (closeAll a).trans (emptyQueue a _)

theorem openChair (n : Nat) (c : MicCause) : s.Works (s.openChair n c) := by
  unfold State.openChair
  split
  · split
    · exact enterOpening n c none
    · exact refusePress n _
  · exact refl s

theorem activate (a : Nat) (chairs : List Nat) : s.Works (s.activate a chairs) := by
  unfold State.activate
  split
  · exact refl s
  · refine .trans ?_ (fold (fun _ n => openChair n _) _ _)
    split
    · exact refl s
    · exact (modRoom a _ fun _ => by rfl).trans (act a)

theorem unmuteAll (a : Nat) : s.Works (s.unmuteAll a) := by
  unfold State.unmuteAll
  split
  · exact refl s
  · exact fold (fun _ n => (setSeat n _ (by rfl)).trans (noteMic n _ _)) _ _

theorem endPriority (a : Nat) : s.Works (s.endPriority a) := (modRoom a _ fun _ => by rfl).trans (unmuteAll a)

/-! ## Channels -/

theorem makeChannel (key : Key) : s.Works (s.makeChannel key) := by
  unfold State.makeChannel
  split
  · exact refl s
  · split
    · exact (setSlot _ _).trans (queueRoomMaps _)
    · exact ((setUnserved _).trans (note _)).trans (queueRoomMaps _)

theorem makeChannels (ks : List Key) : s.Works (s.makeChannels ks) := fold (fun _ key => makeChannel key) _ _

theorem giveSlot (k : Nat) : s.Works (s.giveSlot k) := by
  unfold State.giveSlot
  split
  · exact setSlot k none
  · exact (((setSlot k _).trans (setUnserved _)).trans (note _)).trans (queueRoomMaps _)

theorem removeUnserved (key : Key) : s.Works (s.removeUnserved key) := by
  unfold State.removeUnserved
  split
  · exact refl s
  · exact ((setUnserved _).trans (note _)).trans (queueRoomMaps _)

theorem removeServed (key : Key) : s.Works (s.removeServed key) := by
  unfold State.removeServed
  split
  · exact refl s
  · exact (queueRoomMaps _).trans (giveSlot _)

theorem removeChannels (ks : List Key) : s.Works (s.removeChannels ks) :=
  (fold (fun _ key => removeUnserved key) _ _).trans (fold (fun _ key => removeServed key) _ _)

/-! ## Booths and consoles -/

theorem relisten (b : Nat) : s.Works (s.relisten b) := by
  unfold State.relisten
  dsimp only
  split
  · exact refl s
  · split
    · exact (((setListen b _).trans (note _)).trans (raiseBooth _ b)).trans settleCounts
    · exact (setListen b _).trans (note _)
    · exact setListen b _

theorem showConsole (c : Nat) : s.Works (s.showConsole c) := (setConsole c _).trans (check _ _)

theorem reconsole (c : Nat) : s.Works (s.reconsole c) := by
  unfold State.reconsole
  split
  · exact refl s
  · exact showConsole c

theorem boothWork (a : Nat) : s.Works (s.boothWork a) :=
  (fold (fun _ b => relisten b) _ _).trans (fold (fun _ c => reconsole c) _ _)

theorem consoleWork (c : Nat) : s.Works (s.consoleWork c) := by
  unfold State.consoleWork
  split
  · exact reconsole c
  · exact boothWork _

theorem moveConsole (c : Nat) (state : ConsoleState) (owned : Option Key) : s.Works (s.moveConsole c state owned) :=
  (setConsole c _).trans (showConsole c)

theorem release (c : Nat) (k : BoothCause) (x : Option Nat) : s.Works (s.release c k x) :=
  (moveConsole c _ _).trans (noteConsole c _ k x)

/-! ## Sessions -/

theorem takeUp (a : Nat) (segments : List Nat) : s.Works (s.takeUp a segments) := by
  unfold State.takeUp
  split
  · exact refl s
  · exact activate a _

theorem enterSession (a : Nat) (c : SessionCause) (w : Option Waker) : s.Works (s.enterSession a c w) := by
  cases hr : s.room a with
  | none =>
    unfold State.enterSession
    rw [hr]
    exact refl s
  | some r =>
    rw [enterSession_of_room hr]
    refine .trans (.trans ?_ (takeUp a _)) ((boothWork a).trans (promote a))
    unfold State.seated State.entered
    exact (((modRoom a _ fun _ => by rfl).trans (note _)).trans ((makeChannels _).trans (queueMaps _))).trans (reformAll _)

theorem wake (a : Nat) (holds : Wake → Bool) (c : SessionCause) (w : Option Waker) : s.Works (s.wake a holds c w) := by
  unfold State.wake
  split
  · exact refl s
  · split
    · exact enterSession a c w
    · exact refl s

theorem passToDormant (a : Nat) : s.Works (s.passToDormant a) := by
  unfold State.passToDormant
  split
  · exact refl s
  · exact (((((modRoom a _ fun _ => by rfl).trans (note _)).trans (removeChannels _)).trans (queueMaps _)).trans
      (modRoom a _ fun _ => by rfl)).trans ((reformAll _).trans (boothWork a))

theorem passIfEmpty (a : Nat) : s.Works (s.passIfEmpty a) := by
  unfold State.passIfEmpty
  split
  · exact refl s
  · split
    · exact passToDormant a
    · exact refl s

theorem passSeatRoom (n : Nat) : s.Works (s.passSeatRoom n) := by
  unfold State.passSeatRoom
  split
  · exact refl s
  · exact passIfEmpty _

theorem closeSession (a : Nat) : s.Works (s.closeSession a) := by
  unfold State.closeSession
  split
  · exact refl s
  · exact fold (fun _ n => enterClosing n _) _ _

theorem endSession (a : Nat) : s.Works (s.endSession a) := by
  unfold State.endSession
  split
  · exact refl s
  · dsimp only
    refine .trans (.trans (.trans (.trans ?_ (closeSession a)) (fold (fun _ c => release c _ _) _ _)) (boothWork a)) (passIfEmpty a)
    split
    · exact (((modRoom a _ fun _ => by rfl).trans (note _)).trans (emptyQueue a _)).trans (endPriority a)
    · exact ((modRoom a _ fun _ => by rfl).trans (note _)).trans (emptyQueue a _)

/-! ## What the units' answers bring -/

theorem ask (n a : Nat) (r : Room) : s.Works (s.ask n a r) := by
  unfold State.ask
  split
  · exact refusePress n _
  · exact (joinQueue n _).trans (promote a)

theorem pressIdleDelegate (n a : Nat) (r : Room) : s.Works (s.pressIdleDelegate n a r) := by
  rw [pressIdleDelegate_eq]
  split
  · exact refusePress n _
  · split
    · split
      · exact enterOpening n _ none
      · split
        · exact ask n a r
        · exact refusePress n _
    · exact ask n a r

theorem pressDelegate (n a : Nat) (r : Room) : s.Works (s.pressDelegate n a r) := by
  unfold State.pressDelegate
  split
  · exact pressIdleDelegate n a r
  · split
    · exact withdraw n _
    · exact refl s
  · split
    · exact (enterClosing n _).trans (promote a)
    · exact refl s
  · split
    · exact (enterClosing n _).trans (promote a)
    · exact refl s
  · exact refl s

theorem pressChair (n a : Nat) : s.Works (s.pressChair n a) := by
  unfold State.pressChair
  split
  · exact openChair n _
  · exact (enterClosing n _).trans (promote a)
  · exact (enterClosing n _).trans (promote a)
  · exact refl s

theorem handlePress (n : Nat) : s.Works (s.handlePress n) := by
  unfold State.handlePress
  split
  · exact setSeat n _ (by rfl)
  · split
    · exact refl s
    · split
      · exact refl s
      · split
        · split
          · exact pressDelegate n _ _
          · exact pressChair n _
        · exact refl s

theorem micPress (n : Nat) : s.Works (s.micPress n) := by
  unfold State.micPress
  split
  · exact handlePress n
  · split
    · exact (wake _ _ _ _).trans (handlePress n)
    · exact (wake _ _ _ _).trans (handlePress n)

theorem seatOpened (n : Nat) : s.Works (s.seatOpened n) := by
  unfold State.seatOpened
  dsimp only
  split
  · exact (((((setSeat n _ (by rfl)).trans countLive).trans (noteMic n _ _)).trans (reseat n)).trans (raiseSeat _ n)).trans settleCounts
  · exact refl s

theorem seatClosed (n : Nat) : s.Works (s.seatClosed n) := by
  unfold State.seatClosed
  dsimp only
  split
  · exact (((((((setSeat n _ (by rfl)).trans (modSeatRoom n _ fun _ => by rfl)).trans (noteMic n _ _)).trans (reseat n)).trans
      (raiseSeat _ n)).trans settleCounts).trans (passSeatRoom n)).trans (promoteAfterSlot n)
  · exact refl s

theorem priorityReleased (a : Nat) : s.Works (s.priorityReleased a) := by
  unfold State.priorityReleased
  split
  · exact refl s
  · split
    · exact (endPriority a).trans (promote a)
    · exact refl s

theorem chairHeld (n : Nat) (held : Bool) : s.Works (s.chairHeld n held) := by
  unfold State.chairHeld
  split
  · exact refl s
  · split
    · split
      · exact activate _ _
      · exact wake _ _ _ _
      · exact refl s
    · exact priorityReleased _

theorem takeChannel (c : Nat) (key : Key) : s.Works (s.takeChannel c key) := (moveConsole c _ _).trans (noteConsole c _ _ _)

theorem pressReady (c : Nat) : s.Works (s.pressReady c) := by
  unfold State.pressReady
  split
  · exact noteConsole c _ _ _
  · dsimp only
    split
    · exact noteConsole c _ _ _
    · split
      · exact noteConsole c _ _ _
      · split
        · exact takeChannel c _
        · split
          · exact noteConsole c _ _ _
          · exact (((release _ _ _).trans (takeChannel c _)).trans (raiseBooth _ _)).trans settleCounts

theorem handleOnAir (c : Nat) : s.Works (s.handleOnAir c) := by
  unfold State.handleOnAir
  split
  · exact (pressReady c).trans (consoleWork c)
  · exact (release c _ _).trans (consoleWork c)
  · exact (release c _ _).trans (consoleWork c)
  · exact refl s

theorem onAirPress (c : Nat) : s.Works (s.onAirPress c) := by
  unfold State.onAirPress
  split
  · exact handleOnAir c
  · exact (wake _ _ _ _).trans (handleOnAir c)

theorem consoleOpened (c : Nat) : s.Works (s.consoleOpened c) := by
  unfold State.consoleOpened
  split
  · exact ((moveConsole c _ _).trans (noteConsole c _ _ _)).trans (consoleWork c)
  · exact refl s

theorem consoleClosed (c : Nat) : s.Works (s.consoleClosed c) := by
  unfold State.consoleClosed
  split
  · exact ((moveConsole c _ _).trans (noteConsole c _ _ _)).trans (consoleWork c)
  · exact refl s

theorem coughHeld (c : Nat) (held : Bool) : s.Works (s.coughHeld c held) := by
  unfold State.coughHeld
  dsimp only
  split
  · exact (setConsole c _).trans (noteConsole c _ _ _)
  · exact setConsole c _

theorem heldChanged (i a : Nat) (held : Bool) : s.Works (s.heldChanged i a held) := by
  unfold State.heldChanged
  split
  · split
    · exact chairHeld _ held
    · exact refl s
  · exact coughHeld a held

end Works

end

end State

end Sys2Proof.Machine
end

section
/-! SUPPORT. Answers that are heard, and presses of MIC in session (O25, and the first two parts of O24). -/

namespace Sys2Proof.Machine

namespace State

section
variable {s t u : State} {bus : BusId} {i n m a b k : Nat} {x : Exchange} {c : UnitClass} {r : Room} {v w : UnitRecord} {held : Bool}

/-! ## Units -/

theorem setUnit_unit (j d : Nat) : (s.setUnit i a v).unit j d = if j = i ∧ d = a then v else s.unit j d := by
  unfold setUnit State.unit
  rw [setBus_bus]
  by_cases bus : j = i
  · subst bus
    rw [if_pos rfl]
    show tget _ (tset _ _ a v) d = _
    rw [tget_tset]
    by_cases address : d = a
    · rw [if_pos address, if_pos ⟨rfl, address⟩]
    · rw [if_neg address, if_neg (fun h => address h.2)]
  · rw [if_neg bus, if_neg (fun h => bus h.1)]

theorem setUnit_bus (j : Nat) : (s.setUnit i a v).bus j =
    if j = i then { s.bus i with units := tset UnitRecord.initial (s.bus i).units a v } else s.bus j :=
  setBus_bus ..

theorem Heard.queues (h : s.Heard t i x v) (k : t.QueuesOnly u) : s.Heard u i x v where
  record := by
    rw [← h.record]
    unfold State.unit
    rw [k i]
  units b hb := by
    rw [← h.units b hb]
    unfold State.unit
    rw [k i]
  here := by rw [k i, h.here]
  others j hj := by rw [k j, h.others j hj]

theorem Heard.setUnit (h : s.Heard t i x v) : s.Heard (t.setUnit i x.address w) i x w where
  record := by rw [setUnit_unit, if_pos ⟨rfl, rfl⟩]
  units b hb := by rw [setUnit_unit, if_neg (fun e => hb e.2), h.units b hb]
  here := by
    rw [setUnit_bus, if_pos rfl, h.here]
  others j hj := by
    rw [setUnit_bus, if_neg hj]
    exact h.others j hj

/-! ## The answer that is awaited (R67, R73) -/

/-- The exchange of a bus is over and the record of its unit is this. -/
def heardAs (s : State) (i : Nat) (x : Exchange) (v : UnitRecord) : State :=
  (s.setBus i { s.bus i with exchange := some { x with awaiting := false } }).setUnit i x.address v

/-- An answer of a PRESENT unit has been heard. -/
abbrev heard (s : State) (i : Nat) (x : Exchange) (c : UnitClass) : State :=
  s.heardAs i x { s.unit i x.address with misses := 0, reported := some c }

theorem heardAs_unit (j d : Nat) : (s.heardAs i x v).unit j d = if j = i ∧ d = x.address then v else s.unit j d := by
  rw [heardAs, setUnit_unit]
  refine ite_congr rfl (fun _ => rfl) fun _ => ?_
  unfold State.unit
  rw [setBus_bus]
  split
  · subst_vars
    rfl
  · rfl

theorem heard_heardAs : s.Heard (s.heardAs i x v) i x v where
  record := by rw [heardAs_unit, if_pos ⟨rfl, rfl⟩]
  units b hb := by rw [heardAs_unit, if_neg (fun h => hb h.2)]
  here := by
    unfold heardAs State.setUnit
    simp only [setBus_bus_same]
  others j hj := by
    unfold heardAs State.setUnit
    rw [setBus_bus, if_neg hj, setBus_bus, if_neg hj]

theorem exchange_of_awaited (h : s.awaited i = some x) : (s.bus i).exchange = some x := by
  unfold awaited at h
  split at h
  · cases h
  · next y hy =>
    split at h
    · rw [hy, Option.some.inj h]
    · cases h

theorem endExchange_of_awaited (h : s.awaited i = some x) :
    s.endExchange i = s.setBus i { s.bus i with exchange := some { x with awaiting := false } } := by
  unfold endExchange
  rw [exchange_of_awaited h]

theorem endExchange_unit (h : s.awaited i = some x) (d : Nat) : (s.endExchange i).unit i d = s.unit i d := by
  rw [endExchange_of_awaited h]
  unfold State.unit
  rw [setBus_bus_same]

section
variable (h : s.Awaits bus i x)
include h

theorem Awaits.exec_status (presses : BitVec 2) (held : Bool) (c : UnitClass) :
    exec (.unitReplyStatus bus presses held c) s = .next (s.answered i x none presses.toNat held c) := by
  refine congrArg Host.Outcome.next ((State.upToDate_of_nothingDue h.up h.due _).trans ?_)
  obtain rfl := h.index
  unfold hear
  rw [h.awaited]

theorem Awaits.exec_ack (acked : AckOf) (presses : BitVec 2) (held : Bool) (c : UnitClass) :
    exec (.unitReplyAck bus acked presses held c) s = .next (s.answered i x (some acked) presses.toNat held c) := by
  refine congrArg Host.Outcome.next ((State.upToDate_of_nothingDue h.up h.due _).trans ?_)
  obtain rfl := h.index
  unfold hear
  rw [h.awaited]

theorem Awaits.exec_missed : exec (.exchangeMissed bus) s = .next (s.missExchange i x) := by
  refine congrArg Host.Outcome.next ((State.upToDate_of_nothingDue h.up h.due _).trans ?_)
  obtain rfl := h.index
  unfold lapse
  rw [h.awaited]

section
variable (present : (s.unit i x.address).presence = .present)
include present

/-- A STATUS of a PRESENT unit: the record, then its presses, its held state and the check. -/
theorem Awaits.answered_status (presses : Nat) (held : Bool) (c : UnitClass) : s.answered i x none presses held c =
    (((((s.heard i x c).applyStatus i x.address x.command).presses i x.address presses).recordHeld i x.address held).check i
      x.address) := by
  unfold answered
  dsimp only
  rw [if_pos (by rw [endExchange_unit h.awaited, present]), endExchange_unit h.awaited, endExchange_of_awaited h.awaited]
  rfl

theorem Awaits.answered_poll (poll : x.command = .poll) (presses : Nat) (held : Bool) (c : UnitClass) :
    s.answered i x none presses held c =
      ((((s.heard i x c).presses i x.address presses).recordHeld i x.address held).check i x.address) := by
  rw [h.answered_status present, poll]
  rfl

/-- An ACK of OPEN in answer to an OPEN. -/
theorem Awaits.answered_opened (command : x.command = .open_ k) (presses : Nat) (held : Bool) (c : UnitClass) :
    s.answered i x (some .ofOpen) presses held c =
      (((((s.heard i x c).acknowledge i x.address .ofOpen).presses i x.address presses).recordHeld i x.address held).check i
        x.address) := by
  obtain ⟨address, _, awaiting⟩ := x
  obtain rfl : _ = Command.open_ k := command
  unfold answered
  dsimp only
  rw [if_pos (by rw [endExchange_unit h.awaited]; exact present), endExchange_unit h.awaited, endExchange_of_awaited h.awaited]
  rfl

/-- An ACK of CLOSE in answer to a CLOSE. -/
theorem Awaits.answered_closed (command : x.command = .close) (presses : Nat) (held : Bool) (c : UnitClass) :
    s.answered i x (some .ofClose) presses held c =
      (((((s.heard i x c).acknowledge i x.address .ofClose).presses i x.address presses).recordHeld i x.address held).check i
        x.address) := by
  obtain ⟨address, _, awaiting⟩ := x
  obtain rfl : _ = Command.close := command
  unfold answered
  dsimp only
  rw [if_pos (by rw [endExchange_unit h.awaited]; exact present), endExchange_unit h.awaited, endExchange_of_awaited h.awaited]
  rfl

end

end

theorem recordHeld_of_same (h : (s.unit i a).held = held) : s.recordHeld i a held = s := if_pos h

theorem recordHeld_of_change (h : (s.unit i a).held ≠ held) :
    s.recordHeld i a held = (s.setUnit i a { s.unit i a with held := held }).heldChanged i a held := if_neg h

theorem heard_held (j : Nat) : ((s.heard i x c).unit j x.address).held = (s.unit j x.address).held := by
  rw [heardAs_unit]
  split
  · next h =>
    obtain ⟨rfl, -⟩ := h
    rfl
  · rfl

/-- After work that a PRESENT unit's answer brings, a held state as recorded brings nothing more. -/
theorem Works.recordHeld (h : (s.heard i x c).Works t) : t.recordHeld i x.address (s.unit i x.address).held = t :=
  recordHeld_of_same (by rw [h.unit, heard_held])

theorem AwaitsSeat.seatAt_eq (h : s.AwaitsSeat bus i n a x r) : seatAt i x.address = n := h.number.symm

theorem presses_one (small : i < 4) : s.presses i a 1 = s.micPress (seatAt i a) := if_pos small

theorem presses_one_console (d : Nat) : s.presses 4 d 1 = s.onAirPress d := rfl

/-- A STATUS with one press and no change of held state, in answer to a poll. -/
theorem AwaitsSeat.exec_press (h : s.AwaitsSeat bus i n a x r) (poll : x.command = .poll) (c : UnitClass) :
    exec (.unitReplyStatus bus 1 (s.unit i x.address).held c) s =
      .next (((s.heard i x c).micPress n).check i x.address) := by
  rw [h.exec_status, show (1 : BitVec 2).toNat = 1 from rfl, h.answered_poll h.present poll, presses_one h.small.1, h.seatAt_eq,
    Works.recordHeld (.micPress n)]

/-- A STATUS with a change of held state and no press, in answer to a poll. -/
theorem AwaitsSeat.exec_held (h : s.AwaitsSeat bus i n a x r) (poll : x.command = .poll) (c : UnitClass)
    (change : (s.unit i x.address).held ≠ held) :
    exec (.unitReplyStatus bus 0 held c) s = .next ((((s.heard i x c).setUnit i x.address
      { s.unit i x.address with misses := 0, reported := some c, held := held }).heldChanged i x.address held).check i
        x.address) := by
  have recorded : (s.heard i x c).recordHeld i x.address held = ((s.heard i x c).setUnit i x.address
      { s.unit i x.address with misses := 0, reported := some c, held := held }).heldChanged i x.address held := by
    rw [recordHeld_of_change (by rwa [heard_held]), heardAs_unit, if_pos ⟨rfl, rfl⟩]
  rw [h.exec_status, show (0 : BitVec 2).toNat = 0 from rfl, h.answered_poll h.present poll]
  exact congrArg (fun z => Host.Outcome.next (State.check z i x.address)) recorded

@[simp] theorem check_seat : (s.check i k).seat m = s.seat m := by
  unfold State.seat
  rw [check_floor]

@[simp] theorem check_room : (s.check i k).room m = s.room m := by
  unfold room
  rw [check_hall]

@[simp] theorem check_booth : (s.check i k).booth = s.booth := by rw [check_eq]
@[simp] theorem check_dist : (s.check i k).dist = s.dist := by rw [check_eq]

end

/-! ## A press in session, case by case (R90 to R92) -/

section
variable {s : State} {n m a b k : Nat} {r : Room} {c : MicCause} {f : OpenFailure}

theorem wake_of_not_armed {holds : Wake → Bool} {cause : SessionCause} {w : Option Waker} (hr : s.room a = some r)
    (h : r.session ≠ .armed) : s.wake a holds cause w = s := by
  unfold wake
  rw [hr]
  dsimp only
  rw [if_neg (by simp [h])]

theorem wake_of_not_held {holds : Wake → Bool} {cause : SessionCause} {w : Option Waker} (hr : s.room a = some r)
    (h : holds r.wake = false) : s.wake a holds cause w = s := by
  unfold wake
  rw [hr]
  dsimp only
  rw [if_neg (by simp [h])]

theorem handlePress_of_pending (h : (s.seat n).mic = .closing ∨ (s.seat n).mic = .holdOff) :
    s.handlePress n = s.togglePending n := by
  unfold handlePress
  rw [if_pos (by rcases h with h | h <;> rw [h] <;> rfl)]

section
variable (ha : s.seatAnchor n = some a) (hr : s.room a = some r)
include ha hr

theorem micPress_of_not_woken (h : r.session ≠ .armed ∨ ((s.seat n).cls = .delegate → r.wake.delegatePress = false) ∧
    ((s.seat n).cls = .chair → r.wake.chairPress = false)) : s.micPress n = s.handlePress n := by
  unfold micPress
  rw [ha]
  dsimp only
  rcases h with session | ⟨delegate, chair⟩
  · rw [wake_of_not_armed hr session, wake_of_not_armed hr session]
    cases (s.seat n).cls <;> rfl
  · cases cls : (s.seat n).cls
    · dsimp only
      rw [wake_of_not_held hr (delegate cls)]
    · dsimp only
      rw [wake_of_not_held hr (chair cls)]

theorem handlePress_of_out (mic : (s.seat n).mic ≠ .closing ∧ (s.seat n).mic ≠ .holdOff) (out : r.session ≠ .inSession) :
    s.handlePress n = s := by
  unfold handlePress
  rw [if_neg (by simp [mic.1, mic.2]), ha]
  dsimp only
  rw [hr]
  dsimp only
  rw [if_neg out]

section
variable (session : r.session = .inSession)
include session

theorem handlePress_of_delegate (cls : (s.seat n).cls = .delegate) (mic : (s.seat n).mic ≠ .closing ∧ (s.seat n).mic ≠ .holdOff) :
    s.handlePress n = s.pressDelegate n a r := by
  unfold handlePress
  rw [if_neg (by simp [mic.1, mic.2]), ha]
  dsimp only
  rw [hr]
  dsimp only
  rw [if_pos session, cls]

theorem handlePress_of_chair (cls : (s.seat n).cls = .chair) (mic : (s.seat n).mic ≠ .closing ∧ (s.seat n).mic ≠ .holdOff) :
    s.handlePress n = s.pressChair n a := by
  unfold handlePress
  rw [if_neg (by simp [mic.1, mic.2]), ha]
  dsimp only
  rw [hr]
  dsimp only
  rw [if_pos session, cls]

theorem handlePress_of_idle_delegate (cls : (s.seat n).cls = .delegate) (mic : (s.seat n).mic = .idle) :
    s.handlePress n = s.pressIdleDelegate n a r := by
  rw [handlePress_of_delegate ha hr session cls (by rw [mic]; decide), pressDelegate, mic]

theorem handlePress_of_queued (cls : (s.seat n).cls = .delegate) (mic : (s.seat n).mic = .queued) :
    s.handlePress n = if r.profile.mayCancel then s.withdraw n .press else s := by
  rw [handlePress_of_delegate ha hr session cls (by rw [mic]; decide), pressDelegate, mic]

theorem handlePress_of_onFloor (cls : (s.seat n).cls = .delegate) (mic : (s.seat n).mic = .opening ∨ (s.seat n).mic = .live) :
    s.handlePress n = if r.profile.mayClose then (s.enterClosing n .press).promote a else s := by
  rw [handlePress_of_delegate ha hr session cls (by rcases mic with h | h <;> rw [h] <;> decide), pressDelegate]
  rcases mic with h | h <;> rw [h]

end

omit ha hr in
/-- In mode OPEN a seat that is not blocked and passes the open test opens. -/
theorem pressIdleDelegate_of_open (free : s.blocked n = false) (mode : r.profile.floorMode = .openFloor)
    (test : s.openTest n = none) : s.pressIdleDelegate n a r = s.enterOpening n .press none := by
  rw [pressIdleDelegate_eq, if_neg (Bool.eq_false_iff.1 free), mode]
  dsimp only
  rw [test]

omit ha hr in
theorem pressIdleDelegate_of_refuse (free : s.blocked n = false) (mode : r.profile.floorMode = .openFloor)
    (overflow : r.profile.overflow = .refuse) (test : s.openTest n = some f) :
    s.pressIdleDelegate n a r = s.refusePress n f.refused := by
  rw [pressIdleDelegate_eq, if_neg (Bool.eq_false_iff.1 free), mode]
  dsimp only
  rw [test, overflow]

omit ha hr in
theorem pressIdleDelegate_of_ask (free : s.blocked n = false)
    (asks : r.profile.floorMode ≠ .openFloor ∨ r.profile.overflow = .queue ∧ s.openTest n ≠ none) :
    s.pressIdleDelegate n a r = s.ask n a r := by
  rw [pressIdleDelegate_eq, if_neg (Bool.eq_false_iff.1 free)]
  cases mode : r.profile.floorMode with
  | chair => rfl
  | request => rfl
  | openFloor =>
    dsimp only
    obtain ⟨overflow, test⟩ := asks.resolve_left (not_not_intro mode)
    cases result : s.openTest n with
    | none => exact absurd result test
    | some f =>
      dsimp only
      rw [overflow]

/-! ## Joining and being promoted at once (R90, R99, R105) -/

section
variable (off : s.CountersOff)
include off

omit ha hr in
theorem joinQueue_freeSlot (i : Nat) : (s.joinQueue n c).freeSlot i = s.freeSlot i := by
  obtain ⟨z, hz⟩ : ∃ z, z = (s.modSeatRoom n (fun r =>
    { r with queue := r.queue ++ [{ seat := n, stamp := s.floor.stampCount, segment := (s.seat n).segment }] })).countStamp :=
    ⟨_, rfl⟩
  have zfloor : z.floor = { s.floor with stampCount := s.floor.stampCount + 1 } := by
    rw [hz]
    unfold modSeatRoom modRoom
    split
    · rfl
    · split <;> rfl
  have zseat : z.seat n = s.seat n := by
    unfold State.seat
    rw [zfloor]
  have joined : s.joinQueue n c =
      z.moveSeat n { z.seat n with mic := .queued, stamp := some s.floor.stampCount } .idle c := by
    rw [joinQueue_of_off off, hz]
    rfl
  rw [joined]
  exact (moveSeat_freeSlot (by rfl) (by exact Mic.noConfusion) i).trans (freeSlot_of_seats (by rw [zfloor]) i)

/-- A join leaves the counts of its room, since the seat was not on the floor. -/
theorem joinQueue_delegateCount (mic : (s.seat n).mic = .idle) {x : Room} (live : x.live = r.live) :
    (s.joinQueue n c).delegateCount x = s.delegateCount r := by
  obtain ⟨seats, -⟩ := joinQueue_eq (c := c) ha hr off
  refine delegateCount_congr live fun m _ => ?_
  rw [seats]
  split
  · subst_vars
    rw [mic]
    exact ⟨rfl, rfl⟩
  · exact ⟨rfl, rfl⟩

theorem joinQueue_promotes (mic : (s.seat n).mic = .idle) {q : List Entry} :
    (s.joinQueue n c).promotes { r with queue := q } = s.promotes r := by
  have count := joinQueue_delegateCount (c := c) ha hr off mic (x := { r with queue := q }) rfl
  unfold State.promotes
  rw [count]
  rfl

/-- A join after which promotion cannot run or finds no free slot is all that happens. -/
theorem joinQueue_promote_stays (mic : (s.seat n).mic = .idle)
    (stays : s.promotes r = false ∨
      s.freeSlot (seatBus n) = none ∧ ∀ e ∈ r.queue, s.freeSlot (seatBus e.seat) = none) :
    (s.joinQueue n c).promote a = s.joinQueue n c := by
  obtain ⟨-, rooms, -⟩ := joinQueue_eq (c := c) ha hr off
  have room := (rooms a).trans (if_pos rfl)
  rcases stays with no | ⟨full, others⟩
  · refine promote_of_not_promotes room ((joinQueue_promotes ha hr off mic).trans no)
  · rw [promote_of_room room]
    refine promoteRun_of_no_candidate room (candidate_of_full fun e he => ?_) _
    rw [joinQueue_freeSlot off]
    rcases List.mem_append.1 he with old | new
    · exact others e old
    · rw [List.mem_singleton.1 new]
      exact full

omit ha hr in
/-- The one entry of a queue is its candidate, where its bus has a free slot. -/
theorem joinQueue_candidate (nobody : r.queue = []) (inside : (s.seat n).segment ∈ r.segments)
    (free : s.freeSlot (seatBus n) ≠ none) :
    (s.joinQueue n c).candidate { r with queue := r.queue ++ [⟨n, s.floor.stampCount, (s.seat n).segment⟩] } =
      some ⟨n, s.floor.stampCount, (s.seat n).segment⟩ := by
  have only : ∀ e, e ∈ r.queue ++ [⟨n, s.floor.stampCount, (s.seat n).segment⟩] ↔
      e = (⟨n, s.floor.stampCount, (s.seat n).segment⟩ : Entry) := fun e => by
    rw [nobody, List.nil_append, List.mem_singleton]
  obtain ⟨e, he⟩ := candidate_of_free (s := s.joinQueue n c)
    (r := { r with queue := r.queue ++ [⟨n, s.floor.stampCount, (s.seat n).segment⟩] })
    (fun e he => by
      rw [(only e).1 he]
      exact inside)
    ⟨_, (only _).2 rfl, by rwa [joinQueue_freeSlot off]⟩
  rw [he, (only e).1 (candidate_mem he)]

/-- A delegate that joins an empty queue with a free place is promoted at once. -/
theorem joinQueue_promoted (mic : (s.seat n).mic = .idle) (cls : (s.seat n).cls = .delegate) (nobody : r.queue = [])
    (inside : (s.seat n).segment ∈ r.segments) (promotes : s.promotes r = true) (free : s.freeSlot (seatBus n) = some k)
    (count : s.floor.openingCount ≠ Config.allOnes32) : (s.joinQueue n c).promote a =
      (s.joinQueue n c).takeCandidate a ⟨n, s.floor.stampCount, (s.seat n).segment⟩ .promoted := by
  obtain ⟨session, mode, closing, below⟩ := promotes_iff.1 promotes
  obtain ⟨seats, rooms, opening, -⟩ := joinQueue_eq (c := c) ha hr off
  have room := (rooms a).trans (if_pos rfl)
  have anchor : (s.joinQueue n c).seatAnchor n = some a := by
    rw [← ha, seatAnchor, seats, if_pos rfl, (OnFloor.joinQueue off n c).anchorOf]
    rfl
  have jcls : ((s.joinQueue n c).seat n).cls = .delegate := by rw [seats, if_pos rfl, ← cls]; rfl
  have free' : (s.joinQueue n c).freeSlot (seatBus n) ≠ none := by
    rw [joinQueue_freeSlot off, free]
    exact Option.some_ne_none k
  have test : (s.joinQueue n c).openTest n = none := by
    refine (openTest_eq_none_iff (seatRoom_of_room anchor room)).2 ⟨session, ⟨fun _ => ⟨closing, ?_⟩, fun chair => ?_⟩, free', ?_⟩
    · exact (joinQueue_delegateCount ha hr off mic rfl).trans_lt below
    · rw [jcls] at chair
      cases chair
    · rw [opening]
      exact count
  have promotes' := (joinQueue_promotes (c := c) ha hr off mic
    (q := r.queue ++ [⟨n, s.floor.stampCount, (s.seat n).segment⟩])).trans promotes
  rw [promote_of_room room]
  dsimp only
  rw [nobody, List.nil_append, List.length_singleton]
  exact promoteRun_of_candidate room promotes'
    (joinQueue_candidate off nobody inside (by rw [free]; exact Option.some_ne_none k)) test 0

/-- What joining an empty queue and being promoted at once makes of the seat, its room, the counts and the link. -/
theorem joinQueue_promoted_eq (mic : (s.seat n).mic = .idle) (cls : (s.seat n).cls = .delegate) (nobody : r.queue = [])
    (inside : (s.seat n).segment ∈ r.segments) (promotes : s.promotes r = true) (free : s.freeSlot (seatBus n) = some k)
    (count : s.floor.openingCount ≠ Config.allOnes32) :
    (∀ m, ((s.joinQueue n c).promote a).seat m = if m = n then { s.seat n with
      mic := .opening, stamp := none, slot := some k, grant := none, openingNumber := some s.floor.openingCount
      indication := some .speaking } else s.seat m) ∧
    (∀ b, ((s.joinQueue n c).promote a).room b =
      if b = a then some { r with live := r.live ++ [n], rotation := some (s.seat n).segment } else s.room b) ∧
    ((s.joinQueue n c).promote a).floor.openingCount = s.floor.openingCount + 1 ∧
    ((s.joinQueue n c).promote a).floor.liveCount = s.floor.liveCount ∧
    ((s.joinQueue n c).promote a).floor.stampCount = s.floor.stampCount + 1 ∧
    ((s.joinQueue n c).promote a).link =
      (s.link.raise (.micState n (some a) .idle .queued c (s.seat n).muted (s.seat n).slot)).raise
        (.micState n (some a) .queued .opening .promoted (s.seat n).muted (some k)) := by
  have session := (promotes_iff.1 promotes).1
  obtain ⟨seats, rooms, opening, live, stamp, link⟩ := joinQueue_eq (c := c) ha hr off
  have seat := (seats n).trans (if_pos rfl)
  have free' := (joinQueue_freeSlot (n := n) (c := c) off (seatBus n)).trans free
  have anchor : (s.joinQueue n c).seatAnchor n = some a := by
    rw [← ha, seatAnchor, seat, (OnFloor.joinQueue off n c).anchorOf]
    rfl
  obtain ⟨seats', rooms', opening', live', stamp', link'⟩ := takeCandidate_eq (s := s.joinQueue n c)
    (e := ⟨n, s.floor.stampCount, (s.seat n).segment⟩) (c := .promoted) anchor ((rooms a).trans (if_pos rfl)) session
  rw [joinQueue_promoted ha hr off mic cls nobody inside promotes free count]
  refine ⟨fun m => ?_, fun b => ?_, opening'.trans (congrArg (· + 1) opening), live'.trans live, stamp'.trans stamp, ?_⟩
  · rw [seats' m]
    dsimp only
    rw [openedSeat, seat, free', opening]
    split
    · rfl
    · exact (seats m).trans (if_neg ‹_›)
  · rw [rooms' b]
    dsimp only
    rw [openedRoom, seat, rooms b]
    split
    · rw [if_pos (show (State.queuedSeat s n).mic = .queued from rfl), nobody, List.nil_append, List.filter_cons_of_neg (by simp), List.filter_nil]
    · rfl
  · rw [link', link]
    dsimp only
    rw [seat, free']
    rfl

end

end

end

/-! ## The state after a press -/

section
variable {s t : State} {n m a b i k opening live stamp : Nat} {r : Room} {x : Exchange} {v : UnitRecord} {l : LinkUnit} {c : MicCause}

/-- The whole state after an answer has brought work of the floor, and its unit has been checked. -/
theorem OnFloor.checked (h : (s.heardAs i x v).OnFloor t) (ho : t.floor.openingCount = opening) (hv : t.floor.liveCount = live)
    (hs : t.floor.stampCount = stamp) (hl : t.link = l) : t.check i k = { s with
      hall := { s.hall with rooms := (t.check i k).hall.rooms }
      floor := { s.floor with seats := (t.check i k).floor.seats, openingCount := opening, liveCount := live, stampCount := stamp }
      buses := (t.check i k).buses
      link := l } :=
  (h.trans (.check i k)).eq_with (by rw [check_floor, ho]) (by rw [check_floor, hv]) (by rw [check_floor, hs])
    (by rw [check_link, hl])

/-- The same where the room table is as it was. -/
theorem OnFloor.checked_of_hall (h : (s.heardAs i x v).OnFloor t) (hall : t.hall = s.hall) (ho : t.floor.openingCount = opening)
    (hv : t.floor.liveCount = live) (hs : t.floor.stampCount = stamp) (hl : t.link = l) : t.check i k = { s with
      floor := { s.floor with seats := (t.check i k).floor.seats, openingCount := opening, liveCount := live, stampCount := stamp }
      buses := (t.check i k).buses
      link := l } :=
  (h.trans (.check i k)).eq_of_hall (by rw [check_hall, hall]; rfl) (by rw [check_floor, ho]) (by rw [check_floor, hv])
    (by rw [check_floor, hs]) (by rw [check_link, hl])

/-- The state after an answer that has changed the link at most. -/
theorem check_of_link : ({ s.heardAs i x v with link := l } : State).check i k =
    { s with buses := (({ s.heardAs i x v with link := l } : State).check i k).buses, link := l } := by
  conv_lhs => rw [check_eq]
  rfl

end

end State

end Sys2Proof.Machine
end

section
/-! SUPPORT. A delegate's press in session (O25). -/

namespace Sys2Proof.Machine

namespace State

section
variable {s : State} {i n m a b k : Nat} {r : Room} {x : Exchange} {v : UnitRecord} {c : MicCause}

theorem CountersOff.heardAs (h : s.CountersOff) : (s.heardAs i x v).CountersOff := ⟨h.off, h.none, h.open_⟩

/-- A delegate that fails the open test because of its room's limit or because its bus is full. -/
theorem openTest_of_no_place (hr : s.seatRoom n = some r) (cls : (s.seat n).cls = .delegate)
    (no : r.closing = true ∨ r.profile.openLimit ≤ s.delegateCount r ∨ s.freeSlot (seatBus n) = none) : s.openTest n ≠ none := by
  intro passes
  obtain ⟨-, below, free, -⟩ := (openTest_eq_none_iff hr).1 passes
  obtain ⟨closing, count⟩ := below.1 cls
  rcases no with h | h | h
  · rw [closing] at h
    cases h
  · omega
  · exact free h

/-- A delegate in a room that is open and below its limit. -/
theorem openTest_of_delegate (hr : s.seatRoom n = some r) (session : r.session = .inSession) (cls : (s.seat n).cls = .delegate)
    (closing : r.closing = false) (count : s.delegateCount r < r.profile.openLimit) : s.openTest n =
    if s.freeSlot (seatBus n) = none then some .busFull
    else if s.floor.openingCount = Config.allOnes32 then some .atLimit else none :=
  openTest_of_below hr session ⟨fun _ => ⟨closing, count⟩, fun chair => by rw [cls] at chair; cases chair⟩

/-- Promotion does not run in mode CHAIR, in a room closed by priority or at its open limit. -/
theorem promotes_eq_false (h : r.profile.floorMode = .chair ∨ r.closing = true ∨ r.profile.openLimit ≤ s.delegateCount r) :
    s.promotes r = false := by
  rw [Bool.eq_false_iff, Ne, promotes_iff]
  rintro ⟨-, mode, closing, count⟩
  rcases h with h | h | h
  · rw [h] at mode
    rcases mode with mode | ⟨mode, -⟩ <;> cases mode
  · rw [closing] at h
    cases h
  · omega

theorem pressIdleDelegate_of_blocked (blocked : s.blocked n = true) :
    s.pressIdleDelegate n a r = s.refusePress n .blocked :=
  if_pos blocked

/-- What opening makes of an IDLE seat, its room, the counts and the link. -/
theorem enterOpening_of_idle (ha : s.seatAnchor n = some a) (hr : s.room a = some r) (session : r.session = .inSession)
    (mic : (s.seat n).mic = .idle) (slot : s.freeSlot (seatBus n) = some k) :
    (∀ m, (s.enterOpening n c none).seat m = if m = n then { s.seat n with
      mic := .opening, slot := some k, openingNumber := some s.floor.openingCount, grant := none
      indication := some .speaking } else s.seat m) ∧
    (∀ b, (s.enterOpening n c none).room b = if b = a then some { r with live := r.live ++ [n] } else s.room b) ∧
    (s.enterOpening n c none).floor.openingCount = s.floor.openingCount + 1 ∧
    (s.enterOpening n c none).floor.liveCount = s.floor.liveCount ∧
    (s.enterOpening n c none).floor.stampCount = s.floor.stampCount ∧
    (s.enterOpening n c none).link = s.link.raise (.micState n (some a) .idle .opening c (s.seat n).muted (some k)) := by
  have waits : ¬ (s.seat n).mic = .queued := by
    rw [mic]
    decide
  have opened := enterOpening_eq (c := c) (g := none) ha hr session
  rw [openedSeat, openedRoom, if_neg waits, if_neg waits, slot, mic] at opened
  exact opened

end

end State

end Sys2Proof.Machine

open Sys2Proof.Machine

/-- Settles O25. -/
theorem pressesOnADelegate : Obligations.PressesOnADelegate := by
  unfold Obligations.PressesOnADelegate
  intro s bus i n a k x c r awaits poll session cls
  have anchor : (s.heard i x c).seatAnchor n = some a := awaits.seat.map
  have room : (s.heard i x c).room a = some r := awaits.seat.room
  have seatRoom := State.seatRoom_of_room anchor room
  have off : (s.heard i x c).CountersOff := awaits.counters.heardAs
  have heard : s.Heard (((s.heard i x c).micPress n).check i x.address) i x
      { s.unit i x.address with misses := 0, reported := some c } :=
    (State.heard_heardAs.queues (State.Works.micPress n).queues).queues (State.Works.check i x.address).queues
  have pressed := State.micPress_of_not_woken anchor room (.inl (by rw [session]; decide))
  have idle : (s.seat n).mic = .idle → (s.heard i x c).micPress n = (s.heard i x c).pressIdleDelegate n a r := fun mic =>
    pressed.trans (State.handlePress_of_idle_delegate anchor room session cls mic)
  refine ⟨_, awaits.exec_press poll c, heard, fun mic blocked => ?_, fun mic free mode closing count slot opening => ?_,
    fun mic free mode overflow => ⟨fun limit => ?_, fun closing count full => ?_⟩, fun mic free long asks => ?_,
    fun mic free short stamps stays => ?_, fun mic free mode nobody inside stamps closing count slot opening => ?_,
    fun mic may => ?_, fun ignored => ?_, fun mic may nobody => ?_, fun mic => ?_⟩
  · rw [idle mic, State.pressIdleDelegate_of_blocked (s := s.heard i x c) blocked, State.refusePress_of_off off, anchor]
    exact State.check_of_link
  · have test : (s.heard i x c).openTest n = none := by
      refine (State.openTest_of_delegate seatRoom session cls closing count).trans ((if_neg ?_).trans (if_neg opening))
      rw [show (s.heard i x c).freeSlot (seatBus n) = some k from slot]
      exact Option.some_ne_none k
    obtain ⟨seats, rooms, opening, live, stamp, link⟩ :=
      State.enterOpening_of_idle (s := s.heard i x c) (c := .press) anchor room session mic slot
    rw [idle mic, State.pressIdleDelegate_of_open (s := s.heard i x c) free mode test]
    exact ⟨⟨fun m hm => State.check_seat.trans ((seats m).trans (if_neg hm)), fun b hb => State.check_room.trans ((rooms b).trans (if_neg hb))⟩,
      State.check_seat.trans ((seats n).trans (if_pos rfl)), State.check_room.trans ((rooms a).trans (if_pos rfl)),
      (State.OnFloor.enterOpening n .press none).checked opening live stamp link⟩
  · have test : (s.heard i x c).openTest n = some .atLimit := State.openTest_of_limit seatRoom session (.inl ⟨cls, limit⟩)
    rw [idle mic, State.pressIdleDelegate_of_refuse (s := s.heard i x c) free mode overflow test, State.refusePress_of_off off, anchor]
    exact State.check_of_link
  · have test : (s.heard i x c).openTest n = some .busFull :=
      (State.openTest_of_delegate seatRoom session cls closing count).trans (if_pos full)
    rw [idle mic, State.pressIdleDelegate_of_refuse (s := s.heard i x c) free mode overflow test, State.refusePress_of_off off, anchor]
    exact State.check_of_link
  · have full : (s.heard i x c).queueFull r = true := State.queueFull_iff.2 (.inl long)
    rw [idle mic, State.pressIdleDelegate_of_ask (s := s.heard i x c) free (asks.imp_right fun ⟨overflow, no⟩ =>
      ⟨overflow, State.openTest_of_no_place seatRoom cls no⟩), State.ask, if_pos full, State.refusePress_of_off off, anchor]
    exact State.check_of_link
  · have notFull : ¬ (s.heard i x c).queueFull r = true := fun full => by
      rcases State.queueFull_iff.1 full with h | h
      · omega
      · exact stamps h
    have asks : r.profile.floorMode ≠ .openFloor ∨ r.profile.overflow = .queue ∧ (s.heard i x c).openTest n ≠ none := by
      rcases stays with chair | ⟨request | ⟨-, overflow⟩, no⟩
      · exact .inl (by rw [chair]; decide)
      · exact .inl (by rw [request]; decide)
      · exact .inr ⟨overflow, State.openTest_of_no_place seatRoom cls (no.imp_right (.imp_right And.left))⟩
    have stays' : (s.heard i x c).promotes r = false ∨ (s.heard i x c).freeSlot (seatBus n) = none ∧
        ∀ e ∈ r.queue, (s.heard i x c).freeSlot (seatBus e.seat) = none := by
      rcases stays with chair | ⟨-, closing | limit | full⟩
      · exact .inl (State.promotes_eq_false (.inl chair))
      · exact .inl (State.promotes_eq_false (.inr (.inl closing)))
      · exact .inl (State.promotes_eq_false (.inr (.inr limit)))
      · exact .inr full
    obtain ⟨seats, rooms, opening, live, stamp, link⟩ := State.joinQueue_eq (s := s.heard i x c) (c := .press) anchor room off
    rw [idle mic, State.pressIdleDelegate_of_ask (s := s.heard i x c) free asks, State.ask, if_neg notFull,
      State.joinQueue_promote_stays anchor room off mic stays']
    refine ⟨⟨fun m hm => State.check_seat.trans ((seats m).trans (if_neg hm)), fun b hb => State.check_room.trans ((rooms b).trans (if_neg hb))⟩,
      State.check_seat.trans ((seats n).trans ((if_pos rfl).trans ?_)), State.check_room.trans ((rooms a).trans (if_pos rfl)),
      (State.OnFloor.joinQueue off n .press).checked opening live stamp link⟩
    rw [session]
    rfl
  · have notFull : ¬ (s.heard i x c).queueFull r = true := fun full => by
      rcases State.queueFull_iff.1 full with h | h
      · rw [nobody] at h
        exact absurd h (by decide)
      · exact stamps h
    have promotes : (s.heard i x c).promotes r = true := State.promotes_iff.2 ⟨session, .inl mode, closing, count⟩
    obtain ⟨seats, rooms, opening, live, stamp, link⟩ := State.joinQueue_promoted_eq (s := s.heard i x c) (c := .press)
      anchor room off mic cls nobody inside promotes slot opening
    rw [idle mic, State.pressIdleDelegate_of_ask (s := s.heard i x c) free (.inl (by rw [mode]; decide)), State.ask, if_neg notFull]
    exact ⟨⟨fun m hm => State.check_seat.trans ((seats m).trans (if_neg hm)), fun b hb => State.check_room.trans ((rooms b).trans (if_neg hb))⟩,
      State.check_seat.trans ((seats n).trans (if_pos rfl)), State.check_room.trans ((rooms a).trans (if_pos rfl)),
      ((State.OnFloor.joinQueue off n .press).trans (.promote a)).checked opening live stamp link⟩
  · obtain ⟨seats, rooms, opening, live, stamp, link⟩ := State.withdraw_eq (s := s.heard i x c) (c := .press) anchor room
    rw [pressed, State.handlePress_of_queued anchor room session cls mic, if_pos may]
    refine ⟨⟨fun m hm => State.check_seat.trans ((seats m).trans (if_neg hm)), fun b hb => State.check_room.trans ((rooms b).trans (if_neg hb))⟩,
      ?_, State.check_room.trans ((rooms a).trans (if_pos rfl)),
      (State.OnFloor.withdraw n .press).checked opening live stamp link⟩
    rw [State.check_seat, seats, if_pos rfl]
    rfl
  · have nothing : (s.heard i x c).handlePress n = s.heard i x c := by
      rcases ignored with ⟨mic, may⟩ | ⟨mic, may⟩
      · exact (State.handlePress_of_queued anchor room session cls mic).trans (if_neg (Bool.eq_false_iff.1 may))
      · exact (State.handlePress_of_onFloor anchor room session cls mic).trans (if_neg (Bool.eq_false_iff.1 may))
    rw [pressed, nothing]
    exact State.check_of_link
  · have stays := State.promote_of_no_queue (s := (s.heard i x c).enterClosing n .press) (State.enterClosing_room.trans room) nobody
    rw [pressed, State.handlePress_of_onFloor anchor room session cls mic, if_pos may, stays]
    refine ⟨⟨fun m hm => ?_, fun b hb => ?_⟩, ?_, (State.OnFloor.enterClosing n .press).checked_of_hall State.enterClosing_hall
      State.enterClosing_openingCount State.enterClosing_liveCount State.enterClosing_stampCount ?_⟩
    · rw [State.check_seat, State.enterClosing_seat, if_neg hm]
      rfl
    · rw [State.check_room, State.enterClosing_room]
      rfl
    · rw [State.check_seat, State.enterClosing_seat, if_pos rfl]
      rfl
    · rw [State.enterClosing_link, anchor]
      rfl
  · rw [pressed, State.handlePress_of_pending (s := s.heard i x c) mic]
    refine ⟨⟨fun m hm => ?_, fun b hb => State.check_room⟩, ?_,
      (State.OnFloor.setSeat n _).checked_of_hall rfl rfl rfl rfl rfl⟩
    · rw [State.check_seat, State.togglePending, State.setSeat_seat, if_neg hm]
      rfl
    · rw [State.check_seat, State.togglePending, State.setSeat_seat_same]
      rfl

end

section
/-! SUPPORT. Free slots; and the work that leaves room contexts and all of a seat but its indication: channels, booths, consoles. -/

namespace Sys2Proof.Machine

/-! ## Numbers that a table lists -/

theorem mem_tkeys_iff {α : Type} [DecidableEq α] {d : α} {tb : Table α} (canonical : twf d tb = true) {p : Nat → α → Bool}
    (hd : ∀ k, p k d = false) (k : Nat) : k ∈ tkeys p tb ↔ p k (tget d tb k) = true := by
  constructor
  · intro listed
    obtain ⟨v, hv, meets⟩ := Kept.mem_tkeys listed
    rw [Kept.tget_of_mem canonical hv]
    exact meets
  · intro meets
    have other : tget d tb k ≠ d := fun e => by
      rw [e, hd] at meets
      cases meets
    exact List.mem_map.2 ⟨(k, tget d tb k), List.mem_filter.2 ⟨Kept.mem_of_tget other rfl, meets⟩, rfl⟩

theorem twf_pairwise {α : Type} [DecidableEq α] {d : α} {tb : Table α} (canonical : twf d tb = true) :
    tb.Pairwise (fun x y => x.1 < y.1) := by
  induction tb with
  | nil => exact .nil
  | cons x r ih =>
    obtain ⟨j, w⟩ := x
    simp only [twf, Bool.and_eq_true, decide_eq_true_eq, List.all_eq_true] at canonical
    exact .cons canonical.1.2 (ih canonical.2)

/-- The numbers that a canonical table lists ascend. -/
theorem tkeys_pairwise {α : Type} [DecidableEq α] {d : α} {tb : Table α} (canonical : twf d tb = true) (p : Nat → α → Bool) :
    (tkeys p tb).Pairwise (· < ·) :=
  List.pairwise_map.2 ((twf_pairwise canonical).filter _)

namespace State

/-! ## Work that shows at most -/

section
variable {s t u : State} {n m a b c : Nat} {r : Room}

/-- From `s` to `t` no room context, count or group changes, and of seats nothing but their indications. -/
structure Shown (s t : State) : Prop where
  hall : t.hall = s.hall
  floor : t.floor = { s.floor with seats := t.floor.seats }
  seats : ∀ m, t.seat m = { s.seat m with indication := (t.seat m).indication }
  counts : t.counts = s.counts

namespace Shown

theorem refl (s : State) : s.Shown s := ⟨rfl, rfl, fun _ => rfl, rfl⟩

theorem trans (h : s.Shown t) (k : t.Shown u) : s.Shown u where
  hall := k.hall.trans h.hall
  floor := by rw [k.floor, h.floor]
  seats m := by rw [k.seats, h.seats]
  counts := k.counts.trans h.counts

theorem fold {α : Type} {f : State → α → State} (hf : ∀ (v : State) x, v.Shown (f v x)) (xs : List α) (s : State) :
    s.Shown (xs.foldl f s) := by
  induction xs generalizing s with
  | nil => exact refl s
  | cons x xs ih => exact (hf s x).trans (ih _)

theorem of_same (hh : t.hall = s.hall) (hf : t.floor = s.floor) (hc : t.counts = s.counts) : s.Shown t where
  hall := hh
  floor := by rw [hf]
  seats m := by
    unfold State.seat
    rw [hf]
  counts := hc

theorem room (h : s.Shown t) (a : Nat) : t.room a = s.room a := by
  unfold State.room
  rw [h.hall]

theorem anchorOf (h : s.Shown t) (k : Nat) : t.anchorOf k = s.anchorOf k := by
  unfold State.anchorOf
  rw [h.hall]

theorem mic (h : s.Shown t) (m : Nat) : (t.seat m).mic = (s.seat m).mic := by rw [h.seats]

theorem slot (h : s.Shown t) (m : Nat) : (t.seat m).slot = (s.seat m).slot := by rw [h.seats]

theorem seatAnchor (h : s.Shown t) (m : Nat) : t.seatAnchor m = s.seatAnchor m := by
  unfold State.seatAnchor
  rw [h.seats, h.anchorOf]

theorem countersOff (h : s.Shown t) (off : s.CountersOff) : t.CountersOff where
  off d hd := by
    unfold State.counter
    rw [h.counts]
    exact off.off d hd
  none := by rw [h.counts, off.none]
  open_ := by rw [h.counts, off.open_]

theorem note (x : Notice) : s.Shown (s.note x) := of_same rfl rfl rfl
theorem noteConsole (c : Nat) (old : ConsoleState) (k : BoothCause) (x : Option Nat) : s.Shown (s.noteConsole c old k x) := note _
theorem setConsole (c : Nat) (x : Console) : s.Shown (s.setConsole c x) := of_same rfl rfl rfl
theorem setBooth (b : Nat) (x : Booth) : s.Shown (s.setBooth b x) := of_same rfl rfl rfl
theorem setSlot (k : Nat) (x : Option Key) : s.Shown (s.setSlot k x) := of_same rfl rfl rfl
theorem setUnserved (ks : List Key) : s.Shown (s.setUnserved ks) := of_same rfl rfl rfl

theorem join (i : Nat) (it : Item) : s.Shown (s.join i it) := by
  rw [join_eq]
  exact of_same rfl rfl rfl

theorem check (i a : Nat) : s.Shown (s.check i a) := by
  unfold State.check
  split
  · exact join i _
  · exact refl s

theorem queueMaps (ks : List Nat) : s.Shown (s.queueMaps ks) := fold (fun _ _ => fold (fun _ _ => join _ _) _ _) _ _

theorem queueRoomMaps (a : Nat) : s.Shown (s.queueRoomMaps a) := by
  unfold State.queueRoomMaps
  split
  · exact refl s
  · exact queueMaps _

theorem reseat (n : Nat) : s.Shown (s.reseat n) where
  hall := reseat_hall
  floor := by
    rw [reseat_floor]
    rfl
  seats m := by
    rw [reseat_seat]
    split
    · subst_vars
      rfl
    · rfl
  counts := (OnFloor.reseat n).counts

theorem reform (n : Nat) : s.Shown (s.reform n) := by
  unfold State.reform
  split
  · exact refl s
  · exact reseat n

theorem reformAll (ns : List Nat) : s.Shown (s.reformAll ns) := fold (fun _ n => reform n) ns s

theorem makeChannel (key : Key) : s.Shown (s.makeChannel key) := by
  unfold State.makeChannel
  split
  · exact refl s
  · split
    · exact (setSlot _ _).trans (queueRoomMaps _)
    · exact ((setUnserved _).trans (note _)).trans (queueRoomMaps _)

theorem makeChannels (ks : List Key) : s.Shown (s.makeChannels ks) := fold (fun _ key => makeChannel key) _ _

theorem giveSlot (k : Nat) : s.Shown (s.giveSlot k) := by
  unfold State.giveSlot
  split
  · exact setSlot k none
  · exact (((setSlot k _).trans (setUnserved _)).trans (note _)).trans (queueRoomMaps _)

theorem removeUnserved (key : Key) : s.Shown (s.removeUnserved key) := by
  unfold State.removeUnserved
  split
  · exact refl s
  · exact ((setUnserved _).trans (note _)).trans (queueRoomMaps _)

theorem removeServed (key : Key) : s.Shown (s.removeServed key) := by
  unfold State.removeServed
  split
  · exact refl s
  · exact (queueRoomMaps _).trans (giveSlot _)

theorem removeChannels (ks : List Key) : s.Shown (s.removeChannels ks) :=
  (fold (fun _ key => removeUnserved key) _ _).trans (fold (fun _ key => removeServed key) _ _)

theorem showConsole (c : Nat) : s.Shown (s.showConsole c) := (setConsole c _).trans (check _ _)

theorem reconsole (c : Nat) : s.Shown (s.reconsole c) := by
  unfold State.reconsole
  split
  · exact refl s
  · exact showConsole c

theorem moveConsole (c : Nat) (state : ConsoleState) (owned : Option Key) : s.Shown (s.moveConsole c state owned) :=
  (setConsole c _).trans (showConsole c)

theorem release (c : Nat) (k : BoothCause) (x : Option Nat) : s.Shown (s.release c k x) :=
  (moveConsole c _ _).trans (noteConsole c _ k x)

/-- With no counter enabled an occurrence is counted by nobody. -/
theorem settled (h : s.Shown t) (off : s.CountersOff) (o : Occurrence) : s.Shown (t.raise o).settleCounts := by
  rw [settleCounts_raise (h.countersOff off)]
  exact h

/-- With no counter enabled a listen state that falls back is an occurrence for nobody. -/
theorem relisten (off : s.CountersOff) (b : Nat) : s.Shown (s.relisten b) := by
  unfold State.relisten
  dsimp only
  split
  · exact refl s
  · split
    · exact settled ((setBooth b _).trans (note _)) off _
    · exact (setBooth b _).trans (note _)
    · exact setBooth b _

theorem relistenIn (off : s.CountersOff) (segments : List Nat) : s.Shown (s.relistenIn segments) := by
  have all : ∀ (bs : List Nat) (v : State), v.CountersOff → v.Shown (bs.foldl State.relisten v) := by
    intro bs
    induction bs with
    | nil => exact fun v _ => refl v
    | cons d bs ih => exact fun v hv => (relisten hv d).trans (ih _ ((relisten hv d).countersOff hv))
  exact all _ s off

theorem reconsoleIn (segments : List Nat) : s.Shown (s.reconsoleIn segments) := fold (fun _ c => reconsole c) _ _

theorem boothWork (off : s.CountersOff) (a : Nat) : s.Shown (s.boothWork a) := (relistenIn off _).trans (reconsoleIn _)

end Shown

/-! ## The passage to DORMANT while no counter is enabled (R35) -/

/-- The room context that has passed to DORMANT. -/
def dormantRoom (r : Room) : Room := { r with session := .dormant, wake := Wake.empty, timer := none, rotation := none }

/-- The passage before the pointer is cleared: the session has ended, and the room's channels are gone. -/
def undistributed (s : State) (a : Nat) (r : Room) : State :=
  (((s.setRoom a (some { r with session := .dormant, wake := Wake.empty, timer := none })).note
    (.sessionState a r.session .dormant .lastClosed none none)).removeChannels
      (r.profile.languages.map (fun c => ⟨a, c⟩))).queueMaps r.segments

/-- The room context has passed to DORMANT, and nothing is shown yet. -/
def silenced (s : State) (a : Nat) (r : Room) : State := (s.undistributed a r).setRoom a (some (dormantRoom r))

theorem undistributed_shown :
    (s.setRoom a (some { r with session := .dormant, wake := Wake.empty, timer := none })).Shown (s.undistributed a r) :=
  ((Shown.note _).trans (.removeChannels _)).trans (.queueMaps _)

theorem silenced_room : (s.silenced a r).room b = if b = a then some (dormantRoom r) else s.room b := by
  unfold silenced
  rw [setRoom_room, undistributed_shown.room, setRoom_room]
  split <;> rfl

theorem passToDormant_eq (hr : s.room a = some r) : s.passToDormant a =
    ((s.silenced a r).reformAll ((s.silenced a r).presentIn r.segments)).boothWork a := by
  obtain ⟨v, hv⟩ : ∃ v, v = s.undistributed a r := ⟨_, rfl⟩
  have room : v.room a = some { r with session := .dormant, wake := Wake.empty, timer := none } := by
    rw [hv, undistributed_shown.room, setRoom_room, if_pos rfl]
  have turned : v.modRoom a (fun r => { r with rotation := none }) = s.silenced a r := by
    rw [silenced, ← hv]
    exact modRoom_of_room room _
  rw [← turned, hv]
  unfold passToDormant
  rw [hr]
  dsimp only
  rw [modRoom_of_room hr]
  rfl

/-- What the passage to DORMANT makes of rooms, seats and counters. -/
theorem passToDormant_of_off (off : s.CountersOff) (hr : s.room a = some r) :
    (∀ b, (s.passToDormant a).room b = if b = a then some (dormantRoom r) else s.room b) ∧
      (s.passToDormant a).floor = { s.floor with seats := (s.passToDormant a).floor.seats } ∧
      (∀ m, (s.passToDormant a).seat m = { s.seat m with indication := ((s.passToDormant a).seat m).indication }) ∧
      (s.passToDormant a).counts = s.counts := by
  have counts : (s.silenced a r).counts = s.counts := undistributed_shown.counts
  have floor : (s.silenced a r).floor = { s.floor with seats := (s.silenced a r).floor.seats } := undistributed_shown.floor
  have seat : ∀ m, (s.silenced a r).seat m = { s.seat m with indication := ((s.silenced a r).seat m).indication } :=
    undistributed_shown.seats
  have offS : (s.silenced a r).CountersOff :=
    ⟨fun d hd => by unfold State.counter; rw [counts]; exact off.off d hd, by rw [counts, off.none], by rw [counts, off.open_]⟩
  have shown : (s.silenced a r).Shown (s.passToDormant a) := by
    rw [passToDormant_eq hr]
    exact (Shown.reformAll _).trans (.boothWork ((Shown.reformAll _).countersOff offS) a)
  refine ⟨fun b => by rw [shown.room, silenced_room], by rw [shown.floor, floor], fun m => ?_, shown.counts.trans counts⟩
  rw [shown.seats, seat]

end

end State

end Sys2Proof.Machine
end

section
/-! SUPPORT. The ACK of CLOSE of a seat; and a state in which the slot that it returns is promoted to twice, which refutes O24. -/

namespace Sys2Proof.Machine

namespace State

section
variable {s t : State} {n m a b i k w : Nat} {r q : Room} {e : Entry} {c : MicCause}

/-! ## The seat's own part (R94) -/

/-- The seat that has returned its slot. -/
def heldOffSeat (x : Seat) : Seat :=
  { x with mic := .holdOff, slot := none, openingNumber := none, holdOff := some 0, holdOffDue := false }

/-- The room without the seat on its live list. -/
def offList (n : Nat) (r : Room) : Room := { r with live := r.live.filter (fun m => decide (m ≠ n)) }

/-- A seat in CLOSING has returned its slot and left its room's live list, and this has been reported and shown. -/
def slotReturned (s : State) (n : Nat) : State :=
  (((s.setSeat n (heldOffSeat (s.seat n))).modSeatRoom n (offList n)).noteMic n .closing .closed).reseat n

theorem seatClosed_of_closing (off : s.CountersOff) (mic : (s.seat n).mic = .closing) :
    s.seatClosed n = ((s.slotReturned n).passSeatRoom n).promoteAfterSlot n := by
  have onFloor : s.OnFloor (s.slotReturned n) :=
    (((OnFloor.setSeat n _).trans (.modSeatRoom n _)).trans (.noteMic n _ _)).trans (.reseat n)
  have settled : ((s.slotReturned n).raiseSeat .micClosed n).settleCounts = s.slotReturned n :=
    settleCounts_raise (onFloor.countersOff off)
  unfold seatClosed
  dsimp only
  rw [if_pos mic]
  exact congrArg (fun v => (State.passSeatRoom v n).promoteAfterSlot n) settled

theorem OnFloor.slotReturned : s.OnFloor (s.slotReturned n) :=
  (((OnFloor.setSeat n _).trans (.modSeatRoom n _)).trans (.noteMic n _ _)).trans (.reseat n)

section
variable (ha : s.seatAnchor n = some a) (hr : s.room a = some r)
include ha hr

theorem slotReturned_eq :
    (∀ m, (s.slotReturned n).seat m = if m = n then { heldOffSeat (s.seat n) with
      indication := ((s.slotReturned n).seat n).indication } else s.seat m) ∧
    (∀ b, (s.slotReturned n).room b = if b = a then some (offList n r) else s.room b) ∧
    (s.slotReturned n).floor = { s.floor with seats := (s.slotReturned n).floor.seats } := by
  obtain ⟨z, hz⟩ : ∃ z, z = (s.setSeat n (heldOffSeat (s.seat n))).setRoom a (some (offList n r)) := ⟨_, rfl⟩
  have anchor : (s.setSeat n (heldOffSeat (s.seat n))).seatAnchor n = some a := by
    rw [seatAnchor, setSeat_seat_same]
    exact ha
  have returned : s.slotReturned n = (z.noteMic n .closing .closed).reseat n := by
    rw [slotReturned, modSeatRoom_of_room (s := s.setSeat n (heldOffSeat (s.seat n))) anchor hr, hz]
  have zseat : ∀ m, z.seat m = if m = n then heldOffSeat (s.seat n) else s.seat m := fun m => by
    rw [hz]
    exact setSeat_seat ..
  rw [returned]
  refine ⟨fun m => ?_, fun b => ?_, ?_⟩
  · rw [reseat_seat, reseat_seat, if_pos rfl]
    split
    · rw [show (z.noteMic n .closing .closed).seat n = heldOffSeat (s.seat n) from (zseat n).trans (if_pos rfl)]
    · exact (zseat m).trans (if_neg ‹_›)
  · rw [reseat_room, hz]
    exact setRoom_room ..
  · rw [reseat_floor, hz]
    rfl

end

/-! ## The room's passage (R35, R94) -/

/-- The room that has passed to DORMANT if it is ENDING and nobody is left on its live list. -/
def passedRoom (r : Room) : Room := if r.session = .ending ∧ r.live = [] then dormantRoom r else r

theorem passSeatRoom_of_off (off : s.CountersOff) (ha : s.seatAnchor n = some a) (hr : s.room a = some r) :
    (∀ b, (s.passSeatRoom n).room b = if b = a then some (passedRoom r) else s.room b) ∧
      (s.passSeatRoom n).floor = { s.floor with seats := (s.passSeatRoom n).floor.seats } ∧
      (∀ m, (s.passSeatRoom n).seat m = { s.seat m with indication := ((s.passSeatRoom n).seat m).indication }) ∧
      (s.passSeatRoom n).counts = s.counts := by
  have passes : s.passSeatRoom n = if r.session = .ending ∧ r.live = [] then s.passToDormant a else s := by
    unfold passSeatRoom passIfEmpty
    rw [ha]
    dsimp only
    rw [hr]
    dsimp only
    simp only [Bool.and_eq_true, decide_eq_true_eq]
  rw [passes, passedRoom]
  split
  · exact passToDormant_of_off off hr
  · refine ⟨fun b => ?_, rfl, fun _ => rfl, rfl⟩
    split
    · subst_vars
      exact hr
    · rfl

theorem passedRoom_queue : (passedRoom r).queue = r.queue := by
  unfold passedRoom
  split <;> rfl

theorem passedRoom_live : (passedRoom r).live = r.live := by
  unfold passedRoom
  split <;> rfl

theorem passedRoom_session : (passedRoom r).session = if r.session = .ending ∧ r.live = [] then .dormant else r.session := by
  unfold passedRoom
  split <;> rfl

/-! ## Where nobody waits -/

theorem promoteAfterSlot_of_no_queues (nobody : ∀ b q, s.room b = some q → q.queue = []) : s.promoteAfterSlot n = s := by
  have promote : ∀ b, s.promote b = s := fun b => by
    cases hb : s.room b with
    | none =>
      unfold State.promote
      rw [hb]
    | some q => exact promote_of_no_queue hb (nobody b q hb)
  have seat : s.promoteSeat n = s := by
    unfold promoteSeat
    split
    · rfl
    · exact promote _
  unfold promoteAfterSlot
  rw [seat]
  exact foldl_of_fixed _ _ fun b _ => promote b

end

end State

/-! ## A state that refutes O24 -/

/-- A seat that holds slot `k` of its bus. -/
def holdingSeat (mic : Mic) (k : Nat) : Seat := { Seat.initial with installed := true, mic := mic, slot := some k }

/-- A room in mode REQUEST in which seats 2 and 3 wait. -/
def holdersRoom : Room :=
  { anchor := 1, segments := [1], session := .inSession, profile := Profile.defaults, ceiling := 0, level := 0, ramp := .settled
    wake := Wake.empty, timer := none, live := [1], queue := [⟨2, 0, 1⟩, ⟨3, 1, 1⟩], rotation := none, priority := false
    settleDue := false }

/-- Twelve seats hold the slots of D0. Seat 1 is CLOSING and its CLOSE awaits the ACK; seats 2 and 3 wait in the queue although each
holds a slot, which no hypothesis of O24 excludes. -/
def waitingHolders : State := { State.reset with
  hall := { State.reset.hall with rooms := [(1, some holdersRoom)], segmentMap := [(1, some 1)] }
  floor := { State.reset.floor with
    seats := (1, holdingSeat .closing 0) :: (2, holdingSeat .queued 1) :: (3, holdingSeat .queued 2) ::
      [4, 5, 6, 7, 8, 9, 10, 11, 12].map (fun n => (n, holdingSeat .idle (n - 1)))
    stampCount := 2 }
  buses := [(0, { Bus.initial with
    units := [(1, { UnitRecord.initial with presence := .present, assigned := true })]
    exchange := some ⟨1, .close, true⟩ })]
  link := { State.reset.link with phase := .run } }

theorem waitingHolders_nothingDue : waitingHolders.NothingDue where
  ramps := by decide +kernel
  switch := rfl
  receiver := rfl
  inputs := by decide +kernel
  restart := rfl
  timers := by decide +kernel
  seats := by decide +kernel
  counters := rfl
  stopping := .inl rfl

theorem waitingHolders_awaits : waitingHolders.AwaitsSeat .d0 0 1 1 ⟨1, .close, true⟩ holdersRoom where
  index := rfl
  up := rfl
  due := waitingHolders_nothingDue
  awaited := by decide +kernel
  small := by decide
  number := rfl
  present := by decide +kernel
  seat := ⟨by decide, by decide +kernel, by decide +kernel, by decide +kernel, rfl⟩
  counters := ⟨by decide +kernel, rfl, rfl⟩

theorem waitingHolders_room {b : Nat} {q : Room} (h : waitingHolders.room b = some q) : b = 1 ∧ q = holdersRoom := by
  have only : waitingHolders.room b = if 1 = b then some holdersRoom else none := rfl
  rw [only] at h
  split at h
  · exact ⟨Eq.symm ‹_›, (Option.some.inj h).symm⟩
  · cases h

theorem mem_holdersRoom_queue {e : Entry} (h : e ∈ holdersRoom.queue) : e = ⟨2, 0, 1⟩ ∨ e = ⟨3, 1, 1⟩ := by
  simpa [holdersRoom] using h

theorem waitingHolders_entriesRight : waitingHolders.EntriesRight := by
  intro b q hq e he
  obtain ⟨rfl, rfl⟩ := waitingHolders_room hq
  rcases mem_holdersRoom_queue he with rfl | rfl <;> decide +kernel

/-- Seat `k + 1` holds slot `k`. -/
theorem waitingHolders_slot {n k : Nat} (h : (waitingHolders.seat n).slot = some k) : k + 1 = n ∧ k < 12 := by
  have all : waitingHolders.floor.seats.all (fun x => x.2.slot.all (fun k => decide (k + 1 = x.1 ∧ k < 12))) = true := by
    decide +kernel
  have other : waitingHolders.seat n ≠ Seat.initial := fun e => by
    rw [e] at h
    cases h
  have here := List.all_eq_true.1 all _ (Kept.mem_of_tget other rfl)
  rw [h] at here
  exact of_decide_eq_true here

theorem waitingHolders_slotsOk : waitingHolders.slotsOk := by
  refine ⟨by decide +kernel, fun n k h => (waitingHolders_slot h).2, fun n m k different _ h h' => different ?_⟩
  rw [← (waitingHolders_slot h).1, (waitingHolders_slot h').1]

/-- The slot that seat 1 returns goes to seat 2, and the slot that seat 2 held before then goes to seat 3. -/
theorem waitingHolders_both_open {t : State} (h : exec (.unitReplyAck .d0 .ofClose 0 false .delegate) waitingHolders = .next t) :
    (t.seat 3).mic = .opening ∧ (t.seat 3).slot = some 1 := by
  have run : t = waitingHolders.upToDate (fun v => v.hear 0 (some .ofClose) 0 false .delegate) := (Host.Outcome.next.inj h).symm
  rw [run]
  decide +kernel

end Sys2Proof.Machine

open Sys2Proof.Machine

/-- Refutes O24: QUEUED seats that hold a slot (its third part does not say that they hold none) free it when they are promoted, so
that one slot that comes back opens two of them. -/
theorem not_promotionTakesCandidateAfterCandidate : ¬ Obligations.PromotionTakesCandidateAfterCandidate := by
  unfold Obligations.PromotionTakesCandidateAfterCandidate
  rintro ⟨-, -, returned⟩
  obtain ⟨t, run, -, -, -, given⟩ := returned waitingHolders .d0 0 1 1 0 ⟨1, .close, true⟩ .delegate holdersRoom _
    waitingHolders_awaits rfl (by decide +kernel) (by decide +kernel) (by decide +kernel)
    waitingHolders_slotsOk waitingHolders_entriesRight (by decide +kernel) (by decide +kernel)
    (fun b q hq e he => by
      obtain ⟨rfl, rfl⟩ := waitingHolders_room hq
      rcases mem_holdersRoom_queue he with rfl | rfl <;> decide +kernel) (fun _ => Iff.rfl)
  obtain ⟨opens, slot⟩ := waitingHolders_both_open run
  obtain ⟨q, e, room, listed, -, slot', others⟩ := given 1
    ⟨holdersRoom, by decide +kernel, by decide, rfl, .inl rfl, by decide, by decide +kernel⟩ (fun other => absurd rfl other)
  obtain ⟨-, rfl⟩ := waitingHolders_room room
  rcases mem_holdersRoom_queue listed with rfl | rfl
  · have waits := others 1 holdersRoom (by decide +kernel) ⟨3, 1, 1⟩ (by decide) (by decide)
    rw [opens] at waits
    cases waits
  · rw [slot] at slot'
    cases slot'

end

section
/-! SUPPORT. Consoles and booths: what moves a console, what only shows, and who listens to what (O30, O31, O36). -/

namespace Sys2Proof.Machine

namespace State

section
variable {s t u : State} {n m a b c d i : Nat} {r : Room} {key : Key} {cause : BoothCause} {x : Option Nat}

/-! ## Work that only shows consoles -/

/-- From `s` to `t` a console changes nothing but its indication. -/
def OnlyShows (s t : State) : Prop := ∀ d, t.console d = { s.console d with indication := (t.console d).indication }

theorem OnlyShows.refl (s : State) : s.OnlyShows s := fun _ => rfl

theorem OnlyShows.trans (h : s.OnlyShows t) (k : t.OnlyShows u) : s.OnlyShows u := fun d => by rw [k, h]

theorem OnlyShows.fold {α : Type} {f : State → α → State} (hf : ∀ (v : State) x, v.OnlyShows (f v x)) (xs : List α) (s : State) :
    s.OnlyShows (xs.foldl f s) := by
  induction xs generalizing s with
  | nil => exact .refl s
  | cons x xs ih => exact (hf s x).trans (ih _)

theorem OnlyShows.of_consoles (h : t.booth.consoles = s.booth.consoles) : s.OnlyShows t := fun d => by
  unfold console
  rw [h]

theorem OnlyShows.showConsole (c : Nat) : s.OnlyShows (s.showConsole c) := fun d => by
  have shown : (s.showConsole c).console d = (s.setConsole c { s.console c with indication := s.consoleIndication c }).console d := by
    unfold State.showConsole console
    rw [check_booth]
  rw [shown, setConsole_console]
  split
  · subst_vars
    rfl
  · rfl

theorem OnlyShows.reconsole (c : Nat) : s.OnlyShows (s.reconsole c) := by
  unfold State.reconsole
  split
  · exact .refl s
  · exact .showConsole c

theorem relisten_consoles (b : Nat) : (s.relisten b).booth.consoles = s.booth.consoles := by
  unfold relisten
  dsimp only
  split
  · rfl
  · split
    · rw [(Sheds.settleCounts).booth]
      rfl
    · rfl
    · rfl

theorem relistenIn_consoles (segments : List Nat) : (s.relistenIn segments).booth.consoles = s.booth.consoles := by
  unfold relistenIn
  generalize s.boothsIn segments = bs
  induction bs generalizing s with
  | nil => rfl
  | cons b bs ih => exact ih.trans (relisten_consoles b)

theorem OnlyShows.boothWork (a : Nat) : s.OnlyShows (s.boothWork a) :=
  (OnlyShows.of_consoles (relistenIn_consoles _)).trans (.fold (fun _ c => .reconsole c) _ _)

theorem OnlyShows.consoleWork (c : Nat) : s.OnlyShows (s.consoleWork c) := by
  unfold State.consoleWork
  split
  · exact .reconsole c
  · exact .boothWork _

theorem OnlyShows.state (h : s.OnlyShows t) (d : Nat) : (t.console d).state = (s.console d).state := by rw [h]

theorem OnlyShows.owned (h : s.OnlyShows t) (d : Nat) : (t.console d).owned = (s.console d).owned := by rw [h]

/-! ## A console that moves -/

theorem moveConsole_console {state : ConsoleState} {owned : Option Key} : (s.moveConsole c state owned).console d =
    if d = c then { s.console c with state := state, owned := owned, indication := ((s.moveConsole c state owned).console c).indication }
    else s.console d := by
  have written : ∀ e, (s.moveConsole c state owned).console e = { (s.setConsole c { s.console c with state := state, owned := owned }).console e
      with indication := ((s.moveConsole c state owned).console e).indication } :=
    OnlyShows.showConsole (s := s.setConsole c { s.console c with state := state, owned := owned }) c
  have shown : ∀ e, e ≠ c → (s.moveConsole c state owned).console e =
      (s.setConsole c { s.console c with state := state, owned := owned }).console e := fun e he => by
    unfold moveConsole showConsole console
    rw [check_booth]
    show (State.console (State.setConsole _ c _) e) = _
    rw [setConsole_console, if_neg he]
    rfl
  split
  · subst_vars
    rw [written, setConsole_console_same]
  · rw [shown d ‹_›, setConsole_console, if_neg ‹_›]

theorem release_console : (s.release c cause x).console d =
    if d = c then { s.console c with state := .releasing, owned := none, indication := ((s.release c cause x).console c).indication }
    else s.console d := moveConsole_console

theorem takeChannel_console : (s.takeChannel c key).console d =
    if d = c then { s.console c with state := .cueing, owned := some key, indication := ((s.takeChannel c key).console c).indication }
    else s.console d := moveConsole_console

/-- A console has moved, and after it everything was only shown. -/
theorem OnlyConsole.of_moved (moved : ∀ d, d ≠ c → t.console d = s.console d) (shows : t.OnlyShows u) (works : s.Works u) :
    s.OnlyConsole u c :=
  ⟨fun d hd => by rw [shows d, moved d hd], works.booths⟩

theorem OnlyConsole.of_shows (shows : s.OnlyShows u) (works : s.Works u) : s.OnlyConsole u c := ⟨fun d _ => shows d, works.booths⟩

/-! ## Frames of console work -/

theorem relisten_dist (b : Nat) : (s.relisten b).dist = s.dist := by
  unfold relisten
  dsimp only
  split
  · rfl
  · split
    · rw [(Sheds.settleCounts).dist]
      rfl
    · rfl
    · rfl

theorem reconsole_dist (c : Nat) : (s.reconsole c).dist = s.dist := by
  unfold reconsole showConsole
  split
  · rfl
  · rw [check_dist]
    rfl

theorem foldl_dist {α : Type} {f : State → α → State} (hf : ∀ (v : State) x, (f v x).dist = v.dist) (xs : List α) (s : State) :
    (xs.foldl f s).dist = s.dist := by
  induction xs generalizing s with
  | nil => rfl
  | cons x xs ih => exact (ih _).trans (hf s x)

theorem boothWork_dist (a : Nat) : (s.boothWork a).dist = s.dist :=
  (foldl_dist (fun _ c => reconsole_dist c) _ _).trans (foldl_dist (fun _ b => relisten_dist b) _ _)

/-- Work that leaves rooms and counters, shows seats and consoles at most and leaves the channels changes booths, buses and link. -/
structure OnBooths (s t : State) : Prop where
  works : s.Works t
  shown : s.Shown t
  seats : t.floor = s.floor
  dist : t.dist = s.dist

namespace OnBooths

theorem refl (s : State) : s.OnBooths s := ⟨.refl s, .refl s, rfl, rfl⟩

theorem trans (h : s.OnBooths t) (k : t.OnBooths u) : s.OnBooths u :=
  ⟨h.works.trans k.works, h.shown.trans k.shown, k.seats.trans h.seats, k.dist.trans h.dist⟩

/-- The whole state after work of the booth unit. -/
theorem eq (h : s.OnBooths t) : t = { s with booth := t.booth, buses := t.buses, link := t.link } := by
  have pending := h.works.pending
  have resetLow := h.works.resetLow
  have hall := h.shown.hall
  have floor := h.seats
  have dist := h.dist
  have mix := h.works.mix
  have counts := h.shown.counts
  cases s
  cases t
  subst pending resetLow hall floor dist mix counts
  rfl

theorem fold {α : Type} {f : State → α → State} (hf : ∀ (v : State) x, v.OnBooths (f v x)) (xs : List α) (s : State) :
    s.OnBooths (xs.foldl f s) := by
  induction xs generalizing s with
  | nil => exact refl s
  | cons x xs ih => exact (hf s x).trans (ih _)

theorem note (x : Notice) : s.OnBooths (s.note x) := ⟨.note x, .note x, rfl, rfl⟩

theorem noteConsole (c : Nat) (old : ConsoleState) (k : BoothCause) (x : Option Nat) : s.OnBooths (s.noteConsole c old k x) := note _

theorem setConsole (c : Nat) (x : Console) : s.OnBooths (s.setConsole c x) := ⟨.setConsole c x, .setConsole c x, rfl, rfl⟩

theorem check (i a : Nat) : s.OnBooths (s.check i a) := ⟨.check i a, .check i a, check_floor _ _, check_dist⟩

theorem showConsole (c : Nat) : s.OnBooths (s.showConsole c) := (setConsole c _).trans (check _ _)

theorem reconsole (c : Nat) : s.OnBooths (s.reconsole c) := by
  unfold State.reconsole
  split
  · exact refl s
  · exact showConsole c

theorem moveConsole (c : Nat) (state : ConsoleState) (owned : Option Key) : s.OnBooths (s.moveConsole c state owned) :=
  (setConsole c _).trans (showConsole c)

theorem release (c : Nat) (k : BoothCause) (x : Option Nat) : s.OnBooths (s.release c k x) :=
  (moveConsole c _ _).trans (noteConsole c _ k x)

theorem takeChannel (c : Nat) (key : Key) : s.OnBooths (s.takeChannel c key) := (moveConsole c _ _).trans (noteConsole c _ _ _)

theorem countersOff (h : s.OnBooths t) (off : s.CountersOff) : t.CountersOff := h.shown.countersOff off

theorem setListen (b : Nat) (x : Listen) : s.OnBooths (s.setBooth b { s.boothAt b with listen := x }) :=
  ⟨.setListen b x, .setBooth b _, rfl, rfl⟩

theorem settled (h : s.OnBooths t) (off : s.CountersOff) (o : Occurrence) : s.OnBooths (t.raise o).settleCounts := by
  rw [settleCounts_raise (h.countersOff off)]
  exact h

theorem relisten (off : s.CountersOff) (b : Nat) : s.OnBooths (s.relisten b) := by
  unfold State.relisten
  dsimp only
  split
  · exact refl s
  · split
    · exact settled ((setListen b _).trans (note _)) off _
    · exact (setListen b _).trans (note _)
    · exact setListen b _

theorem relistenIn (off : s.CountersOff) (segments : List Nat) : s.OnBooths (s.relistenIn segments) := by
  have all : ∀ (bs : List Nat) (v : State), v.CountersOff → v.OnBooths (bs.foldl State.relisten v) := by
    intro bs
    induction bs with
    | nil => exact fun v _ => refl v
    | cons d bs ih => exact fun v hv => (relisten hv d).trans (ih _ ((relisten hv d).countersOff hv))
  exact all _ s off

theorem boothWork (off : s.CountersOff) (a : Nat) : s.OnBooths (s.boothWork a) :=
  (relistenIn off _).trans (fold (fun _ c => reconsole c) _ _)

theorem consoleWork (off : s.CountersOff) (c : Nat) : s.OnBooths (s.consoleWork c) := by
  unfold State.consoleWork
  split
  · exact reconsole c
  · exact boothWork off _

end OnBooths

/-! ## Who listens to what (R144, R145) -/

/-- What a booth is to listen to is read from sources, sessions, channels and consoles, and from nothing else. -/
theorem listenOf_congr (hb : ∀ d, t.boothAt d = { s.boothAt d with listen := (t.boothAt d).listen })
    (hm : ∀ k, t.anchorOf k = s.anchorOf k)
    (hr : ∀ a, (t.room a).map (fun r => (r.anchor, r.session)) = (s.room a).map (fun r => (r.anchor, r.session)))
    (hd : t.dist = s.dist) (hc : t.booth.consoles = s.booth.consoles) (b : Nat) : t.listenOf b = s.listenOf b := by
  have source : ∀ d, (t.boothAt d).source = (s.boothAt d).source := fun d => by rw [hb]
  have home : (t.boothAt b).home = (s.boothAt b).home := by rw [hb]
  have channel : ∀ key, t.hasChannel key = s.hasChannel key := fun key => by
    unfold hasChannel service
    rw [hd]
  have owner : ∀ key, t.ownerOf key = s.ownerOf key := fun key => by
    unfold ownerOf
    rw [hc]
  have state : ∀ d, t.console d = s.console d := fun d => by
    unfold console
    rw [hc]
  have room : (t.boothRoom b).map (fun r => (r.anchor, r.session)) = (s.boothRoom b).map (fun r => (r.anchor, r.session)) := by
    unfold boothRoom roomOf
    rw [home, hm]
    cases s.anchorOf (s.boothAt b).home with
    | none => rfl
    | some a => exact hr a
  unfold listenOf
  rw [source]
  cases (s.boothAt b).source with
  | floor => rfl
  | relay code =>
    dsimp only
    cases hs : s.boothRoom b with
    | none =>
      rw [hs] at room
      rw [Option.map_eq_none_iff.1 room]
    | some r =>
      rw [hs] at room
      obtain ⟨q, hq, same⟩ := Option.map_eq_some_iff.1 room
      rw [hq]
      dsimp only
      obtain ⟨anchor, session⟩ := Prod.mk.inj same
      rw [anchor, session, channel, owner]
      cases s.ownerOf ⟨r.anchor, code⟩ with
      | none => rfl
      | some o =>
        dsimp only
        rw [state, source]

theorem relisten_anchorOf (b k : Nat) : (s.relisten b).anchorOf k = s.anchorOf k := (Works.relisten b).anchorOf k

theorem relisten_session (b : Nat) (a : Nat) :
    ((s.relisten b).room a).map (fun r => (r.anchor, r.session)) = (s.room a).map (fun r => (r.anchor, r.session)) := by
  unfold relisten
  dsimp only
  split
  · rfl
  · split
    · generalize hv : State.raiseBooth _ _ _ = v
      have sheds : v.Sheds v.settleCounts := .settleCounts
      have room : v.room a = s.room a := by
        rw [← hv]
        rfl
      cases hr : s.room a with
      | none => rw [sheds.noRoom a (room.trans hr)]
      | some r =>
        obtain ⟨q, hq, -⟩ := sheds.room a r (room.trans hr)
        rw [hq]
        rfl
    · rfl
    · rfl

theorem relisten_listenOf (d b : Nat) : (s.relisten d).listenOf b = s.listenOf b :=
  listenOf_congr (Works.relisten d).booths (relisten_anchorOf d) (relisten_session d) (relisten_dist d) (relisten_consoles d) b

/-- A booth that listens anew listens as it is to, and no other booth changes. -/
theorem relisten_boothAt : (s.relisten b).boothAt d = if d = b then { s.boothAt b with listen := s.listenOf b } else s.boothAt d := by
  unfold relisten
  dsimp only
  split
  · next same =>
    split
    · next here =>
      rw [here, ← same]
    · rfl
  · have written : (s.setBooth b { s.boothAt b with listen := s.listenOf b }).boothAt d =
        if d = b then { s.boothAt b with listen := s.listenOf b } else s.boothAt d := setBooth_boothAt ..
    rw [← written]
    split
    · unfold boothAt
      rw [(Sheds.settleCounts).booth]
      rfl
    · rfl
    · rfl

/-- After a run of listening anew every booth of the run listens as it is to. -/
theorem relisten_foldl_listen (bs : List Nat) (s : State) {b : Nat}
    (h : b ∈ bs ∨ (s.boothAt b).listen = s.listenOf b) :
    ((bs.foldl relisten s).boothAt b).listen = (bs.foldl relisten s).listenOf b := by
  induction bs generalizing s with
  | nil => exact h.resolve_left List.not_mem_nil
  | cons d bs ih =>
    refine ih _ ?_
    by_cases here : b = d
    · right
      rw [relisten_boothAt, if_pos here, relisten_listenOf, here]
    · rcases h with listed | right
      · exact .inl ((List.mem_cons.1 listed).resolve_left here)
      · right
        rw [relisten_boothAt, if_neg here, relisten_listenOf, right]

/-- Where every booth listens as it is to, listening anew changes nothing. -/
theorem relistenIn_of_right (h : s.ListensRight) (segments : List Nat) : s.relistenIn segments = s := by
  refine foldl_of_fixed _ _ fun b _ => ?_
  unfold relisten
  exact if_pos (h b)

theorem reconsole_link (c : Nat) : (s.reconsole c).link = s.link := by
  unfold reconsole showConsole
  split
  · rfl
  · rw [check_link]
    rfl

theorem boothWork_link_of_right (h : s.ListensRight) (a : Nat) : (s.boothWork a).link = s.link := by
  unfold boothWork
  rw [relistenIn_of_right h]
  unfold reconsoleIn
  generalize s.consolesIn (s.segmentsOf a) = cs
  clear h
  induction cs generalizing s with
  | nil => rfl
  | cons c cs ih => exact ih.trans (reconsole_link c)

end

end State

end Sys2Proof.Machine
end

section
/-! SUPPORT. Acknowledgements (O36), and the answers of consoles (O31). -/

namespace Sys2Proof.Machine

namespace State

section
variable {s t : State} {bus : BusId} {i n a c k : Nat} {x : Exchange} {cls : UnitClass} {r : Room} {v : UnitRecord} {held : Bool}

theorem check_console (d : Nat) : (s.check i k).console d = s.console d := by
  unfold console
  rw [check_booth]

/-! ## The ACK of OPEN of a seat (R93) -/

/-- The seat that has gone LIVE. -/
def liveSeat (s : State) (n : Nat) (r : Room) : Seat :=
  { s.seat n with
    mic := .live, liveNumber := some s.floor.liveCount, clock := some { seconds := 0, blocks := 0 }, warned := false
    limitReported := false, muted := decide ((s.seat n).cls = .delegate ∧ r.priority = true ∧ r.profile.action = .muteAll)
    secondDue := false }

theorem seatOpened_of_other (mic : (s.seat n).mic ≠ .opening) : s.seatOpened n = s := if_neg mic

/-- With no counter enabled a seat goes LIVE, and nothing else happens. -/
theorem seatOpened_of_opening (off : s.CountersOff) (hr : s.seatRoom n = some r) (mic : (s.seat n).mic = .opening) :
    s.seatOpened n = s.countLive.moveSeat n (s.liveSeat n r) .opening .opened := by
  have onFloor : s.OnFloor (s.countLive.moveSeat n (s.liveSeat n r) .opening .opened) := OnFloor.countLive.trans .moveSeat
  have settled := settleCounts_raise (o := { event := .micOpened
                                             segment := ((s.countLive.moveSeat n (s.liveSeat n r) .opening .opened).seat n).segment
                                             bus := some (seatBus n), seat := some n }) (onFloor.countersOff off)
  refine Eq.trans ?_ settled
  unfold seatOpened
  dsimp only
  rw [if_pos mic, hr]
  have muted : (decide ((s.seat n).cls = .delegate) && r.priority && decide (r.profile.action = .muteAll)) =
      decide ((s.seat n).cls = .delegate ∧ r.priority = true ∧ r.profile.action = .muteAll) := by
    simp [Bool.and_assoc]
  dsimp only
  rw [muted]
  rfl

/-! ## The answers of a console -/

section
variable (h : s.AwaitsConsole x a r)
include h

theorem AwaitsConsole.exec_press (poll : x.command = .poll) (cls : UnitClass) :
    exec (.unitReplyStatus .b 1 (s.unit 4 x.address).held cls) s =
      .next (((s.heard 4 x cls).onAirPress x.address).check 4 x.address) := by
  rw [h.exec_status, show (1 : BitVec 2).toNat = 1 from rfl, h.answered_poll h.present poll, presses_one_console,
    Works.recordHeld (.onAirPress x.address)]

theorem AwaitsConsole.exec_opened (command : x.command = .open_ k) (cls : UnitClass) :
    exec (.unitReplyAck .b .ofOpen 0 (s.unit 4 x.address).held cls) s =
      .next (((s.heard 4 x cls).consoleOpened x.address).check 4 x.address) := by
  rw [h.exec_ack, show (0 : BitVec 2).toNat = 0 from rfl, h.answered_opened h.present command]
  exact congrArg (fun z => Host.Outcome.next (State.check z 4 x.address)) (Works.recordHeld (.consoleOpened x.address))

theorem AwaitsConsole.exec_closed (command : x.command = .close) (cls : UnitClass) :
    exec (.unitReplyAck .b .ofClose 0 (s.unit 4 x.address).held cls) s =
      .next (((s.heard 4 x cls).consoleClosed x.address).check 4 x.address) := by
  rw [h.exec_ack, show (0 : BitVec 2).toNat = 0 from rfl, h.answered_closed h.present command]
  exact congrArg (fun z => Host.Outcome.next (State.check z 4 x.address)) (Works.recordHeld (.consoleClosed x.address))

theorem AwaitsConsole.exec_held (poll : x.command = .poll) (cls : UnitClass) (change : (s.unit 4 x.address).held ≠ held) :
    exec (.unitReplyStatus .b 0 held cls) s = .next ((((s.heard 4 x cls).setUnit 4 x.address
      { s.unit 4 x.address with misses := 0, reported := some cls, held := held }).coughHeld x.address held).check 4 x.address) := by
  have recorded : (s.heard 4 x cls).recordHeld 4 x.address held = ((s.heard 4 x cls).setUnit 4 x.address
      { s.unit 4 x.address with misses := 0, reported := some cls, held := held }).coughHeld x.address held := by
    rw [recordHeld_of_change (by rwa [heard_held]), heardAs_unit, if_pos ⟨rfl, rfl⟩]
    rfl
  rw [h.exec_status, show (0 : BitVec 2).toNat = 0 from rfl, h.answered_poll h.present poll]
  exact congrArg (fun z => Host.Outcome.next (State.check z 4 x.address)) recorded

end

/-- An answer brings work of the floor or the booths: the exchange is over, and the unit's record says so. -/
theorem Works.heard (h : (s.heardAs i x v).Works t) : s.Heard (t.check i x.address) i x v :=
  (heard_heardAs.queues h.queues).queues (Works.check i x.address).queues

/-- The whole state after an answer has brought work of the booths. -/
theorem OnBooths.checked (h : (s.heardAs i x v).OnBooths t) : t.check i k =
    { s with booth := (t.check i k).booth, buses := (t.check i k).buses, link := (t.check i k).link } :=
  (h.trans (.check i k)).eq

theorem OnlyConsole.heard (h : (s.heardAs i x v).OnlyConsole t c) : s.OnlyConsole (t.check i k) c :=
  ⟨fun d hd => by rw [check_console]; exact h.1 d hd, fun b => by unfold boothAt; rw [check_booth]; exact h.2 b⟩

/-! ## Consoles that are acknowledged (R137) -/

theorem OnBooths.consoleOpened (off : s.CountersOff) (c : Nat) : s.OnBooths (s.consoleOpened c) := by
  unfold State.consoleOpened
  split
  · have moved : s.OnBooths ((s.moveConsole c .onAir (s.console c).owned).noteConsole c .cueing .opened none) :=
      (OnBooths.moveConsole c _ _).trans (.noteConsole c _ _ _)
    exact moved.trans (.consoleWork (moved.countersOff off) c)
  · exact .refl s

theorem OnBooths.consoleClosed (off : s.CountersOff) (c : Nat) : s.OnBooths (s.consoleClosed c) := by
  unfold State.consoleClosed
  split
  · have moved : s.OnBooths ((s.moveConsole c .ready (s.console c).owned).noteConsole c .releasing .closed none) :=
      (OnBooths.moveConsole c _ _).trans (.noteConsole c _ _ _)
    exact moved.trans (.consoleWork (moved.countersOff off) c)
  · exact .refl s

/-- A console that moves, is reported and followed by the booth work of its room. -/
theorem moved_console {state : ConsoleState} {owned : Option Key} {old : ConsoleState} {cause : BoothCause}
    (hz : t = ((s.moveConsole c state owned).noteConsole c old cause none).consoleWork c) :
    (t.console c).state = state ∧ (t.console c).owned = owned ∧ (t.console c).cough = (s.console c).cough ∧ s.OnlyConsole t c := by
  have shows : (s.moveConsole c state owned).OnlyShows t := by
    rw [hz]
    exact (OnlyShows.of_consoles rfl).trans (.consoleWork c)
  have works : s.Works t := by
    rw [hz]
    exact ((Works.moveConsole c _ _).trans (.noteConsole c _ _ _)).trans (.consoleWork c)
  refine ⟨?_, ?_, ?_, .of_moved (fun d hd => moveConsole_console.trans (if_neg hd)) shows works⟩
  · rw [shows, moveConsole_console, if_pos rfl]
  · rw [shows, moveConsole_console, if_pos rfl]
  · rw [shows, moveConsole_console, if_pos rfl]

end

end State

end Sys2Proof.Machine

open Sys2Proof.Machine

/-- Settles O36. -/
theorem acknowledgementsOpenAndClose : Obligations.AcknowledgementsOpenAndClose := by
  unfold Obligations.AcknowledgementsOpenAndClose
  refine ⟨fun s bus i n a k x c r awaits => ⟨fun command => ?_, fun command mic nobody => ?_⟩,
    fun s x cls a c k r awaits hc => ⟨fun command => ?_, fun command state => ?_⟩⟩
  · have exec : exec (.unitReplyAck bus .ofOpen 0 (s.unit i x.address).held c) s =
        .next (((s.heard i x c).seatOpened n).check i x.address) := by
      rw [awaits.exec_ack, show (0 : BitVec 2).toNat = 0 from rfl, awaits.answered_opened awaits.present command]
      refine congrArg (fun z => Host.Outcome.next (State.check z i x.address)) ?_
      rw [State.acknowledge, if_pos awaits.small.1, awaits.seatAt_eq]
      exact State.Works.recordHeld (.seatOpened n)
    refine ⟨_, exec, State.Works.heard (.seatOpened n), fun mic => ?_, fun mic => ?_⟩
    · rw [State.seatOpened_of_other (s := s.heard i x c) mic]
      exact State.check_of_link
    · have seatRoom : (s.heard i x c).seatRoom n = some r := State.seatRoom_of_room (s := s.heard i x c) awaits.seat.map awaits.seat.room
      rw [State.seatOpened_of_opening awaits.counters.heardAs seatRoom mic]
      have seats : ∀ m, ((((s.heard i x c).countLive.moveSeat n ((s.heard i x c).liveSeat n r) .opening .opened).check i
          x.address).seat m) = _ := fun m => State.check_seat.trans (State.moveSeat_seat rfl)
      refine ⟨?_, fun m hm => (seats m).trans (if_neg hm), ?_⟩
      · rw [seats, if_pos rfl]
        rfl
      · refine (State.OnFloor.countLive.trans .moveSeat).checked_of_hall State.moveSeat_hall State.moveSeat_openingCount
          State.moveSeat_liveCount State.moveSeat_stampCount ?_
        rw [seats, if_pos rfl]
        refine (State.moveSeat_link (s := (s.heard i x c).countLive) (x := (s.heard i x c).liveSeat n r) rfl).trans ?_
        rw [show (s.heard i x c).countLive.seatAnchor n = some a from awaits.seat.map]
        rfl
  · have off : (s.heard i x c).CountersOff := awaits.counters.heardAs
    obtain ⟨y, hy⟩ : ∃ y, y = (s.heard i x c).slotReturned n := ⟨_, rfl⟩
    obtain ⟨w, hw⟩ : ∃ w, w = y.passSeatRoom n := ⟨_, rfl⟩
    obtain ⟨seats, rooms, floor⟩ := State.slotReturned_eq (s := s.heard i x c) awaits.seat.map awaits.seat.room
    rw [← hy] at seats rooms floor
    have yoff : y.CountersOff := by
      rw [hy]
      exact State.OnFloor.slotReturned.countersOff off
    have yanchor : y.seatAnchor n = some a := by
      rw [State.seatAnchor, seats, if_pos rfl, hy, State.OnFloor.slotReturned.anchorOf]
      exact awaits.seat.map
    obtain ⟨rooms', floor', seats', -⟩ := State.passSeatRoom_of_off yoff yanchor ((rooms a).trans (if_pos rfl))
    rw [← hw] at rooms' floor' seats'
    have stays : w.promoteAfterSlot n = w := State.promoteAfterSlot_of_no_queues fun b q hq => by
      rw [rooms'] at hq
      split at hq
      · obtain rfl := Option.some.inj hq
        rw [State.passedRoom_queue]
        exact nobody a r awaits.seat.room
      · rw [rooms, if_neg ‹_›] at hq
        exact nobody b q hq
    have closed : (s.heard i x c).seatClosed n = w := by
      rw [State.seatClosed_of_closing off mic, ← hy, ← hw, stays]
    have exec : exec (.unitReplyAck bus .ofClose 0 (s.unit i x.address).held c) s = .next (w.check i x.address) := by
      rw [awaits.exec_ack, show (0 : BitVec 2).toNat = 0 from rfl, awaits.answered_closed awaits.present command]
      refine congrArg (fun z => Host.Outcome.next (State.check z i x.address)) ?_
      rw [State.acknowledge, if_pos awaits.small.1, awaits.seatAt_eq, ← closed]
      exact State.Works.recordHeld (.seatClosed n)
    have works : (s.heard i x c).Works w := by
      rw [← closed]
      exact .seatClosed n
    refine ⟨_, _, exec, works.heard, ?_, ?_, ?_, ?_, ?_, fun m hm => ?_, State.check_room.trans ((rooms' a).trans (if_pos rfl)), ?_, ?_,
      fun b hb => ?_⟩
    · rw [State.check_seat, seats', seats, if_pos rfl]
      rfl
    · rw [State.check_seat, seats', seats, if_pos rfl]
      rfl
    · rw [State.check_seat, seats', seats, if_pos rfl]
      rfl
    · rw [State.check_seat, seats', seats, if_pos rfl]
      rfl
    · rw [State.check_seat, seats', seats, if_pos rfl]
      rfl
    · rw [State.check_seat, seats', seats, if_neg hm]
      exact ⟨rfl, rfl⟩
    · rw [State.passedRoom_live]
      rfl
    · rw [State.passedRoom_session, State.passedRoom_live]
      rfl
    · rw [State.check_room, rooms', if_neg hb, rooms, if_neg hb]
      rfl
  · subst hc
    have off : (s.heard 4 x cls).CountersOff := awaits.counters.heardAs
    refine ⟨_, awaits.exec_opened command cls, State.Works.heard (.consoleOpened _), (State.OnBooths.consoleOpened off _).checked,
      fun state => ?_, fun state => ?_⟩
    · obtain ⟨moved, owned, -, only⟩ := State.moved_console (s := s.heard 4 x cls) (c := x.address)
        (t := (s.heard 4 x cls).consoleOpened x.address) (if_pos state)
      exact ⟨by rw [State.check_console, moved], by rw [State.check_console, owned]; rfl, only.heard⟩
    · have nothing : (s.heard 4 x cls).consoleOpened x.address = s.heard 4 x cls :=
        if_neg (by rw [show (s.heard 4 x cls).console x.address = s.console x.address from rfl, state]; decide)
      rw [nothing]
      exact State.check_of_link
  · subst hc
    have off : (s.heard 4 x cls).CountersOff := awaits.counters.heardAs
    obtain ⟨moved, owned, -, only⟩ := State.moved_console (s := s.heard 4 x cls) (c := x.address)
      (t := (s.heard 4 x cls).consoleClosed x.address) (if_pos state)
    exact ⟨_, awaits.exec_closed command cls, State.Works.heard (.consoleClosed _), (State.OnBooths.consoleClosed off _).checked,
      by rw [State.check_console, moved], by rw [State.check_console, owned]; rfl, only.heard⟩

end

section
/-! SUPPORT. Presses on consoles (O31). -/

namespace Sys2Proof.Machine

namespace State

section
variable {s : State} {a c o : Nat} {r : Room} {cause : BoothCause} {code : Nat}

theorem boothRoom_of_room {b : Nat} (ha : s.boothAnchor b = some a) (hr : s.room a = some r) : s.boothRoom b = some r := by
  unfold boothRoom roomOf
  rw [show s.anchorOf (s.boothAt b).home = some a from ha]
  exact hr

/-! ## A console in READY (R134, R135) -/

section
variable (hr : s.boothRoom (consoleBooth c) = some r)
include hr

theorem pressReady_of_refused (h : r.session ≠ .inSession ∨ (s.boothAt (consoleBooth c)).language ∉ r.profile.languages) :
    s.pressReady c = s.noteConsole c .ready .languageNotSet none := by
  unfold pressReady
  rw [hr]
  dsimp only
  split
  · rfl
  · next inSession =>
    have absent : r.profile.languages.contains (s.boothAt (consoleBooth c)).language = false := by
      simpa using h.resolve_left inSession
    rw [absent]
    rfl

section
variable (hs : r.session = .inSession) (hl : (s.boothAt (consoleBooth c)).language ∈ r.profile.languages)
include hs hl

theorem pressReady_of_free (free : s.ownerOf ⟨r.anchor, (s.boothAt (consoleBooth c)).language⟩ = none) :
    s.pressReady c = s.takeChannel c ⟨r.anchor, (s.boothAt (consoleBooth c)).language⟩ := by
  unfold pressReady
  rw [hr]
  dsimp only
  rw [if_neg (by simp [hs]), if_neg (by simpa using hl), free]

theorem pressReady_of_interlock (owner : s.ownerOf ⟨r.anchor, (s.boothAt (consoleBooth c)).language⟩ = some o)
    (hc : r.profile.contention = .interlock) : s.pressReady c = s.noteConsole c .ready .channelBusy none := by
  unfold pressReady
  rw [hr]
  dsimp only
  rw [if_neg (by simp [hs]), if_neg (by simpa using hl), owner, hc]

/-- With no counter enabled a takeover raises nothing but its notices. -/
theorem pressReady_of_takeover (off : s.CountersOff)
    (owner : s.ownerOf ⟨r.anchor, (s.boothAt (consoleBooth c)).language⟩ = some o) (hc : r.profile.contention = .takeover) :
    s.pressReady c = (s.release o .takeover (some c)).takeChannel c ⟨r.anchor, (s.boothAt (consoleBooth c)).language⟩ := by
  unfold pressReady
  rw [hr]
  dsimp only
  rw [if_neg (by simp [hs]), if_neg (by simpa using hl), owner, hc]
  exact settleCounts_raise (((OnBooths.release o _ _).trans (.takeChannel c _)).countersOff off)

end

end

theorem OnBooths.pressReady (off : s.CountersOff) (c : Nat) : s.OnBooths (s.pressReady c) := by
  unfold State.pressReady
  split
  · exact .noteConsole c _ _ _
  · dsimp only
    split
    · exact .noteConsole c _ _ _
    · split
      · exact .noteConsole c _ _ _
      · split
        · exact .takeChannel c _
        · split
          · exact .noteConsole c _ _ _
          · exact .settled ((OnBooths.release _ _ _).trans (.takeChannel c _)) off _

theorem OnBooths.handleOnAir (off : s.CountersOff) (c : Nat) : s.OnBooths (s.handleOnAir c) := by
  unfold State.handleOnAir
  split
  · have pressed := OnBooths.pressReady off c
    exact pressed.trans (.consoleWork (pressed.countersOff off) c)
  · have released : s.OnBooths (s.release c .press none) := .release c _ _
    exact released.trans (.consoleWork (released.countersOff off) c)
  · have released : s.OnBooths (s.release c .press none) := .release c _ _
    exact released.trans (.consoleWork (released.countersOff off) c)
  · exact .refl s

theorem handleOnAir_of_ready (h : (s.console c).state = .ready) : s.handleOnAir c = (s.pressReady c).consoleWork c := by
  unfold handleOnAir
  rw [h]

theorem handleOnAir_of_owner (h : (s.console c).state = .cueing ∨ (s.console c).state = .onAir) :
    s.handleOnAir c = (s.release c .press none).consoleWork c := by
  unfold handleOnAir
  rcases h with h | h <;> rw [h]

theorem handleOnAir_of_releasing (h : (s.console c).state = .releasing) : s.handleOnAir c = s := by
  unfold handleOnAir
  rw [h]

/-- A press in a room that it does not wake is handled at once. -/
theorem onAirPress_of_not_woken (ha : s.boothAnchor (consoleBooth c) = some a) (hr : s.room a = some r)
    (h : r.session = .armed → r.wake.consolePress = false) : s.onAirPress c = s.handleOnAir c := by
  unfold onAirPress
  rw [ha]
  refine congrArg (fun z => State.handleOnAir z c) ?_
  by_cases armed : r.session = .armed
  · exact wake_of_not_held hr (h armed)
  · exact wake_of_not_armed hr armed

/-- A release and the work after it (R136, R137, R140). -/
theorem released_console {x : Option Nat} {t : State} (ht : t = (s.release c cause x).consoleWork c) :
    (t.console c).state = .releasing ∧ (t.console c).owned = none ∧ (t.console c).cough = (s.console c).cough ∧ s.OnlyConsole t c := by
  subst ht
  have shows : (s.release c cause x).OnlyShows ((s.release c cause x).consoleWork c) := .consoleWork c
  refine ⟨?_, ?_, ?_, .of_moved (fun d hd => release_console.trans (if_neg hd)) shows ((Works.release c _ _).trans (.consoleWork c))⟩
  · rw [shows, release_console, if_pos rfl]
  · rw [shows, release_console, if_pos rfl]
  · rw [shows, release_console, if_pos rfl]

/-- A refused press (R134 (1), (2), R135): one notice, and the work after it. -/
theorem refused_console {t : State} (ha : s.boothAnchor (consoleBooth c) = some a) (ready : (s.console c).state = .ready)
    (ht : t = (s.noteConsole c .ready cause none).consoleWork c) :
    (t.console c).state = .ready ∧ (t.console c).owned = (s.console c).owned ∧ s.OnlyConsole t c ∧
      (s.ListensRight → t.link = s.link.raise
        (.boothState (consoleBooth c) c (some a) .ready .ready cause (s.console c).owned none)) := by
  subst ht
  have shows : s.OnlyShows ((s.noteConsole c .ready cause none).consoleWork c) := (OnlyShows.of_consoles rfl).trans (.consoleWork c)
  refine ⟨(shows.state c).trans ready, shows.owned c, .of_shows shows ((Works.noteConsole c _ _ _).trans (.consoleWork c)), fun right => ?_⟩
  have work : ((s.noteConsole c .ready cause none).consoleWork c).link = (s.noteConsole c .ready cause none).link := by
    unfold consoleWork
    rw [show (s.noteConsole c .ready cause none).boothAnchor (consoleBooth c) = some a from ha]
    exact boothWork_link_of_right (s := s.noteConsole c .ready cause none) right a
  rw [work, noteConsole, ha, ready]
  rfl

/-- A refused press that an answer has reported. -/
theorem refused_heard {x : Exchange} {v : UnitRecord} {t : State} (ha : s.boothAnchor (consoleBooth c) = some a)
    (ready : (s.console c).state = .ready)
    (ht : t = ((s.heardAs 4 x v).noteConsole c .ready cause none).consoleWork c) :
    ((t.check 4 x.address).console c).state = .ready ∧ ((t.check 4 x.address).console c).owned = (s.console c).owned ∧
      s.OnlyConsole (t.check 4 x.address) c ∧ (s.ListensRight → (t.check 4 x.address).link = s.link.raise
        (.boothState (consoleBooth c) c (some a) .ready .ready cause (s.console c).owned none)) := by
  obtain ⟨state, owned, only, link⟩ := refused_console (s := s.heardAs 4 x v) ha ready ht
  refine ⟨?_, ?_, only.heard, fun right => (State.check_link ..).trans (link right)⟩
  · rw [check_console, state]
  · rw [check_console, owned]
    rfl

/-- A console that takes a free channel, and the work after it (R134 (3)). -/
theorem taken_console {key : Key} {t : State} (ht : t = (s.takeChannel c key).consoleWork c) :
    (t.console c).state = .cueing ∧ (t.console c).owned = some key ∧ s.OnlyConsole t c := by
  subst ht
  have shows : (s.takeChannel c key).OnlyShows ((s.takeChannel c key).consoleWork c) := .consoleWork c
  refine ⟨?_, ?_, .of_moved (fun d hd => takeChannel_console.trans (if_neg hd)) shows ((Works.takeChannel c _).trans (.consoleWork c))⟩
  · rw [shows, takeChannel_console, if_pos rfl]
  · rw [shows, takeChannel_console, if_pos rfl]

/-- A console that takes a channel over from its owner, and the work after it (R135). -/
theorem takenOver_console {key : Key} {t : State} (other : o ≠ c)
    (ht : t = ((s.release o .takeover (some c)).takeChannel c key).consoleWork c) :
    (t.console o).state = .releasing ∧ (t.console o).owned = none ∧ (t.console c).state = .cueing ∧ (t.console c).owned = some key ∧
      (∀ d, d ≠ c → d ≠ o → t.console d = { s.console d with indication := (t.console d).indication }) ∧
      ∀ b, t.boothAt b = { s.boothAt b with listen := (t.boothAt b).listen } := by
  subst ht
  have shows : ((s.release o .takeover (some c)).takeChannel c key).OnlyShows
      (((s.release o .takeover (some c)).takeChannel c key).consoleWork c) := .consoleWork c
  refine ⟨?_, ?_, ?_, ?_, fun d hc ho => ?_, ((Works.release o _ _).trans (.takeChannel c _)).trans (.consoleWork c) |>.booths⟩
  · rw [shows, takeChannel_console, if_neg other, release_console, if_pos rfl]
  · rw [shows, takeChannel_console, if_neg other, release_console, if_pos rfl]
  · rw [shows, takeChannel_console, if_pos rfl]
  · rw [shows, takeChannel_console, if_pos rfl]
  · rw [shows, takeChannel_console, if_neg hc, release_console, if_neg ho]

/-- A held COUGH that changes (R142). -/
theorem coughHeld_console (held : Bool) {d : Nat} :
    (s.coughHeld c held).console d = if d = c then { s.console c with cough := held } else s.console d := by
  have written : (s.coughHeld c held).console d = (s.setConsole c { s.console c with cough := held }).console d := by
    unfold coughHeld
    dsimp only
    split <;> rfl
  rw [written, setConsole_console]

theorem coughHeld_eq (ha : s.boothAnchor (consoleBooth c) = some a) (held : Bool) :
    s.coughHeld c held = { s with
      booth := { s.booth with consoles := (s.coughHeld c held).booth.consoles }
      link := if (s.console c).owned = none then s.link else s.link.raise
        (.boothState (consoleBooth c) c (some a) (s.console c).state (s.console c).state .cough (s.console c).owned none) } := by
  unfold coughHeld noteConsole
  dsimp only
  rw [show (s.setConsole c { s.console c with cough := held }).boothAnchor (consoleBooth c) = some a from ha,
    show (s.setConsole c { s.console c with cough := held }).console c = { s.console c with cough := held } from
      setConsole_console_same ..]
  cases (s.console c).owned with
  | none => rfl
  | some key => rfl

end

end State

end Sys2Proof.Machine

open Sys2Proof.Machine

/-- Settles O31. -/
theorem pressesOnAConsole : Obligations.PressesOnAConsole := by
  unfold Obligations.PressesOnAConsole
  refine ⟨fun s x cls a c r key awaits poll hc unwoken hkey => ?_, fun s x cls a c r awaits poll hc => ?_⟩
  · subst hc
    have off : (s.heard 4 x cls).CountersOff := awaits.counters.heardAs
    have map : (s.heard 4 x cls).boothAnchor (consoleBooth x.address) = some a := awaits.map
    have room : (s.heard 4 x cls).boothRoom (consoleBooth x.address) = some r := State.boothRoom_of_room map awaits.room
    have exec := awaits.exec_press poll cls
    rw [State.onAirPress_of_not_woken map awaits.room unwoken] at exec
    have pressed := State.OnBooths.handleOnAir off x.address
    have keyed : key = ⟨r.anchor, (s.boothAt (consoleBooth x.address)).language⟩ := by rw [hkey, awaits.anchor]
    have ready_eq : (s.console x.address).state = .ready → (s.heard 4 x cls).handleOnAir x.address =
        ((s.heard 4 x cls).pressReady x.address).consoleWork x.address := State.handleOnAir_of_ready (s := s.heard 4 x cls)
    refine ⟨_, exec, pressed.works.heard, pressed.checked, fun ready => ⟨fun refused => ?_, fun inSession held => ⟨fun free => ?_,
      fun o owner other => ⟨fun interlock => ?_, fun takeover => ?_⟩⟩⟩, fun owner => ?_, fun releasing => ?_⟩
    · have no : r.session ≠ .inSession ∨ (s.boothAt (consoleBooth x.address)).language ∉ r.profile.languages := by
        rwa [hkey] at refused
      exact State.refused_heard awaits.map ready ((ready_eq ready).trans
        (congrArg (fun z => State.consoleWork z _) (State.pressReady_of_refused room no)))
    · subst keyed
      obtain ⟨state, owned, only⟩ := State.taken_console ((ready_eq ready).trans
        (congrArg (fun z => State.consoleWork z _) (State.pressReady_of_free room inSession held free)))
      exact ⟨by rw [State.check_console, state], by rw [State.check_console, owned]; rfl, only.heard⟩
    · subst keyed
      exact State.refused_heard awaits.map ready ((ready_eq ready).trans
        (congrArg (fun z => State.consoleWork z _) (State.pressReady_of_interlock room inSession held owner interlock)))
    · subst keyed
      obtain ⟨state, owned, state', owned', others, booths⟩ := State.takenOver_console other ((ready_eq ready).trans
        (congrArg (fun z => State.consoleWork z _) (State.pressReady_of_takeover room inSession held off owner takeover)))
      refine ⟨?_, ?_, ?_, ?_, fun d hc ho => ?_, fun b => ?_⟩
      · rw [State.check_console, state]
      · rw [State.check_console, owned]
      · rw [State.check_console, state']
      · rw [State.check_console, owned']
        rfl
      · rw [State.check_console]
        exact others d hc ho
      · unfold State.boothAt
        rw [State.check_booth]
        exact booths b
    · obtain ⟨state, owned, -, only⟩ := State.released_console (State.handleOnAir_of_owner (s := s.heard 4 x cls) owner)
      exact ⟨by rw [State.check_console, state], by rw [State.check_console, owned], only.heard⟩
    · rw [State.handleOnAir_of_releasing (s := s.heard 4 x cls) releasing]
      exact State.check_of_link
  · subst hc
    have heard : s.Heard (((s.heard 4 x cls).setUnit 4 x.address { s.unit 4 x.address with
        misses := 0, reported := some cls, held := !(s.unit 4 x.address).held }).coughHeld x.address (!(s.unit 4 x.address).held)) 4 x _ :=
      State.heard_heardAs.setUnit.queues (State.Works.coughHeld _ _).queues
    refine ⟨_, awaits.exec_held poll cls (by simp), heard.queues (State.Works.check 4 x.address).queues, ?_, fun d hd => ?_, ?_⟩
    · rw [State.check_console, State.coughHeld_console, if_pos rfl]
      rfl
    · rw [State.check_console, State.coughHeld_console, if_neg hd]
      rfl
    · rw [State.check_eq]
      dsimp only
      rw [State.coughHeld_eq (s := (s.heard 4 x cls).setUnit 4 x.address { s.unit 4 x.address with
        misses := 0, reported := some cls, held := !(s.unit 4 x.address).held }) awaits.map]
      rfl

end

section
/-! SUPPORT. The requests of the booths (O30). -/

namespace Sys2Proof.Machine

variable {s t : State} {body : List Byte}

theorem byte_eq_zero_iff {x : Byte} : x = 0 ↔ x.toNat = 0 := BitVec.toNat_inj.symm

theorem byte_eq_one_iff {x : Byte} : x = 1 ↔ x.toNat = 1 := BitVec.toNat_inj.symm

/-! ## BOOTH_SET (R130) -/

theorem sourceAt_of_le {i : Nat} (h : byteAt body i ≤ 1) :
    sourceAt body i = some (if byteAt body i = 0 then .floor else .relay (byteAt body (i + 1))) := by
  unfold sourceAt
  obtain zero | one : byteAt body i = 0 ∨ byteAt body i = 1 := by omega
  · rw [zero]
    rfl
  · rw [one]
    rfl

/-- A body of BOOTH_SET without a wrong coded byte is read field by field. -/
theorem readBoothSet_eq_some (size : body.length = 8) (installed : byteAt body 1 ≤ 1) (source : byteAt body 4 ≤ 1) :
    readBoothSet body = some
      { booth := byteAt body 0, installed := decide (byteAt body 1 = 1), home := byteAt body 2, language := byteAt body 3
        source := if byteAt body 4 = 0 then .floor else .relay (byteAt body 5), count := byteAt body 6, trim := stepsAt body 7 } := by
  unfold readBoothSet
  rw [sized_of_length size, yesNoAt_of_le installed, sourceAt_of_le source]

/-- What R130 checks. -/
theorem BoothFields.fit_iff {x : BoothFields} : x.fit = true ↔ (1 ≤ x.booth ∧ x.booth ≤ 24) ∧ (1 ≤ x.home ∧ x.home ≤ 12) ∧
    1 ≤ x.language ∧ x.language ≤ 63 ∧ x.source.inRange = true ∧ x.source.relays x.language = false ∧ (x.count = 1 ∨ x.count = 2) := by
  unfold BoothFields.fit
  simp only [Bool.and_eq_true, boothOk_iff, segmentOk_iff, decide_eq_true_eq, Bool.not_eq_true', Bool.or_eq_true, and_assoc]

/-- A source that is read from two bytes is in range and relays another language than this. -/
theorem source_fits_iff {code relay language : Nat} (h : code ≤ 1) :
    ((if code = 0 then Source.floor else .relay relay).inRange = true ∧
      (if code = 0 then Source.floor else .relay relay).relays language = false) ↔
    (code = 0 ∨ code = 1 ∧ 1 ≤ relay ∧ relay ≤ 63 ∧ relay ≠ language) := by
  obtain rfl | rfl : code = 0 ∨ code = 1 := by omega
  · simp [Source.inRange, Source.relays]
  · simp [Source.inRange, Source.relays, and_assoc]

theorem handleBoothSet_of_fit {x : BoothFields} (read : readBoothSet body = some x) (fit : x.fit = true) : handleBoothSet body s =
    (s.setBooth x.booth { installed := x.installed, home := x.home, language := x.language, source := x.source, count := x.count
                          trim := clampTrim x.trim, listen := x.source.restListen },
      .okClamped (clampTrim x.trim ≠ x.trim) .nothing) :=
  (withBody_of_some read).trans (if_pos fit)

theorem handleBoothSet_of_unfit {x : BoothFields} (read : readBoothSet body = some x) (unfit : ¬ x.fit = true) :
    handleBoothSet body s = refuse s .badValue :=
  (withBody_of_some read).trans (if_neg unfit)

namespace State

theorem consoleInUse_first {b : Nat} (h1 : 1 ≤ b) (h2 : b ≤ 24) : s.consoleInUse (2 * b - 1) = (s.boothAt b).installed := by
  have booth : consoleBooth (2 * b - 1) = b := by
    unfold consoleBooth
    omega
  have low : 1 ≤ 2 * b - 1 := by omega
  have high : 2 * b - 1 ≤ 48 := by omega
  have odd : (2 * b - 1) % 2 = 1 := by omega
  unfold consoleInUse
  simp [booth, low, high, odd]

theorem consoleInUse_second {b : Nat} (h1 : 1 ≤ b) (h2 : b ≤ 24) :
    s.consoleInUse (2 * b) = ((s.boothAt b).installed && decide ((s.boothAt b).count = 2)) := by
  have booth : consoleBooth (2 * b) = b := by
    unfold consoleBooth
    omega
  have low : 1 ≤ 2 * b := by omega
  have high : 2 * b ≤ 48 := by omega
  unfold consoleInUse
  simp [booth, low, high]

/-! ## BOOTH_SOURCE (R146) -/

theorem mem_boothsIn {b : Nat} {segments : List Nat} (hi : (s.boothAt b).installed = true) (hs : (s.boothAt b).home ∈ segments) :
    b ∈ s.boothsIn segments := by
  have other : s.boothAt b ≠ Booth.initial := fun h => by
    rw [h] at hi
    cases hi
  exact List.mem_map.2 ⟨(b, s.boothAt b), List.mem_filter.2 ⟨Kept.mem_of_tget other rfl, by simpa [hi] using hs⟩, rfl⟩

/-- With no counter enabled listening anew reaches no bus. -/
theorem relisten_buses (off : s.CountersOff) (b : Nat) : (s.relisten b).buses = s.buses := by
  unfold relisten
  dsimp only
  split
  · rfl
  · split
    · rw [raiseBooth, settleCounts_raise (((OnBooths.setListen b _).trans (.note _)).countersOff off)]
      rfl
    · rfl
    · rfl

theorem relistenIn_buses (off : s.CountersOff) (segments : List Nat) : (s.relistenIn segments).buses = s.buses := by
  have all : ∀ (bs : List Nat) (v : State), v.CountersOff → (bs.foldl relisten v).buses = v.buses := by
    intro bs
    induction bs with
    | nil => exact fun v _ => rfl
    | cons d bs ih => exact fun v hv => (ih _ ((OnBooths.relisten hv d).countersOff hv)).trans (relisten_buses hv d)
  exact all _ s off

section
variable {a b c : Nat} {r : Room} {source : Source}

/-- The source of an installed booth changes, and every booth of its room listens anew (R145, R146). -/
theorem resource_eq (ha : s.boothAnchor b = some a) (hr : s.room a = some r) :
    s.resource b source = (s.setBooth b { s.boothAt b with source := source }).relistenIn r.segments := by
  have home : (s.setBooth b { s.boothAt b with source := source }).boothAnchor b = some a := by
    unfold boothAnchor
    rw [setBooth_boothAt_same]
    exact ha
  have segments : (s.setBooth b { s.boothAt b with source := source }).segmentsOf a = r.segments := by
    unfold segmentsOf
    rw [show (s.setBooth b { s.boothAt b with source := source }).room a = some r from hr]
  unfold resource
  dsimp only
  rw [home]
  exact congrArg (State.relistenIn _) segments

theorem relistenIn_listen (h : (s.boothAt b).installed = true) {segments : List Nat} (hs : (s.boothAt b).home ∈ segments) :
    ((s.relistenIn segments).boothAt b).listen = (s.relistenIn segments).listenOf b :=
  relisten_foldl_listen _ _ (.inl (mem_boothsIn h hs))

end

end State

end Sys2Proof.Machine

open Sys2Proof.Machine

/-- Settles O30. -/
theorem boothRequestsStoreAndRelease : Obligations.BoothRequestsStoreAndRelease := by
  unfold Obligations.BoothRequestsStoreAndRelease
  refine ⟨fun s tag bb ib hb lb sb rb cb xb x take hx => ⟨fun run => ?_, fun config wrong => ?_,
      fun config b1 b2 h1 h2 l1 l2 source count coded => ?_⟩,
    fun s tag bb sb rb a r x take run b1 b2 installed atRoom inside source => ?_,
    fun s tag bb c take run b1 b2 installed owner => ?_⟩
  · exact congrArg Host.Outcome.next (State.request_of_not_permits take (by simp [Allowed.permits, run]))
  · refine congrArg Host.Outcome.next (State.request_of_refuse take (by simp [Allowed.permits, config]) ?_)
    by_cases coded : 2 ≤ ib.toNat ∨ 2 ≤ sb.toNat
    · exact by rw [handleBoothSet, readBoothSet_eq_none (b := [bb, ib, hb, lb, sb, rb, cb, xb]) (.inr coded)]; rfl
    · have installed : ib.toNat ≤ 1 := by omega
      have coded : sb.toNat ≤ 1 := by omega
      refine handleBoothSet_of_unfit (readBoothSet_eq_some rfl installed coded) fun fit => ?_
      obtain ⟨⟨b1, b2⟩, ⟨h1, h2⟩, l1, l2, range, relays, count⟩ := BoothFields.fit_iff.1 fit
      replace b1 : 1 ≤ bb.toNat := b1
      replace b2 : bb.toNat ≤ 24 := b2
      replace h1 : 1 ≤ hb.toNat := h1
      replace h2 : hb.toNat ≤ 12 := h2
      replace l1 : 1 ≤ lb.toNat := l1
      replace l2 : lb.toNat ≤ 63 := l2
      replace count : cb.toNat = 1 ∨ cb.toNat = 2 := count
      have source : sb.toNat = 0 ∨ sb.toNat = 1 ∧ 1 ≤ rb.toNat ∧ rb.toNat ≤ 63 ∧ rb.toNat ≠ lb.toNat :=
        (source_fits_iff coded).1 ⟨range, relays⟩
      rw [byte_eq_one_iff, ← BitVec.toNat_inj] at wrong
      omega
  · subst hx
    rw [byte_eq_zero_iff, byte_eq_one_iff, Ne, ← BitVec.toNat_inj] at source
    have coded' : sb.toNat ≤ 1 := by omega
    have fits := (source_fits_iff (relay := rb.toNat) (language := lb.toNat) coded').2 source
    have read := readBoothSet_eq_some (body := [bb, ib, hb, lb, sb, rb, cb, xb]) rfl coded coded'
    have handled : handleBoothSet [bb, ib, hb, lb, sb, rb, cb, xb] s.popInput = (s.popInput.setBooth bb.toNat
        { installed := decide (ib = 1), home := hb.toNat, language := lb.toNat
          source := if sb = 0 then .floor else .relay rb.toNat, count := cb.toNat, trim := max (-12) (min 12 xb.toInt)
          listen := if sb = 0 then .direct else .fallback },
        .okClamped (decide (max (-12) (min 12 xb.toInt) ≠ xb.toInt)) .nothing) := by
      rw [handleBoothSet_of_fit read (BoothFields.fit_iff.2 ⟨⟨b1, b2⟩, ⟨h1, h2⟩, l1, l2, fits.1, fits.2, count⟩), clampTrim_eq]
      simp only [byte_eq_zero_iff, byte_eq_one_iff]
      obtain zero | one : sb.toNat = 0 ∨ sb.toNat = 1 := by omega
      · simp only [if_pos zero, show byteAt [bb, ib, hb, lb, sb, rb, cb, xb] 4 = 0 from zero]
        rfl
      · simp only [one, show byteAt [bb, ib, hb, lb, sb, rb, cb, xb] 4 = 1 from one]
        rfl
    refine ⟨_, congrArg Host.Outcome.next (State.request_of_handled take (by simp [Allowed.permits, config]) handled),
      State.setBooth_boothAt_same .., fun b hb => (State.setBooth_boothAt ..).trans (if_neg hb), ?_, ?_, rfl⟩
    · exact (State.consoleInUse_first b1 b2).trans (congrArg Booth.installed (State.setBooth_boothAt_same ..))
    · refine (State.consoleInUse_second b1 b2).trans ?_
      rw [Bool.decide_and]
      exact congrArg (fun y : Booth => y.installed && decide (y.count = 2)) (State.setBooth_boothAt_same ..)
  · rw [byte_eq_zero_iff, byte_eq_one_iff] at source
    have coded : byteAt [bb, sb, rb] 1 < 2 := show sb.toNat < 2 by omega
    have range : ¬ (byteAt [bb, sb, rb] 1 = 1 ∧ (byteAt [bb, sb, rb] 2 < 1 ∨ 63 < byteAt [bb, sb, rb] 2)) :=
      show ¬ (sb.toNat = 1 ∧ (rb.toNat < 1 ∨ 63 < rb.toNat)) by omega
    have read : (if byteAt [bb, sb, rb] 1 = 1 then Source.relay (byteAt [bb, sb, rb] 2) else .floor) = x := by
      rcases source with ⟨zero, rfl⟩ | ⟨one, -, -, -, rfl⟩
      · exact if_neg (show ¬ sb.toNat = 1 by omega)
      · exact if_pos one
    have other : ¬ x.relays (s.boothAt bb.toNat).language = true := by
      rcases source with ⟨zero, rfl⟩ | ⟨one, -, -, ne, rfl⟩
      · simp [Source.relays]
      · simpa [Source.relays] using ne
    obtain ⟨answer, handled⟩ : ∃ answer, handleBoothSource [bb, sb, rb] s.popInput = (s.popInput.resource bb.toNat x, answer) := by
      rw [handleBoothSource_eq rfl coded, if_neg range, read]
      exact ⟨_, (State.onBooth_of_installed (s := s) b1 b2 installed _).trans (if_neg other)⟩
    rw [State.resource_eq (s := s.popInput) atRoom.map atRoom.room] at handled
    obtain ⟨w, hw⟩ : ∃ w, w = s.popInput.setBooth bb.toNat { s.popInput.boothAt bb.toNat with source := x } := ⟨_, rfl⟩
    rw [← hw] at handled
    have written : ∀ b, w.boothAt b = if b = bb.toNat then { s.boothAt bb.toNat with source := x } else s.boothAt b :=
      fun b => hw ▸ State.setBooth_boothAt ..
    have booths : ∀ b, (w.relistenIn r.segments).boothAt b =
        { w.boothAt b with listen := ((w.relistenIn r.segments).boothAt b).listen } := (State.Works.fold (fun _ b => .relisten b) _ _).booths
    have source : ∀ b, b ≠ bb.toNat → (w.boothAt b).source = (s.boothAt b).source := fun b hb => by rw [written, if_neg hb]
    refine ⟨_, congrArg Host.Outcome.next (State.request_of_handled take (by simp [Allowed.permits, run]) handled), ?_, fun b hi hs => ?_,
      fun b => ?_, fun b hb => ?_, ?_, fun off => ?_⟩
    · exact (congrArg Booth.source (booths _)).trans (by rw [written, if_pos rfl])
    · have kept := booths b
      exact State.relistenIn_listen ((congrArg Booth.installed kept).symm.trans hi)
        (by rw [← congrArg Booth.home kept]; exact hs)
    · refine (booths b).trans ?_
      show _ = { s.boothAt b with source := ((w.relistenIn r.segments).boothAt b).source
                                  listen := ((w.relistenIn r.segments).boothAt b).listen }
      rw [congrArg Booth.source (booths b), written]
      split
      · subst_vars
        rfl
      · rfl
    · exact (congrArg Booth.source (booths b)).trans (source b hb)
    · exact (State.relistenIn_consoles _).trans (hw ▸ rfl)
    · have woff : w.CountersOff := hw ▸ ⟨off.off, off.none, off.open_⟩
      have worked : w.OnBooths (w.relistenIn r.segments) := .relistenIn woff _
      conv_lhs => rw [worked.eq, State.relistenIn_buses woff, hw]
      rw [hw]
      rfl
  · have handled : handleBoothOff [bb] s.popInput = ((s.popInput.release c .host none).consoleWork c, .ok (.console c)) := by
      refine (withBody_sized rfl).trans ((State.onBooth_of_installed (s := s) b1 b2 installed _).trans ?_)
      rw [show s.popInput.boothOwner (byteAt [bb] 0) = some c from owner]
    obtain ⟨state, owned, cough, only⟩ := State.released_console (s := s.popInput) (c := c) (cause := .host) (x := none) rfl
    refine ⟨_, congrArg Host.Outcome.next (State.request_of_handled take (by simp [Allowed.permits, run]) handled), state, owned, cough,
      only, fun off => ?_⟩
    have released : s.popInput.OnBooths (s.popInput.release c .host none) := .release c _ _
    have worked := released.trans (.consoleWork (released.countersOff (s := s.popInput) ⟨off.off, off.none, off.open_⟩) c)
    refine ⟨worked.works.queues, ?_⟩
    conv_lhs => rw [worked.eq]
    rfl

end

section
/-! SUPPORT. Channels that are made, the table switch, and what a boundary leaves to be ended (O32). -/

namespace Sys2Proof.Machine

/-! ## Numbers that a table lists, after a write -/

theorem tkeys_tput_of_nil {α : Type} {p : Nat → α → Bool} {tb : Table α} {k : Nat} {v : α} (nothing : tkeys p tb = [])
    (hv : p k v = true) : tkeys p (tput tb k v) = [k] := by
  induction tb with
  | nil => simp [tkeys, tput, hv]
  | cons x r ih =>
    obtain ⟨j, w⟩ := x
    have here : p j w = false := by
      simp only [tkeys, List.map_eq_nil_iff, List.filter_eq_nil_iff] at nothing
      simpa using nothing (j, w) (List.mem_cons_self ..)
    have rest : tkeys p r = [] := by
      simpa [tkeys, here] using nothing
    have filtered : r.filter (fun x => p x.1 x.2) = [] := by simpa [tkeys] using rest
    unfold tput
    split
    · simp [tkeys, hv, here, filtered]
    · split
      · simp [tkeys, hv, filtered]
      · have := ih rest
        simp only [tkeys, List.filter_cons, here, Bool.false_eq_true, if_false] at this ⊢
        exact this

/-- A record that no longer meets the condition leaves the list of those that do. -/
theorem tkeys_tput_of_leaving {α : Type} [DecidableEq α] {d : α} {p : Nat → α → Bool} {tb : Table α} {k : Nat} {v : α}
    (canonical : twf d tb = true) (hv : p k v = false) : tkeys p (tput tb k v) = (tkeys p tb).filter (· ≠ k) := by
  induction tb with
  | nil => simp [tkeys, tput, hv]
  | cons x r ih =>
    obtain ⟨j, w⟩ := x
    simp only [twf, Bool.and_eq_true, decide_eq_true_eq, List.all_eq_true] at canonical
    obtain ⟨⟨-, above⟩, canonical⟩ := canonical
    have stays : ∀ m, m ≤ j → (tkeys p r).filter (· ≠ m) = tkeys p r := fun m hm => List.filter_eq_self.2 fun n hn => by
      obtain ⟨u, hu, -⟩ := Kept.mem_tkeys hn
      have := above _ hu
      simp only [decide_eq_true_eq]
      omega
    have split_head : tkeys p ((j, w) :: r) = (if p j w then [j] else []) ++ tkeys p r := by
      unfold tkeys
      rw [List.filter_cons]
      split <;> rfl
    unfold tput
    split
    · next before =>
      have keep : (tkeys p ((j, w) :: r)).filter (· ≠ k) = tkeys p ((j, w) :: r) := by
        rw [split_head, List.filter_append, stays k (Nat.le_of_lt before)]
        congr 1
        split
        · simp; omega
        · rfl
      rw [keep]
      simp [tkeys, hv]
    · split
      · next same =>
        subst same
        rw [split_head, List.filter_append, stays k (Nat.le_refl k)]
        split <;> simp [tkeys, hv]
      · next notBefore other =>
        have tail : tkeys p ((j, w) :: tput r k v) = (if p j w then [j] else []) ++ tkeys p (tput r k v) := by
          unfold tkeys
          rw [List.filter_cons]
          split <;> rfl
        have differ : j ≠ k := fun e => other e.symm
        rw [tail, ih canonical, split_head, List.filter_append]
        congr 1
        split
        · simp [differ]
        · rfl

theorem positionOf_append {key : Key} {keys : List Key} {i : Nat} (absent : positionOf key keys i = none) :
    positionOf key (keys ++ [key]) i = some (i + keys.length) := by
  induction keys generalizing i with
  | nil => simp [positionOf]
  | cons x xs ih =>
    simp only [positionOf] at absent
    split at absent
    · cases absent
    · next other =>
      rw [List.cons_append, positionOf, if_neg other, ih absent, List.length_cons]
      congr 1
      omega

theorem languageSlots_pairwise : languageSlots.Pairwise (· < ·) := by decide

theorem mem_languageSlots {k : Nat} : k ∈ languageSlots ↔ 12 ≤ k ∧ k ≤ 63 := by
  simp only [languageSlots, List.mem_map, List.mem_range]
  constructor
  · rintro ⟨j, hj, rfl⟩
    omega
  · exact fun h => ⟨k - 12, by omega, by omega⟩

namespace State

section
variable {s t : State} {key : Key} {k a : Nat}

/-! ## A channel that is made (R151) -/

theorem freeLanguageSlot_eq_some (h1 : 12 ≤ k) (h2 : k ≤ 63) (free : tget none s.dist.allocation.slots k = none)
    (lowest : ∀ j, 12 ≤ j → j < k → tget none s.dist.allocation.slots j ≠ none) : s.freeLanguageSlot = some k := by
  have listed : k ∈ languageSlots := mem_languageSlots.2 ⟨h1, h2⟩
  cases found : s.freeLanguageSlot with
  | none => exact absurd (decide_eq_true free) (List.find?_eq_none.1 found k listed)
  | some j =>
    obtain ⟨here, before, after, list, taken⟩ := List.find?_eq_some_iff_append.1 found
    have member : j ∈ languageSlots := List.mem_of_find?_eq_some found
    have reached : ¬ j < k := fun lt => lowest j (mem_languageSlots.1 member).1 lt (of_decide_eq_true here)
    have ascending := languageSlots_pairwise
    rw [list] at listed ascending
    rcases List.mem_append.1 listed with old | new
    · exact absurd (decide_eq_true free) (by simpa using taken k old)
    · rcases List.mem_cons.1 new with rfl | later
      · rfl
      · exact absurd ((List.pairwise_cons.1 (List.pairwise_append.1 ascending).2.1).1 k later) reached

theorem freeLanguageSlot_eq_none (full : ∀ k, 12 ≤ k → k ≤ 63 → tget none s.dist.allocation.slots k ≠ none) :
    s.freeLanguageSlot = none :=
  List.find?_eq_none.2 fun k hk => by simpa using full k (mem_languageSlots.1 hk).1 (mem_languageSlots.1 hk).2

theorem queueRoomMaps_dist : (s.queueRoomMaps a).dist = s.dist := by
  unfold queueRoomMaps
  split
  · rfl
  · unfold queueMaps
    exact foldl_dist (fun _ _ => foldl_dist (fun _ _ => by rw [join_eq]) _ _) _ _

theorem makeChannel_dist (absent : s.hasChannel key = false) : (s.makeChannel key).dist = match s.freeLanguageSlot with
    | some k => (s.setSlot k (some key)).dist
    | none => (s.setUnserved (s.dist.unserved ++ [key])).dist := by
  unfold makeChannel
  rw [if_neg (by rw [absent]; decide)]
  cases s.freeLanguageSlot with
  | none => exact queueRoomMaps_dist
  | some k => exact queueRoomMaps_dist

theorem service_of_absent (absent : s.hasChannel key = false) :
    s.dist.allocation.slotOf key = none ∧ positionOf key s.dist.unserved 1 = none := by
  have none_ : s.service key = .none := by simpa [hasChannel] using absent
  unfold service at none_
  split at none_
  · cases none_
  · next slot =>
    split at none_
    · cases none_
    · next position => exact ⟨slot, position⟩

/-! ## The table switch (R160) -/

/-- What a slot carries is read from phase, segments, the map, the rooms' anchors, sessions and profiles, and the on-air table. -/
theorem slotCarry_congr (phase : t.link.phase = s.link.phase) (segment : ∀ k, t.segment k = s.segment k)
    (rooms : ∀ k, (t.roomOf k).map (fun r => (r.anchor, r.session, r.profile)) = (s.roomOf k).map (fun r => (r.anchor, r.session, r.profile)))
    (current : t.dist.current = s.dist.current) (k : Nat) : t.slotCarry k = s.slotCarry k := by
  have floor : ∀ k, t.floorCarry k = s.floorCarry k := fun k => by
    unfold floorCarry
    rw [phase, segment, current]
    refine ite_congr rfl (fun _ => ?_) fun _ => rfl
    have same := rooms k
    cases hs : s.roomOf k with
    | none =>
      rw [hs] at same
      rw [Option.map_eq_none_iff.1 same]
    | some r =>
      rw [hs] at same
      obtain ⟨q, hq, e⟩ := Option.map_eq_some_iff.1 same
      obtain ⟨anchor, session, -⟩ := by simpa only [Prod.mk.injEq] using e
      rw [hq]
      dsimp only
      rw [anchor, session]
  have language : t.languageCarry k = s.languageCarry k := by
    unfold languageCarry
    rw [current]
    cases tget none s.dist.current.slots k with
    | none => rfl
    | some key =>
      dsimp only
      have same := rooms key.anchor
      cases hs : s.roomOf key.anchor with
      | none =>
        rw [hs] at same
        rw [Option.map_eq_none_iff.1 same]
      | some r =>
        rw [hs] at same
        obtain ⟨q, hq, e⟩ := Option.map_eq_some_iff.1 same
        obtain ⟨anchor, session, profile⟩ := by simpa only [Prod.mk.injEq] using e
        rw [hq]
        dsimp only
        rw [anchor, session, profile]
  unfold slotCarry
  rw [floor, language]

theorem switchIfDue_of_due (due : s.dist.switchDue = true) : s.switchIfDue =
    ({ s with dist := { s.dist with switchDue := false } } : State).switchTables := if_pos due

theorem switchIfDue_of_not_due (due : s.dist.switchDue = false) : s.switchIfDue = s := by
  unfold switchIfDue
  rw [due]
  rfl

theorem switchIfDue_idem : s.switchIfDue.switchIfDue = s.switchIfDue := by
  cases due : s.dist.switchDue with
  | false => rw [switchIfDue_of_not_due due, switchIfDue_of_not_due due]
  | true =>
    rw [switchIfDue_of_due due]
    exact switchIfDue_of_not_due rfl

/-! ## Ramps that end (R169, R171) -/

theorem settleRamp_roomOf (k : Nat) : ((s.settleRamp a).roomOf k).map (fun r => (r.anchor, r.session, r.profile)) =
    (s.roomOf k).map (fun r => (r.anchor, r.session, r.profile)) := by
  unfold settleRamp
  cases hr : s.room a with
  | none => rfl
  | some r =>
    dsimp only
    unfold roomOf
    show ((s.anchorOf k).bind (State.room (State.setRoom s a _))).map _ = _
    cases s.anchorOf k with
    | none => rfl
    | some b =>
      show ((State.setRoom s a _).room b).map _ = (s.room b).map _
      rw [setRoom_room]
      split
      · next same =>
        rw [same, hr]
        rfl
      · rfl

/-- The end of a ramp and the table switch do not touch each other. -/
theorem settleRamp_switchIfDue : s.switchIfDue.settleRamp a = (s.settleRamp a).switchIfDue := by
  cases hr : s.room a with
  | none =>
    have stays : ∀ u : State, u.room a = none → u.settleRamp a = u := fun u hu => by
      unfold settleRamp
      rw [hu]
    rw [stays s hr, stays]
    unfold switchIfDue
    split
    · exact hr
    · exact hr
  | some r =>
    have settled : ∀ u : State, u.room a = some r → u.settleRamp a =
        (u.setRoom a (some { r with ramp := .settled, settleDue := false })).note (.levelSettled a r.level r.profile.level r.ceiling) :=
      fun u hu => by
        unfold settleRamp
        rw [hu]
    cases due : s.dist.switchDue with
    | false =>
      rw [switchIfDue_of_not_due due, switchIfDue_of_not_due]
      rw [settled s hr]
      exact due
    | true =>
      rw [switchIfDue_of_due due, settled s hr, switchIfDue_of_due (by exact due)]
      refine (settled _ (by exact hr)).trans ?_
      have carry : ({ (s.setRoom a (some { r with ramp := .settled, settleDue := false })).note
            (.levelSettled a r.level r.profile.level r.ceiling) with
          dist := { s.dist with current := s.dist.allocation, switchDue := false } } : State).slotCarry =
          ({ s with dist := { s.dist with current := s.dist.allocation, switchDue := false } } : State).slotCarry := by
        refine funext fun k => slotCarry_congr (by exact LinkUnit.raise_phase ..) (fun _ => by rfl) (fun j => ?_) (by rfl) k
        have same := settleRamp_roomOf (s := s) (a := a) j
        rw [settled s hr] at same
        exact same
      exact congrArg (fun f => { (s.setRoom a (some { r with ramp := .settled, settleDue := false })).note
            (.levelSettled a r.level r.profile.level r.ceiling) with
          dist := { s.dist with current := s.dist.allocation, switchDue := false }
          mix := { s.mix with plan := { s.mix.plan with slots := carrying f (List.range 64) } } }) carry.symm

theorem nextRamp_switchIfDue : s.switchIfDue.nextRamp = s.nextRamp.switchIfDue := by
  have rooms : s.switchIfDue.roomsWith Room.settleDue = s.roomsWith Room.settleDue := by
    unfold switchIfDue
    split <;> rfl
  unfold nextRamp
  rw [rooms]
  cases (s.roomsWith Room.settleDue).head? with
  | none => rfl
  | some a => exact settleRamp_switchIfDue

theorem nextRamps_switchIfDue (xs : List Nat) : timesOf nextRamp xs s.switchIfDue = (timesOf nextRamp xs s).switchIfDue := by
  induction xs generalizing s with
  | nil => rfl
  | cons x xs ih =>
    show timesOf nextRamp xs s.switchIfDue.nextRamp = _
    rw [nextRamp_switchIfDue]
    exact ih

/-- In a canonical room table the ramp that ends is the first that is due, and the others stay. -/
theorem nextRamp_roomsWith (canonical : twf none s.hall.rooms = true) :
    s.nextRamp.roomsWith Room.settleDue = (s.roomsWith Room.settleDue).tail := by
  cases list : s.roomsWith Room.settleDue with
  | nil =>
    unfold nextRamp
    rw [list]
    exact list
  | cons a as =>
    have ascending : (s.roomsWith Room.settleDue).Pairwise (· < ·) := tkeys_pairwise canonical _
    have listed : a ∈ s.roomsWith Room.settleDue := list ▸ List.mem_cons_self ..
    obtain ⟨r, hr⟩ : ∃ r, s.room a = some r := by
      have meets := (mem_tkeys_iff canonical (fun _ => rfl) a).1 listed
      cases hr : s.room a with
      | none =>
        rw [show tget none s.hall.rooms a = none from hr] at meets
        cases meets
      | some r => exact ⟨r, rfl⟩
    have next : s.nextRamp = s.settleRamp a := by
      unfold nextRamp
      rw [list]
      rfl
    have written : s.nextRamp.hall.rooms = tput s.hall.rooms a (some { r with ramp := .settled, settleDue := false }) := by
      rw [next, settleRamp, hr]
      rfl
    unfold roomsWith at list ascending ⊢
    rw [written, tkeys_tput_of_leaving canonical rfl, list, List.filter_cons_of_neg (by simp), List.tail_cons]
    rw [list] at ascending
    refine List.filter_eq_self.2 fun b hb => ?_
    have := (List.pairwise_cons.1 ascending).1 b hb
    simp only [decide_eq_true_eq]
    omega

theorem closeInstant_nextRamp (canonical : twf none s.hall.rooms = true) : s.nextRamp.closeInstant = s.closeInstant := by
  unfold closeInstant
  rw [nextRamp_roomsWith canonical]
  cases list : s.roomsWith Room.settleDue with
  | nil =>
    unfold nextRamp
    rw [list]
    rfl
  | cons a as => rfl

theorem closeInstant_switchIfDue : s.switchIfDue.closeInstant = s.closeInstant := by
  have rooms : s.switchIfDue.roomsWith Room.settleDue = s.roomsWith Room.settleDue := by
    unfold switchIfDue
    split <;> rfl
  unfold closeInstant
  rw [rooms, nextRamps_switchIfDue, switchIfDue_idem]

end

/-! ## Commands that find the boundary ended -/

section
variable {s t : State}

theorem catchUp_congr (h : s.closeInstant = t.closeInstant) : s.catchUp = t.catchUp := by
  unfold catchUp
  rw [h]

theorem boundary_congr (h : s.closeInstant = t.closeInstant) (sense : BitVec 16) (audio : List Upstream) :
    s.boundary sense audio = t.boundary sense audio := by
  unfold boundary finishDue
  rw [catchUp_congr h]

variable (hs : s.resetLow = false) (ht : t.resetLow = false) (h : s.closeInstant = t.closeInstant)
include hs ht h

theorem whenDue_congr (work : State → State) : s.whenDue work = t.whenDue work := by
  rw [whenDue, whenDue, whileUp_of_high hs, whileUp_of_high ht, h]

theorem upToDate_congr (work : State → State) : s.upToDate work = t.upToDate work := by
  rw [upToDate, upToDate, whileUp_of_high hs, whileUp_of_high ht, catchUp_congr h]

theorem taking_congr (f : Frame) (work : State → State) : s.taking f work = t.taking f work := by
  rw [taking, taking, upToDate_congr hs ht h]

theorem request_congr (kind tag : Byte) (body : List Byte) (allowed : Allowed) (handle : List Byte → State → State × Answer) :
    s.request kind tag body allowed handle = t.request kind tag body allowed handle := by
  rw [request, request, taking_congr hs ht h]

theorem later_congr (kind tag : Byte) (body : List Byte) (work : State → State) :
    s.later kind tag body work = t.later kind tag body work := by
  rw [later, later, taking_congr hs ht h]

end

end State

/-- Commands that end what the boundary left do the same before and after a part of it has been ended. -/
theorem exec_congr_of_closeInstant {s t : State} (hs : s.resetLow = false) (ht : t.resetLow = false)
    (h : s.closeInstant = t.closeInstant) (c : Instr) (switch : c ≠ .tableSwitch) (settle : c ≠ .rampSettle)
    (assert : c ≠ .resetAssert) (power : ∀ r1 r0, c ≠ .powerOn r1 r0) (release : ∀ r1 r0, c ≠ .resetRelease r1 r0) :
    exec c s = exec c t := by
  cases c with
  | powerOn r1 r0 => exact absurd rfl (power r1 r0)
  | resetAssert => exact absurd rfl assert
  | resetRelease r1 r0 => exact absurd rfl (release r1 r0)
  | tableSwitch => exact absurd rfl switch
  | rampSettle => exact absurd rfl settle
  | stopComplete | restartTakesEffect | linkFrameTimeout | settlingEvent | roomTimerExpiry | holdOffEnd | speakingClockSecond
  | secondBoundary => exact congrArg Host.Outcome.next (State.whenDue_congr hs ht h _)
  | blockBoundary sense audio =>
    refine congrArg Host.Outcome.next ?_
    rw [State.whileUp_of_high hs, State.whileUp_of_high ht, State.boundary_congr h]
  | stop | restart => exact congrArg Host.Outcome.next (State.later_congr hs ht h ..)
  | unknownKind => exact congrArg Host.Outcome.next (State.taking_congr hs ht h ..)
  | inputFull | linkFrameDiscard | frameSent | busExchange | unitReplyStatus | unitReplyAck | exchangeMissed
  | linkCharacterReceived | requestFrameQueued => exact congrArg Host.Outcome.next (State.upToDate_congr hs ht h _)
  | _ => exact congrArg Host.Outcome.next (State.request_congr hs ht h ..)

end Sys2Proof.Machine

open Sys2Proof.Machine

/-- Settles O32. -/
theorem channelsTakeSlotsAndTheTableSwitches : Obligations.ChannelsTakeSlotsAndTheTableSwitches := by
  unfold Obligations.ChannelsTakeSlotsAndTheTableSwitches
  refine ⟨fun s key absent => ⟨fun k h1 h2 free lowest => ?_, fun full => ?_⟩, fun _ _ _ => rfl, fun s up due => ?_,
    fun c d s t up canonical ends ht switch settle assert power release => ?_⟩
  · have dist := State.makeChannel_dist absent
    rw [State.freeLanguageSlot_eq_some h1 h2 free lowest] at dist
    replace dist : (s.makeChannel key).dist = (s.setSlot k (some key)).dist := dist
    obtain ⟨slot, -⟩ := State.service_of_absent absent
    have service : (s.makeChannel key).service key = .served k := by
      unfold State.service
      rw [dist]
      have nothing : tkeys (fun _ x => decide (x = some key)) s.dist.allocation.slots = [] := List.head?_eq_none_iff.1 slot
      have made : (s.setSlot k (some key)).dist.allocation.slotOf key = some k := by
        unfold SlotTable.slotOf
        rw [show (s.setSlot k (some key)).dist.allocation.slots = tput s.dist.allocation.slots k (some key) from rfl,
          tkeys_tput_of_nil nothing (by simp)]
        rfl
      rw [made]
    refine ⟨?_, fun j hj => ?_, ?_, service⟩
    · rw [dist]
      exact tget_tset_same none s.dist.allocation.slots k (some key)
    · rw [dist]
      exact tget_tset_other none s.dist.allocation.slots (some key) hj
    · rw [dist]
      rfl
  · have dist := State.makeChannel_dist absent
    rw [State.freeLanguageSlot_eq_none full] at dist
    replace dist : (s.makeChannel key).dist = (s.setUnserved (s.dist.unserved ++ [key])).dist := dist
    obtain ⟨slot, position⟩ := State.service_of_absent absent
    refine ⟨by rw [dist]; rfl, by rw [dist]; rfl, ?_⟩
    unfold State.service
    rw [dist]
    show (match s.dist.allocation.slotOf key with | some k => _ | none => _) = _
    rw [slot]
    show (match positionOf key (s.dist.unserved ++ [key]) 1 with | some i => _ | none => _) = _
    rw [positionOf_append position, Nat.add_comm]
  · refine ⟨_, congrArg Host.Outcome.next ((State.whileUp_of_high up _).trans (State.switchIfDue_of_due due)), rfl, rfl, rfl⟩
  · have moved : t.resetLow = false ∧ s.closeInstant = t.closeInstant := by
      rcases ends with rfl | rfl
      · obtain rfl := Host.Outcome.next.inj ((congrArg Host.Outcome.next (State.whileUp_of_high up State.switchIfDue)).symm.trans ht)
        refine ⟨?_, State.closeInstant_switchIfDue.symm⟩
        unfold State.switchIfDue
        split <;> exact up
      · obtain rfl := Host.Outcome.next.inj ((congrArg Host.Outcome.next (State.whileUp_of_high up State.nextRamp)).symm.trans ht)
        refine ⟨?_, (State.closeInstant_nextRamp canonical).symm⟩
        unfold State.nextRamp State.settleRamp
        split
        · exact up
        · split <;> exact up
    exact exec_congr_of_closeInstant up moved.1 moved.2 c switch settle assert power release

end

section
/-! SUPPORT. The exchanges of a bus: what the arbiter serves, whom it polls, and what a map carries (O33). -/

namespace Sys2Proof.Machine

namespace State

section
variable {s t u : State} {bus : BusId} {i a k b : Nat} {r : Room}

/-! ## The poll round (R72) -/

/-- In an ascending list, the first element that satisfies `p` is the lowest. -/
theorem find?_eq_some_of_pairwise {l : List Nat} {p : Nat → Bool} (ascending : l.Pairwise (· < ·)) :
    l.find? p = some a ↔ a ∈ l ∧ p a = true ∧ ∀ b ∈ l, p b = true → a ≤ b := by
  induction l with
  | nil => simp
  | cons x xs ih =>
    obtain ⟨above, ascending⟩ := List.pairwise_cons.1 ascending
    rw [List.find?_cons]
    cases px : p x with
    | true =>
      constructor
      · rintro ⟨⟩
        refine ⟨List.mem_cons_self .., px, fun b hb _ => ?_⟩
        rcases List.mem_cons.1 hb with rfl | hb
        · exact Nat.le_refl _
        · exact Nat.le_of_lt (above b hb)
      · rintro ⟨ha, -, low⟩
        rcases List.mem_cons.1 ha with rfl | ha
        · rfl
        · exact absurd (low x (List.mem_cons_self ..) px) (Nat.not_le.2 (above a ha))
    | false =>
      dsimp only
      rw [ih ascending]
      constructor
      · rintro ⟨ha, pa, low⟩
        refine ⟨List.mem_cons_of_mem _ ha, pa, fun b hb pb => ?_⟩
        rcases List.mem_cons.1 hb with rfl | hb
        · rw [px] at pb
          cases pb
        · exact low b hb pb
      · rintro ⟨ha, pa, low⟩
        refine ⟨?_, pa, fun b hb => low b (List.mem_cons_of_mem _ hb)⟩
        rcases List.mem_cons.1 ha with rfl | ha
        · rw [px] at pa
          cases pa
        · exact ha

theorem head?_eq_some_of_pairwise {l : List Nat} (ascending : l.Pairwise (· < ·)) :
    l.head? = some a ↔ a ∈ l ∧ ∀ b ∈ l, a ≤ b := by
  have first := find?_eq_some_of_pairwise (p := fun _ => true) (a := a) ascending
  rw [show l.find? (fun _ => true) = l.head? by cases l <;> rfl] at first
  simpa using first

theorem nextPoll_iff (ascending : (s.addresses i).Pairwise (· < ·)) : s.nextPoll i = some a ↔ a ∈ s.addresses i ∧
    ((∃ p, (s.bus i).pointer = some p ∧ p < a ∧ ∀ b ∈ s.addresses i, p < b → a ≤ b) ∨
      (∀ p, (s.bus i).pointer = some p → ∀ b ∈ s.addresses i, b ≤ p) ∧ ∀ b ∈ s.addresses i, a ≤ b) := by
  unfold nextPoll
  dsimp only
  cases pointer : (s.bus i).pointer with
  | none =>
    dsimp only
    rw [head?_eq_some_of_pairwise ascending]
    simp
  | some p =>
    have found := fun c => find?_eq_some_of_pairwise (p := fun x => decide (p < x)) (a := c) ascending
    simp only [decide_eq_true_eq] at found
    dsimp only
    cases above : (s.addresses i).find? (fun x => decide (p < x)) with
    | some c =>
      obtain ⟨hc, pc, low⟩ := (found c).1 above
      dsimp only
      constructor
      · rintro ⟨⟩
        exact ⟨hc, .inl ⟨p, rfl, pc, low⟩⟩
      · rintro ⟨ha, ⟨q, hq, pa, lowest⟩ | ⟨high, -⟩⟩
        · obtain rfl := Option.some.inj hq
          exact congrArg some (Nat.le_antisymm (low a ha pa) (lowest c hc pc))
        · exact absurd (high p rfl c hc) (Nat.not_le.2 pc)
    | none =>
      have none_above : ∀ c ∈ s.addresses i, c ≤ p := by simpa using above
      dsimp only
      rw [head?_eq_some_of_pairwise ascending]
      constructor
      · rintro ⟨ha, low⟩
        refine ⟨ha, .inr ⟨fun q hq => ?_, low⟩⟩
        obtain rfl := Option.some.inj hq
        exact none_above
      · rintro ⟨ha, ⟨q, hq, pa, -⟩ | ⟨-, low⟩⟩
        · obtain rfl := Option.some.inj hq
          exact absurd (none_above a ha) (Nat.not_le.2 pa)
        · exact ⟨ha, low⟩

/-! ## Frames of an exchange -/

/-- From `s` to `t` only the records of the units of bus `i` change. -/
structure UnitsOf (i : Nat) (s t : State) : Prop where
  eq : t = { s with buses := t.buses }
  here : t.bus i = { s.bus i with units := (t.bus i).units }
  others : ∀ j, j ≠ i → t.bus j = s.bus j

theorem UnitsOf.refl (s : State) : UnitsOf i s s := ⟨rfl, rfl, fun _ _ => rfl⟩

theorem UnitsOf.trans (h : UnitsOf i s t) (k : UnitsOf i t u) : UnitsOf i s u where
  eq := by rw [k.eq, h.eq]
  here := by rw [k.here, h.here]
  others j hj := (k.others j hj).trans (h.others j hj)

theorem UnitsOf.setUnit (v : UnitRecord) : UnitsOf i s (s.setUnit i a v) where
  eq := rfl
  here := by rw [setUnit_bus, if_pos rfl]
  others j hj := by rw [setUnit_bus, if_neg hj]

theorem UnitsOf.unitSegment (h : UnitsOf i s t) (a : Nat) : t.unitSegment i a = s.unitSegment i a := by
  rw [h.eq]
  rfl

/-- A unit is owed the map of segment `k` (R68 (2)). -/
def Owes (s : State) (i k a : Nat) : Prop :=
  (s.unit i a).presence = .present ∧ (s.unit i a).assigned = false ∧ s.unitSegment i a = k

/-- A run of units, each of which is owed the map where it is to be. -/
theorem oweMaps_run (l : List Nat) (s : State) : ∀ t, t = l.foldl (fun t a =>
      if (t.unit i a).presence = .present && !(t.unit i a).assigned && t.unitSegment i a = k then
        t.setUnit i a { t.unit i a with mapOwed := true }
      else t) s →
    UnitsOf i s t ∧ ∀ a, (a ∈ l ∧ s.Owes i k a → t.unit i a = { s.unit i a with mapOwed := true }) ∧
      (¬ (a ∈ l ∧ s.Owes i k a) → t.unit i a = s.unit i a) := by
  induction l generalizing s with
  | nil =>
    rintro t rfl
    exact ⟨.refl _, fun a => ⟨fun h => absurd h.1 List.not_mem_nil, fun _ => rfl⟩⟩
  | cons x xs ih =>
    intro t ht
    by_cases owes : s.Owes i k x
    · obtain ⟨units, records⟩ := ih (s.setUnit i x { s.unit i x with mapOwed := true }) t (by
        rw [ht, List.foldl_cons, if_pos]
        simpa [Owes, and_assoc] using owes)
      have same : ∀ a, State.Owes (s.setUnit i x { s.unit i x with mapOwed := true }) i k a ↔ s.Owes i k a := fun a => by
        unfold Owes
        rw [(UnitsOf.setUnit _).unitSegment, setUnit_unit]
        by_cases here : a = x
        · subst here
          simp
        · simp [here]
      refine ⟨(UnitsOf.setUnit _).trans units, fun a => ⟨fun h => ?_, fun h => ?_⟩⟩
      · by_cases tail : a ∈ xs
        · rw [(records a).1 ⟨tail, (same a).2 h.2⟩, setUnit_unit]
          split
          · next here => rw [here.2]
          · rfl
        · obtain rfl := (List.mem_cons.1 h.1).resolve_right tail
          rw [(records a).2 fun h' => tail h'.1, setUnit_unit, if_pos ⟨rfl, rfl⟩]
      · have other : a ≠ x := fun e => h ⟨e ▸ List.mem_cons_self .., e ▸ owes⟩
        rw [(records a).2 fun h' => h ⟨List.mem_cons_of_mem _ h'.1, (same a).1 h'.2⟩, setUnit_unit, if_neg fun e => other e.2]
    · obtain ⟨units, records⟩ := ih s t (by
        rw [ht, List.foldl_cons, if_neg]
        simpa [Owes, and_assoc] using owes)
      refine ⟨units, fun a => ⟨fun h => (records a).1 ⟨?_, h.2⟩, fun h => (records a).2 fun h' => h ⟨List.mem_cons_of_mem _ h'.1, h'.2⟩⟩⟩
      rcases List.mem_cons.1 h.1 with rfl | tail
      · exact absurd h.2 owes
      · exact tail

theorem oweMaps_units : UnitsOf i s (s.oweMaps i k) ∧ ∀ a,
    (a ∈ s.addresses i ∧ s.Owes i k a → (s.oweMaps i k).unit i a = { s.unit i a with mapOwed := true }) ∧
      (¬ (a ∈ s.addresses i ∧ s.Owes i k a) → (s.oweMaps i k).unit i a = s.unit i a) :=
  oweMaps_run _ s _ rfl

/-! ## What the arbiter does (R71) -/

theorem exec_busExchange (hi : i = bus.index) (up : s.resetLow = false) (due : s.NothingDue) (run : s.link.phase = .run)
    (idle : s.awaited i = none) : exec (.busExchange bus) s = .next (s.arbitrate i) := by
  subst hi
  refine congrArg Host.Outcome.next ((State.upToDate_of_nothingDue up due _).trans ?_)
  have nothing : s.lapse bus.index = s := by
    unfold lapse
    rw [idle]
  unfold beginExchange
  dsimp only
  rw [nothing, run]

theorem arbitrate_of_over (h : 4 ≤ (s.bus i).begun) : s.arbitrate i = s := if_pos h

theorem arbitrate_of_poll (h : (s.bus i).begun = 3 ∨ ((s.bus i).begun < 3 ∧ (s.bus i).nextItem = none)) :
    s.arbitrate i = s.poll i := by
  unfold arbitrate
  rcases h with last | ⟨early, none_⟩
  · rw [if_neg (by rw [last]; decide), if_pos (by rw [last])]
  · rw [if_neg (show ¬ 4 ≤ (s.bus i).begun by omega), if_neg (show ¬ (s.bus i).begun + 1 = 4 by omega), none_]

theorem arbitrate_of_item {it : Item} (early : (s.bus i).begun < 3) (next : (s.bus i).nextItem = some it) :
    s.arbitrate i = s.serve i it := by
  unfold arbitrate
  rw [if_neg (show ¬ 4 ≤ (s.bus i).begun by omega), if_neg (show ¬ (s.bus i).begun + 1 = 4 by omega), next]

/-! ## The command for a unit (R70) -/

theorem leave_unit {it : Item} (j a : Nat) : (s.leave i it).unit j a = s.unit j a := by
  unfold leave State.unit
  rw [setBus_bus]
  split
  · subst_vars
    rfl
  · rfl

theorem leave_commandFor {it : Item} : (s.leave i it).commandFor i a = s.commandFor i a := by
  unfold commandFor
  rw [leave_unit]
  rfl

theorem commandFor_of_unassigned (h : (s.unit i a).assigned = false) :
    s.commandFor i a = .assign (s.unitSegment i a) (s.indicationFor i a) := by
  unfold commandFor
  rw [h]
  rfl

section
variable (h : (s.unit i a).assigned = true)
include h

theorem commandFor_of_open (o : s.wantsOpen i a = true) : s.commandFor i a = .open_ (s.unitSlot i a) := by
  unfold commandFor
  rw [h, o]
  rfl

theorem commandFor_of_close (o : s.wantsOpen i a = false) (c : s.wantsClose i a = true) : s.commandFor i a = .close := by
  unfold commandFor
  rw [h, o, c]
  rfl

theorem commandFor_of_neither (o : s.wantsOpen i a = false) (c : s.wantsClose i a = false) :
    s.commandFor i a = .indicate (s.indicationFor i a) := by
  unfold commandFor
  rw [h, o, c]
  rfl

end

theorem wantsOpen_of_seat (small : i < 4) : s.wantsOpen i a = decide ((s.seat (i * 256 + a)).mic = .opening) := if_pos small

theorem wantsClose_of_seat (small : i < 4) : s.wantsClose i a = decide ((s.seat (i * 256 + a)).mic = .closing) := if_pos small

theorem wantsOpen_of_console : s.wantsOpen 4 a = decide ((s.console a).state = .cueing) := rfl

theorem wantsClose_of_console : s.wantsClose 4 a = decide ((s.console a).state = .releasing) := rfl

theorem indicationFor_of_seat {ind : Indication} (small : i < 4) (h : (s.seat (i * 256 + a)).indication = some ind) :
    s.indicationFor i a = ind := by
  unfold indicationFor shown
  rw [if_pos small, show s.seat (seatAt i a) = s.seat (i * 256 + a) from rfl, h]
  rfl

theorem indicationFor_of_console {ind : Indication} (h : (s.console a).indication = some ind) : s.indicationFor 4 a = ind := by
  show ((s.console a).indication).getD .noSession = ind
  rw [h]
  rfl

/-! ## What a map carries (R78) -/

theorem slotOf_eq_some_iff (ok : s.ChannelsOk) {key : Key} {j : Nat} :
    s.dist.allocation.slotOf key = some j ↔ tget none s.dist.allocation.slots j = some key := by
  constructor
  · exact Kept.slotOf_some ok.canonical
  · intro entry
    cases slot : s.dist.allocation.slotOf key with
    | none => exact absurd entry (Kept.slotOf_none slot j)
    | some l => rw [ok.one l j key (Kept.slotOf_some ok.canonical slot) entry]

theorem service_eq_served_iff (ok : s.ChannelsOk) {key : Key} {j : Nat} :
    s.service key = .served j ↔ tget none s.dist.allocation.slots j = some key := by
  rw [← slotOf_eq_some_iff ok]
  unfold service
  cases slot : s.dist.allocation.slotOf key with
  | some l => simp
  | none =>
    dsimp only
    cases positionOf key s.dist.unserved 1 <;> simp

end

end State

end Sys2Proof.Machine

open Sys2Proof.Machine

/-- Settles O33. -/
theorem busExchangeServesOrPolls : Obligations.BusExchangeServesOrPolls := by
  unfold Obligations.BusExchangeServesOrPolls
  intro s bus i hi up due run idle
  have exec := State.exec_busExchange hi up due run idle
  refine ⟨fun full => ?_, fun ascending a => State.nextPoll_iff ascending, fun polls => ?_, fun a early next => ?_, fun k early next => ?_⟩
  · rw [exec, State.arbitrate_of_over full]
  · rw [State.arbitrate_of_poll polls] at exec
    refine ⟨_, exec, fun a address => ?_, fun nobody => ?_, ?_⟩
    · unfold State.poll
      rw [address]
      simp [State.carry]
    · unfold State.poll
      rw [nobody]
      simp [State.carry]
    · unfold State.poll
      cases s.nextPoll i with
      | none => exact ⟨fun j hj => (State.setBus_bus ..).trans (if_neg hj), rfl⟩
      | some a => exact ⟨fun j hj => (State.setBus_bus ..).trans ((if_neg hj).trans ((State.setBus_bus ..).trans (if_neg hj))), rfl⟩
  · rw [State.arbitrate_of_item early next] at exec
    refine ⟨_, s.commandFor i a, exec, ?_, fun j hj => ?_, rfl, fun n small hn => ⟨fun ind unassigned shown => ?_, fun assigned =>
      ⟨fun k mic slot => ?_, fun mic => ?_, fun ind opening closing shown => ?_⟩⟩, fun four => ?_⟩
    · rw [← State.leave_commandFor (it := .unit a)]
      simp [State.serve, State.carry, State.leave]
    · exact (State.setBus_bus ..).trans ((if_neg hj).trans ((State.setBus_bus ..).trans (if_neg hj)))
    · subst hn
      rw [State.commandFor_of_unassigned unassigned, State.indicationFor_of_seat small shown]
      exact congrArg (fun k => Command.assign k ind) (if_pos small)
    · subst hn
      rw [State.commandFor_of_open assigned ((State.wantsOpen_of_seat small).trans (decide_eq_true mic))]
      refine congrArg Command.open_ ((if_pos small).trans ?_)
      rw [show s.seat (seatAt i a) = s.seat (i * 256 + a) from rfl, slot]
      rfl
    · subst hn
      exact State.commandFor_of_close assigned ((State.wantsOpen_of_seat small).trans (by rw [mic]; rfl))
        ((State.wantsClose_of_seat small).trans (decide_eq_true mic))
    · subst hn
      rw [State.commandFor_of_neither assigned ((State.wantsOpen_of_seat small).trans (decide_eq_false opening))
        ((State.wantsClose_of_seat small).trans (decide_eq_false closing)), State.indicationFor_of_seat small shown]
    · subst four
      refine ⟨fun ind unassigned shown => ?_, fun assigned => ⟨fun state => ?_, fun state => ?_, fun ind cueing releasing shown => ?_⟩⟩
      · rw [State.commandFor_of_unassigned unassigned, State.indicationFor_of_console shown]
        rfl
      · exact State.commandFor_of_open assigned (State.wantsOpen_of_console.trans (decide_eq_true state))
      · exact State.commandFor_of_close assigned (State.wantsOpen_of_console.trans (by rw [state]; rfl))
          (State.wantsClose_of_console.trans (decide_eq_true state))
      · rw [State.commandFor_of_neither assigned (State.wantsOpen_of_console.trans (decide_eq_false cueing))
          (State.wantsClose_of_console.trans (decide_eq_false releasing)), State.indicationFor_of_console shown]
  · rw [State.arbitrate_of_item early next] at exec
    obtain ⟨units, records⟩ := State.oweMaps_units (s := s.leave i (.map k)) (i := i) (k := k)
    refine ⟨_, (s.leave i (.map k)).mapContents k, exec, ?_, fun a => ?_, fun j hj => ?_, ?_, fun b r map room anchor ok => ?_⟩
    · have left : (s.leave i (.map k)).bus i = { s.bus i with queue := (s.bus i).queue.filter (· ≠ .map k) } := State.setBus_bus_same ..
      have owed := units.here
      rw [left] at owed
      have carried : (s.serve i (.map k)).bus i = { ((s.leave i (.map k)).oweMaps i k).bus i with
          exchange := some ⟨0, (s.leave i (.map k)).mapContents k, false⟩
          begun := (((s.leave i (.map k)).oweMaps i k).bus i).begun + 1 } := State.setBus_bus_same ..
      rw [carried, owed]
    · have carried : (s.serve i (.map k)).unit i a = ((s.leave i (.map k)).oweMaps i k).unit i a := by
        have written : (s.serve i (.map k)).bus i = { ((s.leave i (.map k)).oweMaps i k).bus i with
            exchange := some ⟨0, (s.leave i (.map k)).mapContents k, false⟩
            begun := (((s.leave i (.map k)).oweMaps i k).bus i).begun + 1 } := State.setBus_bus_same ..
        unfold State.unit
        rw [written]
      have same : (s.leave i (.map k)).Owes i k a ↔ s.Owes i k a := by
        unfold State.Owes
        rw [State.leave_unit]
        rfl
      rw [carried]
      split
      · next owes => rw [(records a).1 ⟨owes.1, same.2 owes.2⟩, State.leave_unit]
      · next owes => rw [(records a).2 fun h => owes ⟨h.1, same.1 h.2⟩, State.leave_unit]
    · exact (State.setBus_bus ..).trans ((if_neg hj).trans ((units.others j hj).trans ((State.setBus_bus ..).trans (if_neg hj))))
    · have carried : s.serve i (.map k) =
          { (s.leave i (.map k)).oweMaps i k with buses := (s.serve i (.map k)).buses } := rfl
      conv_lhs => rw [carried, units.eq]
      rfl
    · have roomOf : s.roomOf k = some r := by
        unfold State.roomOf
        rw [map]
        exact room
      have contents : (s.leave i (.map k)).mapContents k = .channelMap k (b - 1) (r.channelKeys.map (fun key =>
          (key.code, match s.service key with
            | .served slot => some slot
            | _ => none))) := by
        unfold State.mapContents
        rw [show (s.leave i (.map k)).roomOf k = some r from roomOf, ← anchor]
        rfl
      refine ⟨_, contents, fun quiet => ?_, fun running => ?_⟩
      · unfold Room.channelKeys
        rw [if_neg (by rcases quiet with h | h <;> rw [h] <;> decide)]
        rfl
      · have keys : r.channelKeys = r.profile.languages.map (fun c => ⟨b, c⟩) := by
          unfold Room.channelKeys
          rw [if_pos (by rcases running with h | h <;> rw [h] <;> rfl), anchor]
        rw [keys, List.map_map]
        refine ⟨by rw [List.map_map]; exact List.map_id _, fun p hp j => ?_⟩
        obtain ⟨key, hkey, rfl⟩ := List.mem_map.1 hp
        obtain ⟨c, -, rfl⟩ := List.mem_map.1 hkey
        rw [← State.service_eq_served_iff ok]
        show (match s.service ⟨b, c⟩ with | .served slot => some slot | _ => none) = some j ↔ s.service ⟨b, c⟩ = .served j
        cases s.service ⟨b, c⟩ <;> simp

end

section
/-! SUPPORT. The answer that makes a unit PRESENT (O35). -/

namespace Sys2Proof.Machine

namespace State

section
variable {s t : State} {bus : BusId} {i a n k : Nat} {it x' : Item} {x : Exchange} {c : UnitClass} {u v : UnitRecord}

/-! ## Items that join (R69) -/

theorem join_of_mem (h : it ∈ (s.bus i).queue) : s.join i it = s := if_pos (List.contains_iff_mem.2 h)

theorem join_queue : ((s.join i it).bus i).queue = if it ∈ (s.bus i).queue then (s.bus i).queue else (s.bus i).queue ++ [it] := by
  unfold join
  split
  · next listed => rw [if_pos (List.contains_iff_mem.1 listed)]
  · next absent => rw [if_neg fun h => absent (List.contains_iff_mem.2 h), setBus_bus_same]

theorem mem_join_self : it ∈ ((s.join i it).bus i).queue := by
  rw [join_queue]
  split
  · assumption
  · exact List.mem_append_right _ (List.mem_singleton_self it)

/-- A PRESENT unit that is not assigned is made due (R69). -/
theorem check_of_unassigned (inUse : s.inUse i a = true) (present : (s.unit i a).presence = .present)
    (unassigned : (s.unit i a).assigned = false) : s.check i a = s.join i (.unit a) := by
  unfold check unsettled
  rw [if_pos (by simp [inUse, present, unassigned])]

/-- A unit that is found: its record, and UNIT_PRESENCE. -/
def found (s : State) (i : Nat) (x : Exchange) (c : UnitClass) : State :=
  (s.heardAs i x { presence := .present, misses := 0, assigned := false, mapOwed := false, told := none,
                   held := (s.unit i x.address).held, reported := some c }).note
    (.unitPresence i x.address (s.unit i x.address).presence .present (some c))

theorem found_queue : ((s.found i x c).bus i).queue = (s.bus i).queue := by
  show (((State.setBus s i _).setUnit i x.address _).bus i).queue = _
  rw [setUnit_bus, if_pos rfl, setBus_bus_same]

/-- The answer of a unit that was not PRESENT: what its block makes of it, and its items. -/
theorem Awaits.answered_found (h : s.Awaits bus i x) (away : (s.unit i x.address).presence ≠ .present) (presses : Nat) (held : Bool)
    (c : UnitClass) : s.answered i x none presses held c =
    (((if i < 4 then (((s.found i x c).seatFound (seatAt i x.address)).check i x.address).join i
        (.map ((((s.found i x c).seatFound (seatAt i x.address)).check i x.address).seat (seatAt i x.address)).segment)
      else ((s.found i x c).consoleFound x.address).check i x.address).recordHeld i x.address held).check i x.address) := by
  unfold answered
  dsimp only
  rw [if_neg (by rw [endExchange_unit h.awaited]; exact away)]
  unfold becomePresent
  dsimp only
  rw [endExchange_unit h.awaited, endExchange_of_awaited h.awaited]
  by_cases small : i < 4
  · simp only [if_pos small]
    rfl
  · simp only [if_neg small]
    rfl

/-- Whether an address is in use is left by all work of the blocks. -/
theorem Works.inUse (h : s.Works t) (i a : Nat) : t.inUse i a = s.inUse i a := by
  have seat : (t.seat (seatAt i a)).installed = (s.seat (seatAt i a)).installed := (congrArg Seat.installed (h.seats (seatAt i a)) :)
  have booth := h.booths (consoleBooth a)
  unfold State.inUse consoleInUse
  rw [seat, booth]

/-- A unit that is PRESENT and not assigned stands in its queue after the check. -/
theorem mem_check (inUse : s.inUse i a = true) (present : (s.unit i a).presence = .present)
    (unassigned : (s.unit i a).assigned = false) : .unit a ∈ ((s.check i a).bus i).queue := by
  rw [check_of_unassigned inUse present unassigned]
  exact mem_join_self

theorem check_of_mem (h : .unit a ∈ (s.bus i).queue) : s.check i a = s := by
  unfold check
  split
  · exact join_of_mem h
  · rfl

/-! ## A seat whose unit is found (R76 (2), R96) -/

theorem seatFound_of_absent (h : (s.seat n).mic = .absent) :
    s.seatFound n = s.moveSeat n { s.seat n with mic := .idle } .absent .unitFound := if_pos h

theorem seatFound_seat (h : (s.seat n).mic = .absent) (m : Nat) : (s.seatFound n).seat m =
    if m = n then { s.seat n with mic := .idle, indication := ((s.seatFound n).seat n).indication } else s.seat m := by
  have written : ∀ m, (s.seatFound n).seat m = if m = n then { s.seat n with
      mic := .idle, indication := s.movedIndication n { s.seat n with mic := .idle } } else s.seat m := fun m => by
    rw [seatFound_of_absent h]
    exact moveSeat_seat rfl
  rw [written m, written n, if_pos rfl]

/-- The whole state after a seat has been found. -/
theorem seatFound_eq (h : (s.seat n).mic = .absent) : s.seatFound n = { s with
    floor := { s.floor with seats := (s.seatFound n).floor.seats }
    buses := (s.seatFound n).buses
    link := s.link.raise (.micState n (s.seatAnchor n) .absent .idle .unitFound (s.seat n).muted (s.seat n).slot) } := by
  rw [seatFound_of_absent h]
  refine (OnFloor.moveSeat (s := s)).eq_of_hall moveSeat_hall moveSeat_openingCount moveSeat_liveCount moveSeat_stampCount ?_
  exact moveSeat_link (x := { s.seat n with mic := .idle }) rfl

/-- A seat that moves makes its unit due, where that is PRESENT and not assigned. -/
theorem moveSeat_bus_of_unassigned {y : Seat} {old : Mic} {m : MicCause} (hi : seatBus n = i) (ha : seatAddress n = a)
    (hy : y.fixed = (s.seat n).fixed) (inUse : s.inUse i a = true) (present : (s.unit i a).presence = .present)
    (unassigned : (s.unit i a).assigned = false) : (s.moveSeat n y old m).buses = (s.join i (.unit a)).buses := by
  subst hi ha
  obtain ⟨z, hz⟩ : ∃ z, z = ((s.setSeat n y).noteMic n old m).setSeat n { ((s.setSeat n y).noteMic n old m).seat n with
    indication := ((s.setSeat n y).noteMic n old m).indicationOf n } := ⟨_, rfl⟩
  have works : s.Works z := by
    rw [hz]
    exact ((Works.setSeat n y hy).trans (.noteMic n old m)).trans (.setSeat n _ (by rfl))
  have buses : z.buses = s.buses := by
    rw [hz]
    rfl
  have moved : s.moveSeat n y old m = z.check (seatBus n) (seatAddress n) := by
    rw [hz]
    rfl
  have unit : z.unit (seatBus n) (seatAddress n) = s.unit (seatBus n) (seatAddress n) := works.unit ..
  rw [moved, check_of_unassigned (by rw [works.inUse, inUse]) (by rw [unit, present]) (by rw [unit, unassigned])]
  unfold join State.bus
  rw [buses]
  split
  · exact buses
  · unfold setBus
    rw [buses]

end

end State

end Sys2Proof.Machine

open Sys2Proof.Machine

/-- Settles O35. -/
theorem anAnswerMakesTheUnitPresent : Obligations.AnAnswerMakesTheUnitPresent := by
  unfold Obligations.AnAnswerMakesTheUnitPresent
  intro s bus presses i n x c u awaits hu away inUse
  subst hu
  have exec := awaits.exec_status presses (s.unit i x.address).held c
  rw [awaits.answered_found away] at exec
  have found : s.Heard (s.found i x c) i x { presence := .present, misses := 0, assigned := false, mapOwed := false, told := none
                                             held := (s.unit i x.address).held, reported := some c } :=
    State.heard_heardAs.queues fun _ => rfl
  refine ⟨fun small address hn absent => ?_, fun four absent off => ?_⟩
  · have seatAt : seatAt i x.address = n := hn.symm
    have bus : seatBus n = i := by
      unfold seatBus
      omega
    have addressOf : seatAddress n = x.address := by
      unfold seatAddress
      omega
    rw [if_pos small, seatAt] at exec
    obtain ⟨y, hy⟩ : ∃ y, y = (s.found i x c).seatFound n := ⟨_, rfl⟩
    have moves := hy.trans (State.seatFound_of_absent (s := s.found i x c) absent)
    rw [← hy] at exec
    have works : (s.found i x c).Works y := by
      rw [moves]
      exact .trans (.trans (.setSeat n _ (by rfl)) (.noteMic n .absent .unitFound)) (.reseat n)
    have unit : y.unit i x.address = _ := (works.unit i x.address).trans found.record
    have moved : y.buses = ((s.found i x c).join i (.unit x.address)).buses := by
      rw [moves]
      exact State.moveSeat_bus_of_unassigned bus addressOf rfl inUse (by rw [found.record]) (by rw [found.record])
    have movedBus : y.bus i = ((s.found i x c).join i (.unit x.address)).bus i := by
      unfold State.bus
      rw [moved]
    have queue : (y.bus i).queue = if .unit x.address ∈ (s.bus i).queue then (s.bus i).queue
        else (s.bus i).queue ++ [.unit x.address] := by
      rw [movedBus, State.join_queue, State.found_queue]
    have listed : .unit x.address ∈ (y.bus i).queue := by
      rw [movedBus]
      exact State.mem_join_self
    have seats : ∀ m, y.seat m = if m = n then { s.seat n with mic := .idle, indication := (y.seat n).indication } else s.seat m := by
      rw [hy]
      exact State.seatFound_seat (s := s.found i x c) absent
    rw [State.check_of_mem listed] at exec
    obtain ⟨z, hz⟩ : ∃ z, z = y.join i (.map (y.seat n).segment) := ⟨_, rfl⟩
    have zworks : (s.found i x c).Works z := by
      rw [hz]
      exact works.trans (.joinMap i _)
    have zunit : z.unit i x.address = _ := (zworks.unit i x.address).trans found.record
    have still : .unit x.address ∈ (z.bus i).queue := by
      rw [hz, State.join_queue]
      split
      · exact listed
      · exact List.mem_append_left _ listed
    have zfloor : z.floor = y.floor := by rw [hz, State.join_eq]
    rw [← hz, State.recordHeld_of_same (by rw [zunit]), State.check_of_mem still] at exec
    refine ⟨z, exec, found.queues zworks.queues, ?_, fun m hm => ?_, fun q1 q2 h1 h2 => ?_, ?_⟩
    · unfold State.seat
      rw [zfloor]
      exact (seats n).trans (if_pos rfl)
    · unfold State.seat
      rw [zfloor]
      exact (seats m).trans (if_neg hm)
    · rw [hz, State.join_queue, h2, h1, queue, seats n, if_pos rfl]
    · have equation := State.seatFound_eq (s := s.found i x c) absent
      rw [← hy] at equation
      rw [zfloor]
      conv_lhs => rw [hz, State.join_eq, ← hz]
      conv_lhs => rw [equation]
      rfl
  · subst four
    obtain ⟨y, hy⟩ : ∃ y, y = (s.found 4 x c).consoleFound x.address := ⟨_, rfl⟩
    have foundOff : (s.found 4 x c).CountersOff := ⟨off.off, off.none, off.open_⟩
    have equation : y = (((s.found 4 x c).moveConsole x.address .ready none).noteConsole x.address .absent .unitFound none).consoleWork
        x.address := hy.trans (if_pos absent)
    obtain ⟨state, owned, -, only⟩ := State.moved_console equation
    have onBooths : (s.found 4 x c).OnBooths y := by
      rw [equation]
      have moved : (s.found 4 x c).OnBooths (((s.found 4 x c).moveConsole x.address .ready none).noteConsole x.address .absent .unitFound none) :=
        (State.OnBooths.moveConsole x.address _ _).trans (.noteConsole x.address _ _ _)
      exact moved.trans (.consoleWork (moved.countersOff foundOff) x.address)
    have unit : (y.check 4 x.address).unit 4 x.address = _ := ((onBooths.works.trans (.check 4 x.address)).unit 4 x.address).trans found.record
    rw [if_neg (by decide), ← hy, State.recordHeld_of_same (by rw [unit])] at exec
    have checked := (onBooths.trans (.check 4 x.address)).trans (.check 4 x.address)
    refine ⟨_, exec, found.queues checked.works.queues, ?_, ?_, ?_, ?_, ?_⟩
    · rw [State.check_console, State.check_console, state]
    · rw [State.check_console, State.check_console, owned]
    · exact ⟨fun d hd => by rw [State.check_console, State.check_console]; exact only.1 d hd,
        fun b => by unfold State.boothAt; rw [State.check_booth, State.check_booth]; exact only.2 b⟩
    · refine State.mem_check ?_ (by rw [unit]) (by rw [unit])
      exact ((onBooths.works.trans (.check 4 x.address)).inUse 4 x.address).trans inUse
    · conv_lhs => rw [checked.eq]
      rfl

end

section
/-! SUPPORT. Where nobody waits, counting and the passage to DORMANT leave the seats that are ABSENT (O34). -/

namespace Sys2Proof.Machine

namespace State

section
variable {s t u : State} {n a b c i k : Nat} {r : Room}

/-- No entry waits in any queue. -/
def Vacant (s : State) : Prop := ∀ b q, s.room b = some q → q.queue = []

/-- Where nobody waits in `s`, nobody waits in `t`, and no seat in ABSENT has changed. -/
structure Rests (s t : State) : Prop where
  vacant : s.Vacant → t.Vacant
  absent : s.Vacant → ∀ m, (s.seat m).mic = .absent → t.seat m = s.seat m

namespace Rests

theorem refl (s : State) : s.Rests s := ⟨id, fun _ _ _ => rfl⟩

theorem trans (h : s.Rests t) (k : t.Rests u) : s.Rests u where
  vacant := k.vacant ∘ h.vacant
  absent v m hm := by
    have same := h.absent v m hm
    rw [← same]
    exact k.absent (h.vacant v) m (by rw [same, hm])

theorem fold {α : Type} {f : State → α → State} (hf : ∀ (v : State) x, v.Rests (f v x)) (xs : List α) (s : State) :
    s.Rests (xs.foldl f s) := by
  induction xs generalizing s with
  | nil => exact refl s
  | cons x xs ih => exact (hf s x).trans (ih _)

/-- A state with the same rooms and seats. -/
theorem of_same (rooms : t.hall.rooms = s.hall.rooms) (seats : t.floor.seats = s.floor.seats) : s.Rests t where
  vacant h b q hq := h b q (by unfold room at hq ⊢; rwa [← rooms])
  absent _ m _ := by
    unfold seat
    rw [seats]

theorem note (x : Notice) : s.Rests (s.note x) := of_same rfl rfl

theorem setCounts (x : CounterUnit) : s.Rests { s with counts := x } := of_same rfl rfl

theorem modRoom (a : Nat) (f : Room → Room) (hf : ∀ q : Room, q.queue = [] → (f q).queue = []) : s.Rests (s.modRoom a f) := by
  unfold State.modRoom
  split
  · exact refl s
  · next r hr =>
    refine ⟨fun v b q hq => ?_, fun _ _ _ => rfl⟩
    rw [setRoom_room] at hq
    split at hq
    · obtain rfl := Option.some.inj hq
      exact hf r (v a r hr)
    · exact v b q hq

theorem reform (n : Nat) : s.Rests (s.reform n) := by
  unfold State.reform
  split
  · exact refl s
  · next changed =>
    have present : (s.seat n).mic ≠ .absent := fun e => by simp [e] at changed
    refine ⟨fun v b q hq => v b q (reseat_room.symm.trans hq), fun _ m hm => ?_⟩
    rw [reseat_seat, if_neg fun e : m = n => present (e ▸ hm)]

theorem reformAll (ns : List Nat) : s.Rests (s.reformAll ns) := fold (fun _ n => reform n) ns s

/-! ## Counting -/

theorem queuedAmong_of_vacant (h : s.Vacant) (ns : List Nat) : s.queuedAmong ns = [] := by
  unfold queuedAmong
  refine List.flatMap_eq_nil_iff.2 fun a _ => ?_
  cases hr : s.room a with
  | none => rfl
  | some r =>
    dsimp only
    rw [h a r hr]
    rfl

theorem of_vacant (h : s.Vacant → s.Rests t) : s.Rests t := ⟨fun v => (h v).vacant v, fun v => (h v).absent v⟩

theorem counterBlocks (g : Nat) : s.Rests (s.counterBlocks g) := of_vacant fun vacant => by
  unfold State.counterBlocks
  dsimp only
  split
  · exact refl s
  · split
    · have marked : s.Rests ((s.setGroup g { s.group g with blocked := true }).noteGroup g true .counter) := of_same rfl rfl
      rw [queuedAmong_of_vacant (marked.vacant vacant)]
      exact marked.trans (reformAll _)
    · split
      · exact of_same rfl rfl
      · exact of_same rfl rfl

theorem addCounter (c k : Nat) : s.Rests (s.addCounter c k) := by
  unfold State.addCounter
  dsimp only
  split
  · exact of_same rfl rfl
  · have raised : s.Rests ((s.setCounter c { s.counter c with value := (s.counter c).value + k - (counterTop + 1) }).note
        (.counterOverflow c (s.counter c).event (s.counter c).scope (s.counter c).mode ((s.counter c).value + k - (counterTop + 1))
          (s.counter c).action)) := of_same rfl rfl
    split
    · exact raised.trans (counterBlocks _)
    · exact raised

theorem takeOccurrence (o : Occurrence) (c : Nat) : s.Rests (s.takeOccurrence o c) := by
  unfold State.takeOccurrence
  dsimp only
  split
  · split
    · exact addCounter c 1
    · exact of_same rfl rfl
  · exact refl s

theorem addOccurrences (fuel : Nat) (s : State) : s.Rests (Machine.addOccurrences fuel s) := by
  induction fuel generalizing s with
  | zero => exact refl s
  | succ fuel ih =>
    unfold Machine.addOccurrences
    split
    · exact refl s
    · exact ((setCounts _).trans (fold (fun _ c => takeOccurrence _ c) _ _)).trans (ih _)

theorem settleCounts : s.Rests s.settleCounts := by
  unfold State.settleCounts
  split
  · exact refl s
  · exact addOccurrences _ s

/-! ## The passage to DORMANT (R35) -/

theorem join (i : Nat) (it : Item) : s.Rests (s.join i it) := of_same (by rw [join_eq]) (by rw [join_eq])

theorem check (i a : Nat) : s.Rests (s.check i a) := of_same (by rw [check_eq]) (by rw [check_eq])

theorem queueMaps (ks : List Nat) : s.Rests (s.queueMaps ks) := fold (fun _ _ => fold (fun _ _ => join _ _) _ _) _ _

theorem queueRoomMaps (a : Nat) : s.Rests (s.queueRoomMaps a) := by
  unfold State.queueRoomMaps
  split
  · exact refl s
  · exact queueMaps _

theorem removeUnserved (key : Key) : s.Rests (s.removeUnserved key) := by
  unfold State.removeUnserved
  split
  · exact refl s
  · exact .trans (of_same (by rfl) (by rfl)) (queueRoomMaps _)

theorem giveSlot (k : Nat) : s.Rests (s.giveSlot k) := by
  unfold State.giveSlot
  split
  · exact of_same rfl rfl
  · exact (of_same rfl rfl : s.Rests (((s.setSlot k _).setUnserved _).note _)).trans (queueRoomMaps _)

theorem removeServed (key : Key) : s.Rests (s.removeServed key) := by
  unfold State.removeServed
  split
  · exact refl s
  · exact (queueRoomMaps _).trans (giveSlot _)

theorem removeChannels (ks : List Key) : s.Rests (s.removeChannels ks) :=
  (fold (fun _ key => removeUnserved key) _ _).trans (fold (fun _ key => removeServed key) _ _)

theorem relisten (b : Nat) : s.Rests (s.relisten b) := by
  unfold State.relisten
  dsimp only
  split
  · exact refl s
  · split
    · exact (of_same rfl rfl : s.Rests (((s.setBooth b _).note _).raiseBooth .relayFallback b)).trans settleCounts
    · exact of_same rfl rfl
    · exact of_same rfl rfl

theorem reconsole (c : Nat) : s.Rests (s.reconsole c) := by
  unfold State.reconsole
  split
  · exact refl s
  · exact (of_same rfl rfl : s.Rests (s.setConsole c _)).trans (check 4 c)

theorem boothWork (a : Nat) : s.Rests (s.boothWork a) :=
  (fold (fun _ b => relisten b) _ _).trans (fold (fun _ c => reconsole c) _ _)

theorem passToDormant (a : Nat) : s.Rests (s.passToDormant a) := by
  unfold State.passToDormant
  split
  · exact refl s
  · refine .trans (.trans (.trans (.trans (.trans (.trans (modRoom a _ fun _ h => ?_) (note _)) (removeChannels _)) (queueMaps _))
      (modRoom a _ fun _ h => ?_)) (reformAll _)) (boothWork a)
    · exact h
    · exact h

theorem passSeatRoom (n : Nat) : s.Rests (s.passSeatRoom n) := by
  unfold State.passSeatRoom
  split
  · exact refl s
  · unfold passIfEmpty
    split
    · exact refl s
    · split
      · exact passToDormant _
      · exact refl s

end Rests

/-! ## Priority that ends where nobody waits (R104) -/

theorem vacant_unmuteAll (h : s.Vacant) (a : Nat) : (s.unmuteAll a).Vacant := by
  have run : ∀ (ns : List Nat) (v : State), (ns.foldl (fun t n =>
      (t.setSeat n { t.seat n with muted := false }).noteMic n .live .priorityEnd) v).hall = v.hall := by
    intro ns
    induction ns with
    | nil => exact fun _ => rfl
    | cons n ns ih => exact fun v => ih _
  have hall : (s.unmuteAll a).hall = s.hall := by
    unfold unmuteAll
    split
    · rfl
    · exact run _ s
  intro b q hq
  exact h b q (by unfold room at hq ⊢; rwa [← hall])

theorem vacant_priorityReleased (h : s.Vacant) (a : Nat) : (s.priorityReleased a).Vacant := by
  unfold priorityReleased
  split
  · exact h
  · next r hr =>
    split
    · have ended : (s.endPriority a).Vacant :=
        vacant_unmuteAll ((Rests.modRoom a (fun r => { r with priority := false }) fun _ h => by exact h).vacant h) a
      cases room : (s.endPriority a).room a with
      | none =>
        unfold promote
        rw [room]
        exact ended
      | some q =>
        rw [promote_of_no_queue room (ended a q room)]
        exact ended
    · exact h

end

end State

end Sys2Proof.Machine

end

section
/-! SUPPORT. Answered and missed exchanges, and units that are lost (O34). -/

namespace Sys2Proof.Machine

namespace State

section
variable {s t u : State} {bus : BusId} {i a n m b k c' : Nat} {x : Exchange} {c : UnitClass} {v w : UnitRecord}

/-! ## A STATUS of a PRESENT unit (R68, R73) -/

/-- What an answered command makes of the record (R68). -/
def recorded (v : UnitRecord) : Command → UnitRecord
  | .assign _ ind => { v with assigned := true, mapOwed := false, told := some ind }
  | .indicate ind => { v with told := some ind }
  | _ => v

theorem Heard.join (h : s.Heard t i x v) (j k : Nat) : s.Heard (t.join j (.map k)) i x v := h.queues (join_queuesOnly j _)

/-- The record of a unit that has answered a command, and no part of the state but the buses has changed. -/
theorem heard_applyStatus (command : Command) :
    s.Heard ((s.heard i x c).applyStatus i x.address command) i x
        (recorded { s.unit i x.address with misses := 0, reported := some c } command) ∧
      (s.heard i x c).applyStatus i x.address command =
        { s with buses := ((s.heard i x c).applyStatus i x.address command).buses } := by
  have unit : (s.heard i x c).unit i x.address = { s.unit i x.address with misses := 0, reported := some c } := by
    rw [heardAs_unit, if_pos ⟨rfl, rfl⟩]
  cases command with
  | assign k ind =>
    unfold applyStatus
    dsimp only
    rw [unit]
    split
    · exact ⟨heard_heardAs.setUnit.join _ _, join_eq ..⟩
    · exact ⟨heard_heardAs.setUnit, rfl⟩
  | indicate ind =>
    unfold applyStatus
    dsimp only
    rw [unit]
    exact ⟨heard_heardAs.setUnit, rfl⟩
  | poll | open_ _ | close | channelMap _ _ _ | off => exact ⟨heard_heardAs, rfl⟩

theorem recorded_held (command : Command) : (recorded v command).held = v.held := by
  cases command <;> rfl

/-! ## A missed exchange (R74) -/

/-- The missed exchange is over, its unit's miss has been counted, and its item is back in the queue. -/
def missed (s : State) (i : Nat) (x : Exchange) : State :=
  (s.heardAs i x { s.unit i x.address with misses := min 3 ((s.unit i x.address).misses + 1) }).requeueMissed i x

theorem Awaits.missExchange_eq (h : s.Awaits bus i x) : s.missExchange i x = (s.missed i x).absentIfThird i x.address := by
  unfold missExchange countMiss
  rw [endExchange_unit h.awaited, endExchange_of_awaited h.awaited]
  rfl

theorem requeueMissed_eq : s.requeueMissed i x = { s with buses := (s.requeueMissed i x).buses } := by
  unfold requeueMissed
  split
  · rfl
  · dsimp only
    rw [join_eq]
    rfl

theorem requeueMissed_bus_other (h : m ≠ i) : (s.requeueMissed i x).bus m = s.bus m := by
  unfold requeueMissed
  split
  · rfl
  · exact ((setBus_bus ..).trans (if_neg h)).trans (join_bus_other h _)

theorem requeueMissed_bus : (s.requeueMissed i x).bus i = { s.bus i with
    queue := if x.command = .poll ∨ .unit x.address ∈ (s.bus i).queue then (s.bus i).queue else (s.bus i).queue ++ [.unit x.address]
    missed := if x.command = .poll then (s.bus i).missed else (s.bus i).missed ++ [.unit x.address] } := by
  unfold requeueMissed
  split
  · next poll => simp [poll]
  · next other =>
    have no : ¬ x.command = .poll := fun e => other e
    have joined := join_queuesOnly (s := s) i (.unit x.address) i
    rw [setBus_bus_same, joined, join_queue]
    simp [no]

theorem missed_eq : s.missed i x = { s with buses := (s.missed i x).buses } := by
  unfold missed
  rw [requeueMissed_eq]
  rfl

theorem heardAs_bus_other (h : m ≠ i) : (s.heardAs i x v).bus m = s.bus m := by
  rw [heardAs, setUnit_bus, if_neg h, setBus_bus, if_neg h]

theorem missed_bus_other (h : m ≠ i) : (s.missed i x).bus m = s.bus m := by
  rw [missed, requeueMissed_bus_other h, heardAs_bus_other h]

theorem heardAs_bus : (s.heardAs i x v).bus i = { s.bus i with
    units := tset UnitRecord.initial (s.bus i).units x.address v, exchange := some { x with awaiting := false } } := by
  rw [heardAs, setUnit_bus, if_pos rfl, setBus_bus_same]

theorem missed_bus : (s.missed i x).bus i = { s.bus i with
    queue := if x.command = .poll ∨ .unit x.address ∈ (s.bus i).queue then (s.bus i).queue else (s.bus i).queue ++ [.unit x.address]
    units := ((s.missed i x).bus i).units, exchange := some { x with awaiting := false }
    missed := if x.command = .poll then (s.bus i).missed else (s.bus i).missed ++ [.unit x.address] } := by
  rw [missed, requeueMissed_bus, heardAs_bus]

theorem missed_unit : (s.missed i x).unit i a = if a = x.address then
    { s.unit i x.address with misses := min 3 ((s.unit i x.address).misses + 1) } else s.unit i a := by
  have same : (s.missed i x).unit i a = (s.heardAs i x { s.unit i x.address with
      misses := min 3 ((s.unit i x.address).misses + 1) }).unit i a := by
    unfold missed State.unit
    rw [requeueMissed_bus]
  rw [same, heardAs_unit]
  simp

theorem absentIfThird_of_few (h : (s.unit i a).misses ≠ 3 ∨ (s.unit i a).presence = .absent) : s.absentIfThird i a = s := by
  refine if_neg ?_
  rcases h with h | h <;> simp [h]

theorem absentIfThird_of_third (h : (s.unit i a).misses = 3) (away : (s.unit i a).presence ≠ .absent) :
    s.absentIfThird i a = s.becomeAbsent i a := if_pos (by simp [h, away])

/-! ## The record of one unit -/

/-- From `s` to `t` the record of a unit has become `v`; every other unit and every bus controller is as it was, but for the items of
the queues; and the unit's item does not stand in its queue. -/
structure Lost (s t : State) (i a : Nat) (v : UnitRecord) : Prop where
  record : t.unit i a = v
  units : ∀ b, b ≠ a → t.unit i b = s.unit i b
  here : t.bus i = { s.bus i with queue := (t.bus i).queue, units := (t.bus i).units }
  others : ∀ j, j ≠ i → t.bus j = { s.bus j with queue := (t.bus j).queue }
  gone : .unit a ∉ (t.bus i).queue

theorem Lost.works (h : s.Lost t i a v) (k : t.Works u) (away : v.presence ≠ .present) : s.Lost u i a v where
  record := (k.unit i a).trans h.record
  units b hb := (k.unit i b).trans (h.units b hb)
  here := by rw [k.queues i, h.here]
  others j hj := by rw [k.queues j, h.others j hj]
  gone listed := h.gone (k.strays i a (by rwa [h.record]) listed)

theorem Lost.setUnit (h : s.Lost t i a v) : s.Lost (t.setUnit i a w) i a w where
  record := by rw [setUnit_unit, if_pos ⟨rfl, rfl⟩]
  units b hb := by rw [setUnit_unit, if_neg fun e => hb e.2, h.units b hb]
  here := by rw [setUnit_bus, if_pos rfl, h.here]
  others j hj := by
    rw [setUnit_bus, if_neg hj]
    exact h.others j hj
  gone := by
    rw [setUnit_bus, if_pos rfl]
    exact h.gone

/-- An item that leaves, and the record of its unit that is written. -/
theorem Lost.leave : s.Lost ((s.leave i (.unit a)).setUnit i a v) i a v where
  record := by rw [setUnit_unit, if_pos ⟨rfl, rfl⟩]
  units b hb := by rw [setUnit_unit, if_neg fun e => hb e.2, leave_unit]
  here := by
    rw [setUnit_bus, if_pos rfl]
    unfold State.leave
    rw [setBus_bus_same]
  others j hj := by
    rw [setUnit_bus, if_neg hj]
    unfold State.leave
    rw [setBus_bus, if_neg hj]
  gone listed := by
    rw [setUnit_bus, if_pos rfl] at listed
    unfold State.leave at listed
    rw [setBus_bus_same] at listed
    simp at listed

/-- A held state that ends with its unit. -/
theorem Lost.recordHeld (h : s.Lost t i a v) (away : v.presence ≠ .present) :
    s.Lost (t.recordHeld i a false) i a { v with held := false } := by
  cases held : v.held with
  | false =>
    rw [recordHeld_of_same (by rw [h.record, held])]
    rw [← held]
    exact h
  | true =>
    rw [recordHeld_of_change (by rw [h.record, held]; decide), h.record]
    exact h.setUnit.works (.heldChanged i a false) away

/-! ## What the loss of a unit brings (R77, R96, R138) -/

/-- A unit that has become ABSENT: its item and its record, and UNIT_PRESENCE. -/
def departed (s : State) (i a : Nat) : State :=
  ((s.leave i (.unit a)).setUnit i a { s.unit i a with presence := .absent, assigned := false, mapOwed := false, told := none }).note
    (.unitPresence i a (s.unit i a).presence .absent none)

/-- Its seat has given its slot back, and its held state has ended. -/
def departedSeat (s : State) (i a : Nat) : State :=
  ((s.departed i a).setSeat (seatAt i a) { s.seat (seatAt i a) with slot := none }).recordHeld i a false

theorem becomeAbsent_of_not_present (h : (s.unit i a).presence ≠ .present) : s.becomeAbsent i a = s.departed i a := if_neg h

theorem becomeAbsent_of_seat (small : i < 4) (h : (s.unit i a).presence = .present) :
    s.becomeAbsent i a = (s.departedSeat i a).seatLost (seatAt i a) (s.seat (seatAt i a)).slot.isSome := by
  refine (if_pos h).trans ?_
  dsimp only
  rw [if_pos small, if_pos small]
  rfl

theorem becomeAbsent_of_console (large : ¬ i < 4) (h : (s.unit i a).presence = .present) :
    s.becomeAbsent i a = ((s.departed i a).recordHeld i a false).consoleLost a := by
  refine (if_pos h).trans ?_
  dsimp only
  rw [if_neg large, if_neg large]
  rfl

/-- A seat that has left with its unit: off the queue and off the live list, cleared and reported (R96). -/
def leftSeat (s : State) (n : Nat) : State :=
  let y := if (s.seat n).mic = .queued then s.unqueue n else s
  (((y.setSeat n { y.seat n with
      mic := .absent, slot := none, openingNumber := none, liveNumber := none, stamp := none, clock := none, grant := none
      warned := false, limitReported := false, muted := false, pendingPress := false, holdOff := none
      holdOffDue := false, secondDue := false }).modSeatRoom n (fun r => { r with live := r.live.filter (· ≠ n) })).noteMic n
        (s.seat n).mic .unitLost).reseat n

theorem seatLost_eq (returned : Bool) : s.seatLost n returned =
    if returned then ((((s.leftSeat n).raiseSeat .unitLost n).settleCounts).passSeatRoom n).promoteAfterSlot n
    else ((((s.leftSeat n).raiseSeat .unitLost n).settleCounts).passSeatRoom n).promoteSeat n := rfl

theorem works_unqueued (n : Nat) : s.Works (if (s.seat n).mic = .queued then s.unqueue n else s) := by
  split
  · exact .unqueue n
  · exact .refl s

theorem Works.leftSeat (n : Nat) : s.Works (s.leftSeat n) := by
  unfold State.leftSeat
  dsimp only
  exact .trans (.trans (.trans (.trans (works_unqueued n) (.setSeat n _ (by rfl))) (.modSeatRoom n _ fun _ => by rfl)) (.noteMic n _ _))
    (.reseat n)

theorem Works.seatLost (n : Nat) (returned : Bool) : s.Works (s.seatLost n returned) := by
  have left := (((Works.leftSeat (s := s) n).trans (.raiseSeat .unitLost n)).trans .settleCounts).trans (.passSeatRoom n)
  rw [seatLost_eq]
  split
  · exact left.trans (.promoteAfterSlot n)
  · exact left.trans (.promoteSeat n)

theorem Works.consoleLost (c : Nat) : s.Works (s.consoleLost c) :=
  ((((Works.moveConsole c _ _).trans (.noteConsole c _ _ _)).trans (.raiseBooth _ _)).trans .settleCounts).trans (.consoleWork c)

theorem Lost.departed (away : v = { s.unit i a with presence := .absent, assigned := false, mapOwed := false, told := none }) :
    s.Lost (s.departed i a) i a v := by
  subst away
  exact Lost.leave.works (.note _) (by simp)

/-- What is known of a unit that has become ABSENT, whatever it stands for. -/
theorem Lost.becomeAbsent : s.Lost (s.becomeAbsent i a) i a
    { s.unit i a with presence := .absent, assigned := false, mapOwed := false, told := none
                      held := (s.unit i a).held && decide ((s.unit i a).presence ≠ .present) } := by
  by_cases present : (s.unit i a).presence = .present
  · simp only [present, ne_eq, not_true_eq_false, decide_false, Bool.and_false]
    by_cases small : i < 4
    · rw [becomeAbsent_of_seat small present]
      exact (((Lost.departed rfl).works (.setSeat _ _ (by rfl)) (by simp)).recordHeld (by simp)).works (.seatLost _ _) (by simp)
    · rw [becomeAbsent_of_console small present]
      exact ((Lost.departed rfl).recordHeld (by simp)).works (.consoleLost _) (by simp)
  · rw [becomeAbsent_of_not_present present]
    exact .departed (by simp [present])

/-! ## A seat that is lost where nobody waits -/

theorem vacant_chairHeld (h : s.Vacant) (n : Nat) : (s.chairHeld n false).Vacant := by
  unfold chairHeld
  split
  · exact h
  · exact vacant_priorityReleased h _

theorem vacant_recordHeld (h : s.Vacant) (small : i < 4) : (s.recordHeld i a false).Vacant := by
  unfold recordHeld heldChanged
  split
  · exact h
  · split
    · exact vacant_chairHeld (s := s.setUnit i a _) h _
    · exact h

theorem recordHeld_fixed (m : Nat) {held : Bool} : ((s.recordHeld i a held).seat m).fixed = (s.seat m).fixed := by
  unfold recordHeld
  split
  · rfl
  · exact (Works.heldChanged i a held).seats m

/-- What the end of its held state leaves of a console (R142). -/
theorem recordHeld_console (d : Nat) : (s.recordHeld 4 a false).console d =
    if d = a then { s.console a with cough := (s.console a).cough && !(s.unit 4 a).held } else s.console d := by
  cases held : (s.unit 4 a).held with
  | false =>
    rw [recordHeld_of_same held]
    split
    · subst_vars
      simp
    · rfl
  | true =>
    rw [recordHeld_of_change (by rw [held]; decide)]
    refine (coughHeld_console (s := s.setUnit 4 a _) false).trans ?_
    simp
    rfl

theorem recordHeld_booths (b : Nat) : (s.recordHeld 4 a false).boothAt b = { s.boothAt b with
    listen := ((s.recordHeld 4 a false).boothAt b).listen } := by
  unfold recordHeld
  split
  · rfl
  · exact (Works.heldChanged (s := s.setUnit 4 a _) 4 a false).booths b

theorem vacant_modSeatRoom (h : s.Vacant) (n : Nat) {f : Room → Room} (hf : ∀ q : Room, q.queue = [] → (f q).queue = []) :
    (s.modSeatRoom n f).Vacant := by
  unfold modSeatRoom
  split
  · exact h
  · exact (Rests.modRoom _ f hf).vacant h

theorem promoteSeat_of_vacant (vacant : s.Vacant) : s.promoteSeat n = s := by
  unfold promoteSeat
  split
  · rfl
  · next a _ =>
    cases hr : s.room a with
    | none =>
      unfold promote
      rw [hr]
    | some r => exact promote_of_no_queue hr (vacant a r hr)

theorem leftSeat_vacant (vacant : s.Vacant) (n : Nat) : (s.leftSeat n).Vacant := by
  have unqueued : (if (s.seat n).mic = .queued then s.unqueue n else s).Vacant := by
    split
    · exact vacant_modSeatRoom vacant n fun q hq => by
        show q.queue.filter _ = []
        rw [hq]
        rfl
    · exact vacant
  intro b q hq
  unfold leftSeat at hq
  dsimp only at hq
  rw [reseat_room] at hq
  exact vacant_modSeatRoom (s := State.setSeat _ n _) unqueued n (fun q hq => by exact hq) b q hq

/-- A seat in ABSENT shows nothing (R109). -/
theorem reseat_of_absent (h : (s.seat n).mic = .absent) : (s.reseat n).seat n = { s.seat n with indication := none } := by
  rw [reseat_seat, if_pos rfl]
  unfold indicationOf seatIndication
  rw [h]

theorem leftSeat_seat (n : Nat) : (s.leftSeat n).seat n = { (s.seat n).cleared with indication := none } := by
  have kept : ((if (s.seat n).mic = .queued then s.unqueue n else s).seat n).fixed = (s.seat n).fixed := (works_unqueued n).seats n
  unfold leftSeat
  dsimp only
  generalize (if (s.seat n).mic = .queued then s.unqueue n else s) = y at kept ⊢
  have written : ((((y.setSeat n { y.seat n with
      mic := .absent, slot := none, openingNumber := none, liveNumber := none, stamp := none, clock := none, grant := none
      warned := false, limitReported := false, muted := false, pendingPress := false, holdOff := none
      holdOffDue := false, secondDue := false }).modSeatRoom n (fun r => { r with live := r.live.filter (· ≠ n) })).noteMic n
        (s.seat n).mic .unitLost).seat n) = { (y.seat n).cleared with indication := (y.seat n).indication } :=
    (modSeatRoom_seat ..).trans (setSeat_seat_same ..)
  rw [reseat_of_absent (by rw [written]; rfl), written]
  exact congrArg (fun x : Seat => { x with indication := none }) kept

/-- A seat whose unit is lost where nobody waits keeps its installation and nothing else (R96). -/
theorem seatLost_seat (vacant : s.Vacant) (n : Nat) (returned : Bool) :
    (s.seatLost n returned).seat n = { (s.seat n).cleared with indication := none } := by
  have rests : (s.leftSeat n).Rests ((((s.leftSeat n).raiseSeat .unitLost n).settleCounts).passSeatRoom n) :=
    .trans (.trans (.of_same (by rfl) (by rfl)) .settleCounts) (.passSeatRoom n)
  have waiting := leftSeat_vacant vacant n
  have last : s.seatLost n returned = (((s.leftSeat n).raiseSeat .unitLost n).settleCounts).passSeatRoom n := by
    rw [seatLost_eq]
    split
    · exact promoteAfterSlot_of_no_queues (rests.vacant waiting)
    · exact promoteSeat_of_vacant (rests.vacant waiting)
  rw [last, rests.absent waiting n (by rw [leftSeat_seat]; rfl), leftSeat_seat]

/-! ## A console that is lost (R138 (1)) -/

theorem reconsole_console_of_absent {d : Nat} (h : (s.console c').state = .absent) (blank : (s.console c').indication = none) :
    (s.reconsole d).console c' = s.console c' := by
  unfold reconsole
  split
  · rfl
  · next changed =>
    have other : c' ≠ d := fun e => changed (by
      subst e
      unfold consoleIndication
      rw [h, blank])
    unfold showConsole
    rw [check_console, setConsole_console, if_neg other]

theorem reconsoles_console_of_absent (ds : List Nat) (h : (s.console c').state = .absent) (blank : (s.console c').indication = none) :
    (ds.foldl reconsole s).console c' = s.console c' := by
  induction ds generalizing s with
  | nil => rfl
  | cons d ds ih =>
    have same := reconsole_console_of_absent (d := d) h blank
    exact (ih (by rw [same, h]) (by rw [same, blank])).trans same

/-- Work of the booths does not touch a console in ABSENT, which shows nothing. -/
theorem consoleWork_console_of_absent {d : Nat} (h : (s.console c').state = .absent) (blank : (s.console c').indication = none) :
    (s.consoleWork d).console c' = s.console c' := by
  unfold consoleWork
  split
  · exact reconsole_console_of_absent h blank
  · next a _ =>
    have same : (s.relistenIn (s.segmentsOf a)).console c' = s.console c' := by
      unfold console
      rw [relistenIn_consoles]
    exact (reconsoles_console_of_absent _ (by rw [same, h]) (by rw [same, blank])).trans same

/-- The console that has moved to ABSENT, and its notice. -/
def leftConsole (s : State) (d : Nat) : State :=
  (s.moveConsole d .absent none).noteConsole d (s.console d).state .unitLost none

theorem consoleLost_eq {d : Nat} : s.consoleLost d = (((s.leftConsole d).raiseBooth .unitLost (consoleBooth d)).settleCounts).consoleWork d :=
  rfl

theorem leftConsole_console {d e : Nat} : (s.leftConsole d).console e =
    if e = d then { s.console d with state := .absent, owned := none, indication := none } else s.console e := by
  have moved : (s.leftConsole d).console e = (s.moveConsole d .absent none).console e := rfl
  rw [moved, moveConsole_console]
  refine ite_congr rfl (fun _ => ?_) fun _ => rfl
  have shown : (s.moveConsole d .absent none).console d = { s.console d with state := .absent, owned := none, indication := none } := by
    unfold moveConsole showConsole
    rw [check_console, setConsole_console_same]
    unfold consoleIndication
    rw [setConsole_console_same]
  rw [shown]

/-- A console whose unit is lost is ABSENT without a channel and shows nothing, and no other console moves (R138 (1)). -/
theorem consoleLost_console (d : Nat) : (s.consoleLost d).console d = { s.console d with state := .absent, owned := none, indication := none } ∧
    s.OnlyConsole (s.consoleLost d) d := by
  obtain ⟨y, hy⟩ : ∃ y, y = (((s.leftConsole d).raiseBooth .unitLost (consoleBooth d)).settleCounts) := ⟨_, rfl⟩
  have same : ∀ e, y.console e = (s.leftConsole d).console e := fun e => by
    unfold console
    rw [hy, Sheds.settleCounts.booth]
    rfl
  have lost : s.consoleLost d = y.consoleWork d := hy ▸ rfl
  have here : y.console d = { s.console d with state := .absent, owned := none, indication := none } := by
    rw [same, leftConsole_console, if_pos rfl]
  refine ⟨?_, fun e he => ?_, (Works.consoleLost d).booths⟩
  · rw [lost, consoleWork_console_of_absent (by rw [here]) (by rw [here]), here]
  · rw [lost, OnlyShows.consoleWork d e, same, leftConsole_console, if_neg he]

/-! ## A console without a channel that is lost -/

/-- Who owns a channel, where each has one owner at most. -/
theorem ownerOf_eq_some_iff (ok : s.OwnersOk) {key : Key} {o : Nat} : s.ownerOf key = some o ↔ (s.console o).owned = some key := by
  constructor
  · exact Kept.owned_of_ownerOf ok
  · intro owned
    cases owner : s.ownerOf key with
    | none => exact absurd owned (Kept.owned_of_ownerOf_none owner o)
    | some d => rw [ok.one d o key (Kept.owned_of_ownerOf ok owner) owned]

/-- A console without a channel leaves, and what each booth is to listen to stays. -/
theorem leftConsole_listensRight {d : Nat} (ok : s.OwnersOk) (right : s.ListensRight) (free : (s.console d).owned = none) :
    (s.leftConsole d).ListensRight := by
  have kept : (s.leftConsole d).OwnersOk := ((Kept.moveFree (.refl s) d .absent (by decide)).noteConsole _ _ _ _).owners ok
  have booths : ∀ b, (s.leftConsole d).boothAt b = s.boothAt b := fun b => by
    have eq : (s.leftConsole d).booth.booths = s.booth.booths := by
      unfold leftConsole moveConsole showConsole
      show (State.check _ 4 d).booth.booths = _
      rw [check_booth]
      rfl
    unfold boothAt
    rw [eq]
  have owner : ∀ key, (s.leftConsole d).ownerOf key = s.ownerOf key := fun key => by
    refine Option.ext fun o => ?_
    rw [ownerOf_eq_some_iff kept, ownerOf_eq_some_iff ok, leftConsole_console]
    split
    · subst_vars
      simp [free]
    · rfl
  have works : s.OnBooths (s.leftConsole d) := (OnBooths.moveConsole d _ _).trans (.noteConsole d _ _ _)
  intro b
  rw [booths, right b]
  unfold listenOf
  rw [booths]
  cases (s.boothAt b).source with
  | floor => rfl
  | relay code =>
    have room : (s.leftConsole d).boothRoom b = s.boothRoom b := by
      unfold boothRoom roomOf State.anchorOf State.room
      rw [booths, works.shown.hall]
    dsimp only
    rw [room]
    cases s.boothRoom b with
    | none => rfl
    | some r =>
      have channel : (s.leftConsole d).hasChannel ⟨r.anchor, code⟩ = s.hasChannel ⟨r.anchor, code⟩ := by
        unfold hasChannel service
        rw [works.dist]
      dsimp only
      rw [channel, owner]
      cases ho : s.ownerOf ⟨r.anchor, code⟩ with
      | none => rfl
      | some o =>
        have other : o ≠ d := fun e => by
          have owned := Kept.owned_of_ownerOf ok ho
          rw [e, free] at owned
          cases owned
        dsimp only
        rw [leftConsole_console, if_neg other, booths]

theorem consoleWork_link_of_right (h : s.ListensRight) (d : Nat) : (s.consoleWork d).link = s.link := by
  unfold consoleWork
  split
  · exact reconsole_link d
  · exact boothWork_link_of_right h _

theorem reconsole_booths (d : Nat) : (s.reconsole d).booth.booths = s.booth.booths := by
  unfold reconsole showConsole
  split
  · rfl
  · rw [check_booth]
    rfl

theorem reconsoles_booths (ds : List Nat) : (ds.foldl reconsole s).booth.booths = s.booth.booths := by
  induction ds generalizing s with
  | nil => rfl
  | cons d ds ih => exact ih.trans (reconsole_booths d)

theorem consoleWork_booths_of_right (h : s.ListensRight) (d : Nat) : (s.consoleWork d).booth.booths = s.booth.booths := by
  unfold consoleWork
  split
  · exact reconsole_booths d
  · unfold boothWork
    rw [relistenIn_of_right h]
    exact reconsoles_booths _

/-- The whole state after the loss of a console without a channel, where every booth listens as it is to and no counter is enabled. -/
theorem consoleLost_of_free {d : Nat} (off : s.CountersOff) (ok : s.OwnersOk) (right : s.ListensRight)
    (free : (s.console d).owned = none) : s.consoleLost d = { s with
      booth := { s.booth with consoles := (s.consoleLost d).booth.consoles }
      buses := (s.consoleLost d).buses
      link := s.link.raise (.boothState (consoleBooth d) d (s.boothAnchor (consoleBooth d)) (s.console d).state .absent .unitLost none
        none) } := by
  have moved : s.OnBooths (s.leftConsole d) := (OnBooths.moveConsole d _ _).trans (.noteConsole d _ _ _)
  have listens := leftConsole_listensRight ok right free
  have lost : s.consoleLost d = (s.leftConsole d).consoleWork d := by
    rw [consoleLost_eq, raiseBooth, settleCounts_raise (moved.countersOff off)]
  have whole := (moved.trans (.consoleWork (moved.countersOff off) d)).eq
  rw [← lost] at whole
  have booths : (s.consoleLost d).booth.booths = s.booth.booths := by
    rw [lost, consoleWork_booths_of_right listens]
    unfold leftConsole moveConsole showConsole
    show (State.check _ 4 d).booth.booths = _
    rw [check_booth]
    rfl
  have link : (s.consoleLost d).link = s.link.raise (.boothState (consoleBooth d) d (s.boothAnchor (consoleBooth d)) (s.console d).state
      .absent .unitLost none none) := by
    rw [lost, consoleWork_link_of_right listens]
    unfold leftConsole noteConsole
    show (s.moveConsole d .absent none).link.raise (.boothState _ d ((s.moveConsole d .absent none).boothAnchor _) _
      ((s.moveConsole d .absent none).console d).state _ ((s.moveConsole d .absent none).console d).owned none) = _
    rw [moveConsole_console, if_pos rfl, (Works.moveConsole d _ _).boothAnchor]
    have same : (s.moveConsole d .absent none).link = s.link := by
      unfold moveConsole showConsole
      exact (State.check_link ..).trans rfl
    rw [same]
  rw [link] at whole
  have parts : (s.consoleLost d).booth = { s.booth with consoles := (s.consoleLost d).booth.consoles } := by
    show _ = BoothUnit.mk s.booth.booths _
    rw [← booths]
  rwa [parts] at whole

end

end State

end Sys2Proof.Machine

open Sys2Proof.Machine

/-- Settles O34. -/
theorem answeredAndMissedExchanges : Obligations.AnsweredAndMissedExchanges := by
  unfold Obligations.AnsweredAndMissedExchanges
  refine ⟨fun s bus i x c awaits present => ?_, fun s bus i x awaits => ⟨fun few => ?_, fun third away => ?_⟩⟩
  · have exec := awaits.exec_status 0 (s.unit i x.address).held c
    rw [awaits.answered_status present] at exec
    obtain ⟨heard, frame⟩ := State.heard_applyStatus (s := s) (i := i) (x := x) (c := c) x.command
    have record : State.recorded { s.unit i x.address with misses := 0, reported := some c } x.command =
        (match x.command with
          | .assign _ ind => { s.unit i x.address with misses := 0, reported := some c, assigned := true, mapOwed := false, told := some ind }
          | .indicate ind => { s.unit i x.address with misses := 0, reported := some c, told := some ind }
          | _ => { s.unit i x.address with misses := 0, reported := some c }) := by
      cases x.command <;> rfl
    have silent : State.recordHeld ((s.heard i x c).applyStatus i x.address x.command) i x.address (s.unit i x.address).held = _ :=
      State.recordHeld_of_same (by rw [heard.record, State.recorded_held])
    rw [show (0 : BitVec 2).toNat = 0 from rfl, State.presses, silent] at exec
    have checked := heard.queues (State.check_queuesOnly i x.address)
    rw [record] at checked
    exact ⟨_, exec, checked, (State.check_eq ..).trans (by rw [frame])⟩
  · have exec := awaits.exec_missed
    rw [awaits.missExchange_eq, State.absentIfThird_of_few] at exec
    · refine ⟨_, exec, ?_, fun a ha => ?_, State.missed_bus, fun j hj => State.missed_bus_other hj, State.missed_eq⟩
      · rw [State.missed_unit, if_pos rfl]
      · rw [State.missed_unit, if_neg ha]
    · rw [State.missed_unit, if_pos rfl]
      rcases few with few | few
      · exact .inl (by dsimp only; omega)
      · exact .inr few
  · have exec := awaits.exec_missed
    rw [awaits.missExchange_eq, State.absentIfThird_of_third (by rw [State.missed_unit, if_pos rfl, third]; rfl)
      (by rw [State.missed_unit, if_pos rfl]; exact away)] at exec
    have lost := State.Lost.becomeAbsent (s := s.missed i x) (i := i) (a := x.address)
    refine ⟨_, exec, ?_, fun a ha => ?_, lost.gone, ?_, fun j hj => ?_, fun present small address vacant => ?_, fun c four hc present => ?_⟩
    · rw [lost.record, State.missed_unit, if_pos rfl, third]
      rfl
    · rw [lost.units a ha, State.missed_unit, if_neg ha]
    · rw [lost.here, State.missed_bus]
    · rw [lost.others j hj, State.missed_bus_other hj]
    · obtain ⟨z, hz⟩ : ∃ z, z = s.missed i x := ⟨_, rfl⟩
      have unit : (z.unit i x.address).presence = .present := by
        rw [hz, State.missed_unit, if_pos rfl]
        exact present
      have hall : z.hall = s.hall := by rw [hz, State.missed_eq]
      have floor : z.floor = s.floor := by rw [hz, State.missed_eq]
      have waiting : z.Vacant := fun b q hq => vacant b q (by unfold State.room at hq ⊢; rwa [← hall])
      have seat : ∀ m, z.seat m = s.seat m := fun m => by
        unfold State.seat
        rw [floor]
      have w : (z.departedSeat i x.address).Vacant :=
        State.vacant_recordHeld (s := (z.departed i x.address).setSeat _ _) waiting small
      have kept : ((z.departedSeat i x.address).seat (i * 256 + x.address)).fixed = (s.seat (i * 256 + x.address)).fixed := by
        rw [← seat]
        refine (State.recordHeld_fixed _).trans ?_
        rw [State.setSeat_seat]
        split
        · subst_vars
          rfl
        · rfl
      rw [← hz, State.becomeAbsent_of_seat small unit]
      refine (State.seatLost_seat w _ _).trans ?_
      exact congrArg (fun x : Seat => { x with indication := none }) kept
    · subst four hc
      obtain ⟨z, hz⟩ : ∃ z, z = s.missed 4 x := ⟨_, rfl⟩
      have unit : z.unit 4 x.address = { s.unit 4 x.address with misses := 3 } := by
        rw [hz, State.missed_unit, if_pos rfl, third]
        rfl
      have same : z = { s with buses := z.buses } := hz ▸ State.missed_eq
      have console : ∀ d, z.console d = s.console d := fun d => by rw [same]; rfl
      have departedUnit : ((z.departed 4 x.address).unit 4 x.address).held = (s.unit 4 x.address).held := by
        rw [(State.Lost.departed rfl).record, unit]
      obtain ⟨here, only⟩ := State.consoleLost_console (s := (z.departed 4 x.address).recordHeld 4 x.address false) x.address
      have before : ∀ d, ((z.departed 4 x.address).recordHeld 4 x.address false).console d = if d = x.address then
          { s.console x.address with cough := (s.console x.address).cough && !(s.unit 4 x.address).held } else s.console d := fun d => by
        rw [State.recordHeld_console, departedUnit, ← console, ← console]
        rfl
      rw [← hz, State.becomeAbsent_of_console (by decide) (by rw [unit]; exact present)]
      refine ⟨?_, ⟨fun d hd => ?_, fun b => ?_⟩, fun off ok right free unheld => ?_⟩
      · rw [here, before, if_pos rfl]
      · rw [only.1 d hd, before, if_neg hd]
      · rw [only.2 b, State.recordHeld_booths]
        rw [show (z.departed 4 x.address).boothAt b = s.boothAt b by rw [same]; rfl]
      · rw [State.recordHeld_of_same (by rw [departedUnit, unheld])]
        have presence : (z.unit 4 x.address).presence = .present := by
          rw [unit]
          exact present
        obtain ⟨buses, rfl⟩ : ∃ buses, z = { s with buses := buses } := ⟨_, same⟩
        have lost := State.consoleLost_of_free (s := State.departed { s with buses := buses } 4 x.address) (d := x.address)
          ⟨off.off, off.none, off.open_⟩ ⟨ok.canonical, ok.owner, ok.one⟩ right free
        refine lost.trans ?_
        unfold State.departed
        rw [presence]
        rfl

end

section
/-! SUPPORT. A state in which the queue that a priority empties frees an upstream slot, which refutes O26. -/

namespace Sys2Proof.Machine

namespace State

/-- A room of action CLOSE_AND_CLEAR in which seat 2 waits. -/
def clearedRoom : Room :=
  { anchor := 1, segments := [1], session := .inSession
    profile := { Profile.defaults with action := .closeAndClear, chairLimit := 1 }, ceiling := 0, level := 0, ramp := .settled
    wake := Wake.empty, timer := none, live := [], queue := [⟨2, 0, 1⟩], rotation := none, priority := false, settleDue := false }

/-- A chair, seat 1, is about to report PRIORITY held. The seat table lists seat 2 twice: it reads the first record, which has a stamp
and no slot, while the second, which it does not read, holds slot 0. No hypothesis of O26 asks for a table in canonical form. -/
def shadowedHolder : State := { State.reset with
  hall := { State.reset.hall with rooms := [(1, some clearedRoom)], segmentMap := [(1, some 1)] }
  floor := { State.reset.floor with
    seats := [(1, { Seat.initial with installed := true, cls := .chair, mic := .idle }),
      (2, { Seat.initial with stamp := some 0 }), (2, { Seat.initial with slot := some 0 })]
    stampCount := 1 }
  buses := [(0, { Bus.initial with
    units := [(1, { UnitRecord.initial with presence := .present, assigned := true })]
    exchange := some ⟨1, .poll, true⟩ })]
  link := { State.reset.link with phase := .run } }

theorem shadowedHolder_nothingDue : shadowedHolder.NothingDue where
  ramps := by decide +kernel
  switch := rfl
  receiver := rfl
  inputs := by decide +kernel
  restart := rfl
  timers := by decide +kernel
  seats := by decide +kernel
  counters := rfl
  stopping := .inl rfl

theorem shadowedHolder_awaits : shadowedHolder.AwaitsSeat .d0 0 1 1 ⟨1, .poll, true⟩ clearedRoom where
  index := rfl
  up := rfl
  due := shadowedHolder_nothingDue
  awaited := by decide +kernel
  small := by decide
  number := rfl
  present := by decide +kernel
  seat := ⟨by decide, by decide +kernel, by decide +kernel, by decide +kernel, rfl⟩
  counters := ⟨by decide +kernel, rfl, rfl⟩

/-- The record of seat 2 becomes the initial one as its entry is dropped, and both listings go: the chair finds slot 0 free. -/
theorem shadowedHolder_opens {t : State} (h : exec (.unitReplyStatus .d0 0 true .chair) shadowedHolder = .next t) :
    (t.seat 1).slot = some 0 := by
  have run : t = shadowedHolder.upToDate (fun v => v.hear 0 none 0 true .chair) := (Host.Outcome.next.inj h).symm
  rw [run]
  decide +kernel

end State

end Sys2Proof.Machine

open Sys2Proof.Machine

/-- Refutes O26: where the seat table is not in canonical form, emptying the queue under CLOSE_AND_CLEAR can free an upstream slot
that was held, so that the chair does not open with the lowest slot that was free before. -/
theorem not_chairsPressAndHoldPriority : ¬ Obligations.ChairsPressAndHoldPriority := by
  unfold Obligations.ChairsPressAndHoldPriority
  intro claim
  obtain ⟨-, held, -⟩ := claim State.shadowedHolder .d0 0 1 1 1 ⟨1, .poll, true⟩ .chair State.clearedRoom
    State.shadowedHolder_awaits rfl rfl (by decide +kernel)
  obtain ⟨t, run, -, -, clears, -⟩ := held (by decide +kernel)
  obtain ⟨-, -, opens, -⟩ := clears rfl (by decide) (by decide +kernel)
  obtain ⟨seat, -⟩ := opens (by decide +kernel) (by decide +kernel) (by decide +kernel) (by decide)
  have slot : (t.seat 1).slot = some 1 := by rw [seat]
  rw [State.shadowedHolder_opens run] at slot
  cases slot

end

section
/-! SUPPORT. Indications that are formed again, drops one after another, and the blocking of seat groups (O28, O29). -/

namespace Sys2Proof.Machine

namespace State

section
variable {s t : State} {n m a b g : Nat} {r : Room} {x : Group} {ms : List Nat}

/-! ## Indications formed again (R109) -/

/-- Only a seat in IDLE shows whether it is blocked. -/
theorem seatIndication_of_not_idle {y : Seat} (h : y.mic ≠ .idle) (session : Option Session) (blocked blocked' : Bool) :
    seatIndication y session blocked = seatIndication y session blocked' := by
  unfold seatIndication
  cases hm : y.mic with
  | idle => exact absurd hm h
  | absent => rfl
  | queued => rfl
  | opening => rfl
  | live => rfl
  | closing => rfl
  | holdOff => rfl

theorem seatIndication_of_idle {y : Seat} (h : y.mic = .idle) (blocked : Bool) :
    seatIndication y (some .inSession) blocked = some (if blocked then .blocked else .idle) := by
  unfold seatIndication
  rw [h]
  cases blocked <;> rfl

theorem Shown.seatRoom (h : s.Shown t) (n : Nat) : t.seatRoom n = s.seatRoom n := by
  unfold State.seatRoom roomOf State.anchorOf State.room
  rw [h.hall, h.seats]

theorem Shown.indicationOf (h : s.Shown t) (hb : t.blocked n = s.blocked n) : t.indicationOf n = s.indicationOf n := by
  unfold State.indicationOf
  rw [h.seatRoom, h.seats, hb]
  rfl

theorem Sheds.session (h : s.Sheds t) (n : Nat) : (t.seatRoom n).map Room.session = (s.seatRoom n).map Room.session := by
  unfold State.seatRoom roomOf
  rw [h.seat_segment, h.anchorOf]
  cases s.anchorOf (s.seat n).segment with
  | none => rfl
  | some a =>
    show (t.room a).map Room.session = (s.room a).map Room.session
    cases hr : s.room a with
    | none => rw [h.noRoom a hr]
    | some r =>
      obtain ⟨q, hq, -⟩ := h.room a r hr
      rw [hq]
      rfl

theorem OnFloor.reform (n : Nat) : s.OnFloor (s.reform n) := by
  unfold State.reform
  split
  · exact .refl s
  · exact .reseat n

theorem OnFloor.reformAll (ns : List Nat) : s.OnFloor (s.reformAll ns) := .fold (fun _ n => .reform n) ns s

theorem reform_seat : (s.reform m).seat n =
    if n = m ∧ (s.seat n).mic ≠ .absent then { s.seat n with indication := s.indicationOf n } else s.seat n := by
  unfold reform
  split
  · next same =>
    split
    · next here =>
      obtain ⟨rfl, present⟩ := here
      have shown : (s.seat n).indication = s.indicationOf n := by simpa [present] using same
      rw [← shown]
    · rfl
  · next changes =>
    rw [reseat_seat]
    by_cases here : n = m
    · subst here
      have present : (s.seat n).mic ≠ .absent := fun e => changes (by simp [e])
      rw [if_pos rfl, if_pos ⟨rfl, present⟩]
    · rw [if_neg here, if_neg fun e => here e.1]

theorem reform_indicationOf : (s.reform m).indicationOf n = s.indicationOf n :=
  (Shown.reform m).indicationOf ((OnFloor.reform m).blocked n)

theorem reformAll_seat (s : State) : (s.reformAll ms).seat n =
    if n ∈ ms ∧ (s.seat n).mic ≠ .absent then { s.seat n with indication := s.indicationOf n } else s.seat n := by
  induction ms generalizing s with
  | nil => exact (if_neg fun e => absurd e.1 List.not_mem_nil).symm
  | cons m ms ih =>
    show ((s.reform m).reformAll ms).seat n = _
    rw [ih, reform_indicationOf, (Shown.reform m).mic, reform_seat]
    by_cases present : (s.seat n).mic ≠ .absent
    · by_cases here : n = m
      · have this_one : n = m ∧ (s.seat n).mic ≠ .absent := ⟨here, present⟩
        have listed : n ∈ m :: ms ∧ (s.seat n).mic ≠ .absent := ⟨List.mem_cons.2 (.inl here), present⟩
        rw [if_pos this_one, if_pos listed]
        split <;> rfl
      · simp [here]
    · simp [present]

theorem reform_link : (s.reform m).link = s.link := by
  unfold reform
  split
  · rfl
  · exact reseat_link

theorem reformAll_link (s : State) : (s.reformAll ms).link = s.link := by
  induction ms generalizing s with
  | nil => rfl
  | cons m ms ih => exact (ih _).trans reform_link

/-! ## Drops one after another (R115, R125) -/

theorem dropBlocked_of_off (off : s.CountersOff) :
    s.dropBlocked n = if (s.seat n).mic = .queued then s.unqueued n .blocked else s := by
  unfold dropBlocked
  split
  · exact settleCounts_raise (OnFloor.unqueued.countersOff off)
  · rfl

theorem mem_unqueued_queue (hr : s.room b = some r) : ∃ q, (s.unqueued n .blocked).room b = some { r with queue := q } ∧
    ∀ e, e ∈ q ↔ e ∈ r.queue ∧ ¬ (e.seat = n ∧ s.seatAnchor e.seat = some b) := by
  refine ⟨_, unqueued_room.trans (unqueue_room_of_some hr), fun e => ?_⟩
  split
  · next here =>
    rw [List.mem_filter, decide_eq_true_eq]
    exact and_congr_right fun _ => ⟨fun other e => other e.1, fun stays e => stays ⟨e, e.symm ▸ here⟩⟩
  · next other => exact ⟨fun he => ⟨he, fun e => other (e.1 ▸ e.2)⟩, And.left⟩

/-- Seats that are blocked one after another: the QUEUED ones go to IDLE, and their entries leave the queues of their rooms. -/
theorem foldl_dropBlocked (s : State) (off : s.CountersOff) : s.OnFloor (ms.foldl dropBlocked s) ∧ s.Sheds (ms.foldl dropBlocked s) ∧
    (∀ n, (ms.foldl dropBlocked s).seat n = if n ∈ ms ∧ (s.seat n).mic = .queued then { s.seat n with mic := .idle, stamp := none }
      else s.seat n) ∧
    ∀ b r, s.room b = some r → ∃ q, (ms.foldl dropBlocked s).room b = some { r with queue := q } ∧
      ∀ e, e ∈ q ↔ e ∈ r.queue ∧ ¬ (e.seat ∈ ms ∧ (s.seat e.seat).mic = .queued ∧ s.seatAnchor e.seat = some b) := by
  induction ms generalizing s with
  | nil => exact ⟨.refl s, .refl s, fun n => (if_neg fun e => absurd e.1 List.not_mem_nil).symm, fun b r hr => ⟨r.queue, hr, by simp⟩⟩
  | cons m ms ih =>
    rw [List.foldl_cons, dropBlocked_of_off off]
    split
    · next waits =>
      have onFloor : s.OnFloor (s.unqueued m .blocked) := .unqueued
      have sheds : s.Sheds (s.unqueued m .blocked) := .unqueued
      obtain ⟨onFloor', sheds', seats, queues⟩ := ih _ (onFloor.countersOff off)
      refine ⟨onFloor.trans onFloor', sheds.trans sheds', fun n => ?_, fun b r hr => ?_⟩
      · rw [seats, unqueued_seat]
        by_cases here : n = m
        · subst here
          simp [waits]
        · simp [here]
      · obtain ⟨q, hq, listed⟩ := mem_unqueued_queue (n := m) hr
        obtain ⟨p, hp, listed'⟩ := queues b _ hq
        refine ⟨p, hp, fun e => ?_⟩
        rw [listed', listed, sheds.seatAnchor, unqueued_seat]
        by_cases here : e.seat = m
        · rw [here]
          simp [waits]
        · simp [here]
    · next idle =>
      obtain ⟨onFloor, sheds, seats, queues⟩ := ih s off
      refine ⟨onFloor, sheds, fun n => ?_, fun b r hr => ?_⟩
      · rw [seats]
        by_cases here : n = m
        · subst here
          simp [idle]
        · simp [here]
      · obtain ⟨q, hq, listed⟩ := queues b r hr
        refine ⟨q, hq, fun e => ?_⟩
        rw [listed]
        by_cases here : e.seat = m
        · rw [here]
          simp [idle]
        · simp [here]

theorem mem_anchors (hr : s.room a = some r) : a ∈ s.anchors :=
  List.mem_map.2 ⟨(a, some r), List.mem_filter.2 ⟨Kept.mem_of_tget (by simp) hr, rfl⟩, rfl⟩

theorem mem_queuedAmong : n ∈ s.queuedAmong ms ↔ n ∈ ms ∧ ∃ a r e, s.room a = some r ∧ e ∈ r.queue ∧ e.seat = n := by
  unfold queuedAmong
  rw [List.mem_flatMap]
  constructor
  · rintro ⟨a, -, here⟩
    split at here
    · cases here
    · next r hr =>
      simp only [List.mem_filter, List.mem_map, List.contains_iff_mem] at here
      obtain ⟨⟨e, he, rfl⟩, listed⟩ := here
      exact ⟨listed, a, r, e, hr, he, rfl⟩
  · rintro ⟨listed, a, r, e, hr, he, rfl⟩
    refine ⟨a, mem_anchors hr, ?_⟩
    rw [hr]
    simp only [List.mem_filter, List.mem_map, List.contains_iff_mem]
    exact ⟨⟨e, he, rfl⟩, listed⟩

/-! ## Blocking (R122, R123) -/

theorem blocked_iff : s.blocked n = true ↔
    ∃ g, (1 ≤ g ∧ g ≤ 16) ∧ groupTakes (s.group g) n = true ∧ (s.group g).inForce = true := by
  have numbers : ∀ g, g ∈ groupNumbers ↔ 1 ≤ g ∧ g ≤ 16 := fun g => by
    simp only [groupNumbers, List.mem_map, List.mem_range]
    exact ⟨by rintro ⟨i, hi, rfl⟩; omega, fun h => ⟨g - 1, by omega, by omega⟩⟩
  simp only [blocked, List.any_eq_true, numbers, memberOf, Group.inForce, Bool.and_eq_true]
  exact exists_congr fun g => and_congr_right fun _ => ⟨fun h => ⟨h.1.2, h.1.1, h.2⟩, fun h => ⟨⟨h.2.1, h.1⟩, h.2.2⟩⟩

theorem setGroup_blocked_iff (number : 1 ≤ g ∧ g ≤ 16) : (s.setGroup g x).blocked n = true ↔
    groupTakes x n = true ∧ x.inForce = true ∨
      ∃ h, h ≠ g ∧ (1 ≤ h ∧ h ≤ 16) ∧ groupTakes (s.group h) n = true ∧ (s.group h).inForce = true := by
  rw [blocked_iff]
  constructor
  · rintro ⟨h, range, takes, force⟩
    by_cases here : h = g
    · rw [setGroup_group, if_pos here] at takes force
      exact .inl ⟨takes, force⟩
    · rw [setGroup_group, if_neg here] at takes force
      exact .inr ⟨h, here, range, takes, force⟩
  · rintro (⟨takes, force⟩ | ⟨h, other, range, takes, force⟩)
    · refine ⟨g, number, ?_⟩
      rw [setGroup_group, if_pos rfl]
      exact ⟨takes, force⟩
    · refine ⟨h, range, ?_⟩
      rw [setGroup_group, if_neg other]
      exact ⟨takes, force⟩

/-- A group that comes into force blocks the seats that it takes, and frees none. -/
theorem setGroup_blocked_of_into_force (number : 1 ≤ g ∧ g ≤ 16) (was : (s.group g).inForce = false) (force : x.inForce = true) :
    (s.setGroup g x).blocked n = true ↔ groupTakes x n = true ∨ s.blocked n = true := by
  rw [setGroup_blocked_iff number, blocked_iff]
  refine or_congr (and_iff_left force) ⟨fun ⟨h, _, rest⟩ => ⟨h, rest⟩, fun ⟨h, range, takes, hf⟩ => ⟨h, ?_, range, takes, hf⟩⟩
  rintro rfl
  rw [was] at hf
  cases hf

/-- A group that is not in force blocks nobody. -/
theorem blocked_of_setGroup_blocked (number : 1 ≤ g ∧ g ≤ 16) (force : x.inForce = false)
    (h : (s.setGroup g x).blocked n = true) : s.blocked n = true := by
  rw [setGroup_blocked_iff number] at h
  rcases h with ⟨-, now⟩ | ⟨h, -, rest⟩
  · rw [force] at now
    cases now
  · exact blocked_iff.2 ⟨h, rest⟩

theorem mem_newlyBlocked (canonical : twf Seat.initial t.floor.seats = true) :
    n ∈ newlyBlocked s t ↔ (t.seat n).installed = true ∧ t.blocked n = true ∧ s.blocked n = false := by
  rw [newlyBlocked, mem_tkeys_iff canonical (fun _ => rfl)]
  show ((t.seat n).installed && t.blocked n && !s.blocked n) = true ↔ _
  simp only [Bool.and_eq_true, Bool.not_eq_true', and_assoc]

theorem mem_changedBlocking (canonical : twf Seat.initial t.floor.seats = true) :
    n ∈ changedBlocking s t ↔ (t.seat n).installed = true ∧ t.blocked n ≠ s.blocked n := by
  rw [changedBlocking, mem_tkeys_iff canonical (fun _ => rfl)]
  show ((t.seat n).installed && decide (t.blocked n ≠ s.blocked n)) = true ↔ _
  simp only [Bool.and_eq_true, decide_eq_true_eq]

end

end State

end Sys2Proof.Machine
end

section
/-! SUPPORT. GROUP_SET (R124 to R126). -/

namespace Sys2Proof.Machine

namespace State

section
variable {s t : State} {n g : Nat} {x : Group} {tag : Byte} {body : List Byte}

theorem readGroupSet_eq_none (h : 1 < byteAt body 1 ∨ 1 < byteAt body 7) : readGroupSet body = none := by
  unfold readGroupSet
  rcases h with h | h
  · rw [yesNoAt_eq_none.2 h]
    cases sized 8 body <;> rfl
  · rw [yesNoAt_eq_none.2 h]
    cases sized 8 body <;> cases yesNoAt body 1 <;> rfl

/-- A record that GROUP_SET does not take (R124). -/
theorem handleGroupSet_of_wrong (h : 1 < byteAt body 1 ∨ 1 < byteAt body 7 ∨ ∃ g x, readGroupSet body = some (g, x) ∧
    (g < 1 ∨ 16 < g ∨ 1023 < x.base ∨ 1023 < x.mask ∨ 3 < x.rank)) : handleGroupSet body s = refuse s .badValue := by
  rw [← or_assoc] at h
  rcases h with h | ⟨g, x, read, wrong⟩
  · rw [handleGroupSet, readGroupSet_eq_none h]
    rfl
  · rw [handleGroupSet, withBody_of_some read]
    dsimp only
    split
    · rfl
    · next number =>
      have range : 1 ≤ g ∧ g ≤ 16 := by
        rw [Bool.not_eq_true', Bool.not_eq_false, groupOk, Bool.and_eq_true, decide_eq_true_eq, decide_eq_true_eq] at number
        exact number
      split
      · rfl
      · next fields =>
        have small : x.base ≤ 1023 ∧ x.mask ≤ 1023 := by simpa using fields
        rw [if_pos (by omega)]

theorem exec_groupSet_of_right (take : s.CanTake ⟨0x1F, tag, body⟩) (read : readGroupSet body = some (g, x))
    (number : 1 ≤ g ∧ g ≤ 16) (base : x.base ≤ 1023) (mask : x.mask ≤ 1023) (rank : x.rank ≤ 3) :
    exec (.groupSet tag body) s = .next ((s.popInput.writeGroup g x).reply
      ⟨0x1F, tag, .ok (.group g x ((s.setGroup g x).memberCount g))⟩) := by
  refine congrArg Host.Outcome.next (request_of_handled take (by cases s.link.phase <;> rfl) ?_)
  rw [handleGroupSet, withBody_of_some read]
  dsimp only
  rw [if_neg (by simp [groupOk, number]), if_neg (by simp; omega), if_neg (by omega)]
  rfl

/-- The record is stored, and a change of the blocking in force reported. -/
def marked (s : State) (g : Nat) (x : Group) : State := (s.setGroup g x).noteForce g (s.group g) x

theorem marked_of_same (h : (s.group g).inForce = x.inForce) : s.marked g x = s.setGroup g x := if_pos h

theorem marked_of_changed (h : (s.group g).inForce ≠ x.inForce) :
    s.marked g x = (s.setGroup g x).note (.groupBlocked g x.inForce .host ((s.setGroup g x).memberCount g)) := if_neg h

theorem marked_eq : s.marked g x = { s.setGroup g x with link := (s.marked g x).link } := by
  unfold marked noteForce
  split <;> rfl

theorem marked_seat : (s.marked g x).seat n = s.seat n := by
  rw [marked_eq]
  rfl

theorem marked_room : (s.marked g x).room n = s.room n := by
  rw [marked_eq]
  rfl

theorem marked_seatRoom : (s.marked g x).seatRoom n = s.seatRoom n := by
  rw [marked_eq]
  rfl

theorem marked_seatAnchor : (s.marked g x).seatAnchor n = s.seatAnchor n := by
  rw [marked_eq]
  rfl

theorem marked_seats : (s.marked g x).floor.seats = s.floor.seats := by
  rw [marked_eq]
  rfl

theorem marked_blocked : (s.marked g x).blocked n = (s.setGroup g x).blocked n := by
  rw [marked_eq]
  rfl

theorem marked_group {h : Nat} : (s.marked g x).group h = if h = g then x else s.group h := by
  rw [marked_eq]
  exact setGroup_group ..

theorem marked_countersOff (off : s.CountersOff) : (s.marked g x).CountersOff := by
  rw [marked_eq]
  exact ⟨off.off, off.none, off.open_⟩

theorem writeGroup_of_config (h : s.link.phase = .config) : s.writeGroup g x = s.marked g x := if_neg (by rw [h]; decide)

theorem writeGroup_of_run (h : s.link.phase = .run) : s.writeGroup g x = s.regroup (s.marked g x) g := if_pos h

/-- What GROUP_SET does in RUN before promotion. -/
def reblocked (s : State) (g : Nat) (x : Group) : State :=
  (((s.marked g x).queuedAmong (newlyBlocked s (s.marked g x))).foldl dropBlocked (s.marked g x)).reformAll
    (changedBlocking s (s.marked g x))

theorem regroup_marked : s.regroup (s.marked g x) g =
    if newlyBlocked (s.marked g x) s ≠ [] ∨ (s.group g).inForce = true ∧ x.inForce = false
    then (s.reblocked g x).anchors.foldl State.promote (s.reblocked g x) else s.reblocked g x := by
  unfold regroup
  rw [marked_group, if_pos rfl]
  simp only [Bool.or_eq_true, Bool.and_eq_true, decide_eq_true_eq, Bool.not_eq_true']
  rfl

theorem OnFloor.reblocked (off : s.CountersOff) : (s.marked g x).OnFloor (s.reblocked g x) :=
  (foldl_dropBlocked _ (marked_countersOff off)).1.trans (.reformAll _)

theorem Sheds.reblocked (off : s.CountersOff) : (s.marked g x).Sheds (s.reblocked g x) :=
  (foldl_dropBlocked _ (marked_countersOff off)).2.1.trans (.reformAll _)

/-! ## Promotion gives no arrival stamp -/

theorem modRoom_floor (a : Nat) (f : Room → Room) : (s.modRoom a f).floor = s.floor := by
  unfold modRoom
  split <;> rfl

theorem modSeatRoom_floor (n : Nat) (f : Room → Room) : (s.modSeatRoom n f).floor = s.floor := by
  unfold modSeatRoom
  split
  · rfl
  · exact modRoom_floor _ f

theorem takeCandidate_stampCount {a : Nat} {e : Entry} {c : MicCause} :
    (s.takeCandidate a e c).floor.stampCount = s.floor.stampCount := by
  have unqueued : ∀ m, (s.unqueue m).floor.stampCount = s.floor.stampCount := fun m =>
    (congrArg FloorUnit.stampCount (modSeatRoom_floor (s := s) m _) :)
  rw [takeCandidate, modRoom_floor, enterOpening, reseat_stampCount]
  show (State.modSeatRoom _ e.seat _).floor.stampCount = _
  rw [modSeatRoom_floor]
  show (if (s.seat e.seat).mic = .queued then s.unqueue e.seat else s).floor.stampCount = _
  split
  · exact unqueued _
  · rfl

theorem promoteRun_stampCount (fuel a : Nat) (s : State) : (promoteRun fuel a s).floor.stampCount = s.floor.stampCount := by
  induction fuel generalizing s with
  | zero => rfl
  | succ fuel ih =>
    unfold promoteRun
    split
    · rfl
    · split
      · split
        · rfl
        · split
          · rfl
          · exact (ih _).trans takeCandidate_stampCount
      · rfl

theorem promote_stampCount {a : Nat} : (s.promote a).floor.stampCount = s.floor.stampCount := by
  unfold promote
  split
  · rfl
  · exact promoteRun_stampCount _ a s

theorem foldl_promote_stampCount (as : List Nat) (s : State) : (as.foldl promote s).floor.stampCount = s.floor.stampCount := by
  induction as generalizing s with
  | nil => rfl
  | cons a as ih => exact (ih _).trans promote_stampCount

theorem writeGroup_of_off (hp : s.link.phase = .run) (off : s.CountersOff) :
    (∀ h, (s.writeGroup g x).group h = (s.marked g x).group h) ∧ (s.writeGroup g x).floor.stampCount = s.floor.stampCount := by
  have before : (s.reblocked g x).floor.stampCount = s.floor.stampCount := by
    rw [(Sheds.reblocked off).stampCount, marked_eq]
    rfl
  rw [writeGroup_of_run hp, regroup_marked]
  split
  · exact ⟨fun h => ((OnFloor.reblocked off).trans (.fold (fun _ a => .promote a) _ _)).group h,
      (foldl_promote_stampCount _ _).trans before⟩
  · exact ⟨fun h => (OnFloor.reblocked off).group h, before⟩

/-! ## The blocking that comes into force (R125) -/

theorem writeGroup_of_into_force (number : 1 ≤ g ∧ g ≤ 16) (hp : s.link.phase = .run)
    (canonical : twf Seat.initial s.floor.seats = true) (was : (s.group g).inForce = false) (force : x.inForce = true) :
    s.writeGroup g x = s.reblocked g x := by
  have freed : newlyBlocked (s.marked g x) s = [] := List.eq_nil_iff_forall_not_mem.2 fun n hn => by
    obtain ⟨-, before, after⟩ := (mem_newlyBlocked canonical).1 hn
    rw [marked_blocked, ← Bool.not_eq_true, setGroup_blocked_of_into_force number was force] at after
    exact after (.inr before)
  rw [writeGroup_of_run hp, regroup_marked, if_neg]
  rw [was]
  simp [freed]

/-- What the drops and the indications of newly blocked seats leave of seats, rooms and link. -/
theorem reblocked_of_into_force (number : 1 ≤ g ∧ g ≤ 16) (off : s.CountersOff) (right : s.EntriesRight)
    (canonical : twf Seat.initial s.floor.seats = true) (was : (s.group g).inForce = false) (force : x.inForce = true)
    {new : Nat → Prop} (hnew : ∀ n, new n ↔ (s.seat n).installed = true ∧ s.blocked n = false ∧ groupTakes x n = true) :
    (∀ a r, s.room a = some r → ∃ q, (s.reblocked g x).room a = some { r with queue := q } ∧
      ∀ e, e ∈ q ↔ e ∈ r.queue ∧ ¬ new e.seat) ∧
    (∀ n, new n → (s.seat n).mic = .queued → (∃ a r e, s.room a = some r ∧ e ∈ r.queue ∧ e.seat = n) →
      ((s.reblocked g x).seat n).mic = .idle ∧ ((s.reblocked g x).seat n).stamp = none) ∧
    (∀ n, new n → (s.seat n).mic = .idle → s.seatInSession n = true →
      (s.reblocked g x).seat n = { s.seat n with indication := some .blocked }) ∧
    (∀ n, new n → (s.seat n).mic ≠ .idle → (s.seat n).mic ≠ .queued →
      (s.seat n).mic = .absent ∨ (s.seat n).indication = s.indicationOf n → (s.reblocked g x).seat n = s.seat n) ∧
    (∀ n, ¬ new n → (s.reblocked g x).seat n = s.seat n) ∧
    ((∀ a r, s.room a = some r → ∀ e ∈ r.queue, ¬ new e.seat) → (s.reblocked g x).link = (s.marked g x).link) := by
  have canonical' : twf Seat.initial (s.marked g x).floor.seats = true := by rwa [marked_seats]
  have blocks : ∀ n, (s.marked g x).blocked n = true ↔ groupTakes x n = true ∨ s.blocked n = true := fun n => by
    rw [marked_blocked, setGroup_blocked_of_into_force number was force]
  have newly : ∀ n, n ∈ newlyBlocked s (s.marked g x) ↔ new n := fun n => by
    rw [mem_newlyBlocked canonical', marked_seat, blocks, hnew]
    constructor
    · rintro ⟨installed, now, before⟩
      exact ⟨installed, before, now.resolve_right (by rw [before]; decide)⟩
    · rintro ⟨installed, before, takes⟩
      exact ⟨installed, .inl takes, before⟩
  have changed : ∀ n, n ∈ changedBlocking s (s.marked g x) ↔ new n := fun n => by
    rw [← newly, mem_newlyBlocked canonical', mem_changedBlocking canonical']
    refine and_congr_right fun _ => ?_
    have keeps : s.blocked n = true → (s.marked g x).blocked n = true := fun h => (blocks n).2 (.inr h)
    cases hs : s.blocked n with
    | true => simp [keeps hs]
    | false => simp
  obtain ⟨onFloor, sheds, seats, queues⟩ := foldl_dropBlocked (ms := (s.marked g x).queuedAmong (newlyBlocked s (s.marked g x)))
    (s.marked g x) (marked_countersOff off)
  obtain ⟨u, hu⟩ : ∃ u, u = ((s.marked g x).queuedAmong (newlyBlocked s (s.marked g x))).foldl dropBlocked (s.marked g x) := ⟨_, rfl⟩
  have listed : ∀ n, n ∈ (s.marked g x).queuedAmong (newlyBlocked s (s.marked g x)) ↔
      new n ∧ ∃ a r e, s.room a = some r ∧ e ∈ r.queue ∧ e.seat = n := fun n => by
    simp only [mem_queuedAmong, newly, marked_room]
  have after : s.reblocked g x = u.reformAll (changedBlocking s (s.marked g x)) := by rw [hu]; rfl
  rw [← hu] at onFloor sheds seats queues
  have stays : ∀ n, (s.seat n).mic ≠ .queued ∨ ¬ new n → u.seat n = s.seat n := fun n h => by
    rw [seats, if_neg, marked_seat]
    rw [listed, marked_seat]
    rintro ⟨⟨isNew, -⟩, waits⟩
    exact h.elim (fun h => h waits) (fun h => h isNew)
  have shows : ∀ n, u.seat n = s.seat n → u.indicationOf n =
      seatIndication (s.seat n) ((s.seatRoom n).map Room.session) ((s.marked g x).blocked n) := fun n same => by
    rw [indicationOf, sheds.session, same, onFloor.blocked, marked_seatRoom]
  have formed : ∀ n, new n → (u.seat n).mic ≠ .absent →
      (s.reblocked g x).seat n = { u.seat n with indication := u.indicationOf n } := fun n isNew present => by
    rw [after, reformAll_seat, if_pos ⟨(changed n).2 isNew, present⟩]
  have unformed : ∀ n, ¬ (new n ∧ (u.seat n).mic ≠ .absent) → (s.reblocked g x).seat n = u.seat n := fun n out => by
    rw [after, reformAll_seat, if_neg fun h => out ⟨(changed n).1 h.1, h.2⟩]
  refine ⟨fun a r hr => ?_, fun n isNew waits entry => ?_, fun n isNew idle session => ?_, fun n isNew idle waits shown => ?_,
    fun n old => ?_, fun nobody => ?_⟩
  · obtain ⟨q, hq, out⟩ := queues a r (marked_room.trans hr)
    refine ⟨q, ?_, fun e => ?_⟩
    · rw [after, (Shown.reformAll _).room]
      exact hq
    · rw [out, listed, marked_seat, marked_seatAnchor]
      refine and_congr_right fun he => not_congr ⟨fun h => h.1.1, fun isNew => ?_⟩
      exact ⟨⟨isNew, a, r, e, hr, he, rfl⟩, (right a r hr e he).2, (right a r hr e he).1⟩
  · have dropped : u.seat n = { s.seat n with mic := .idle, stamp := none } := by
      rw [seats, if_pos ⟨(listed n).2 ⟨isNew, entry⟩, by rwa [marked_seat]⟩, marked_seat]
    rw [after, (Shown.reformAll _).seats, dropped]
    exact ⟨rfl, rfl⟩
  · have same := stays n (.inl (by rw [idle]; decide))
    have blocked : (s.marked g x).blocked n = true := (blocks n).2 (.inl ((hnew n).1 isNew).2.2)
    rw [formed n isNew (by rw [same, idle]; decide), shows n same, same, blocked, of_decide_eq_true session,
      seatIndication_of_idle idle]
    rfl
  · have same := stays n (.inl waits)
    by_cases present : (u.seat n).mic ≠ .absent
    · have shown := shown.resolve_left (same ▸ present)
      rw [formed n isNew present, shows n same, same, seatIndication_of_not_idle idle _ _ (s.blocked n)]
      show { s.seat n with indication := s.indicationOf n } = _
      rw [← shown]
    · exact (unformed n fun h => present h.2).trans same
  · rw [unformed n fun h => old h.1, stays n (.inr old)]
  · have none : (s.marked g x).queuedAmong (newlyBlocked s (s.marked g x)) = [] :=
      List.eq_nil_iff_forall_not_mem.2 fun n hn => by
        obtain ⟨isNew, a, r, e, hr, he, rfl⟩ := (listed n).1 hn
        exact nobody a r hr e he isNew
    rw [after, reformAll_link, hu, none]
    rfl

/-! ## The blocking that ends (R126) -/

theorem reblocked_of_out_of_force (number : 1 ≤ g ∧ g ≤ 16) (canonical : twf Seat.initial s.floor.seats = true)
    (force : x.inForce = false) : s.reblocked g x = (s.marked g x).reformAll (changedBlocking s (s.marked g x)) := by
  have canonical' : twf Seat.initial (s.marked g x).floor.seats = true := by rwa [marked_seats]
  have nobody : newlyBlocked s (s.marked g x) = [] := List.eq_nil_iff_forall_not_mem.2 fun n hn => by
    obtain ⟨-, now, before⟩ := (mem_newlyBlocked canonical').1 hn
    rw [marked_blocked] at now
    rw [blocked_of_setGroup_blocked number force now] at before
    cases before
  have none : (s.marked g x).queuedAmong [] = [] :=
    List.eq_nil_iff_forall_not_mem.2 fun n hn => List.not_mem_nil (mem_queuedAmong.1 hn).1
  rw [reblocked, nobody, none]
  rfl

theorem promote_of_no_queues {a : Nat} (nobody : ∀ b q, s.room b = some q → q.queue = []) : s.promote a = s := by
  cases ha : s.room a with
  | none =>
    unfold State.promote
    rw [ha]
  | some q => exact promote_of_no_queue ha (nobody a q ha)

theorem writeGroup_of_out_of_force (number : 1 ≤ g ∧ g ≤ 16) (hp : s.link.phase = .run)
    (canonical : twf Seat.initial s.floor.seats = true) (force : x.inForce = false)
    (nobody : ∀ a r, s.room a = some r → r.queue = []) :
    s.writeGroup g x = (s.marked g x).reformAll (changedBlocking s (s.marked g x)) := by
  have rooms : ∀ a r, ((s.marked g x).reformAll (changedBlocking s (s.marked g x))).room a = some r → r.queue = [] :=
    fun a r hr => nobody a r (marked_room.symm.trans (((Shown.reformAll _).room a).symm.trans hr))
  rw [writeGroup_of_run hp, regroup_marked, reblocked_of_out_of_force number canonical force]
  split
  · exact foldl_of_fixed _ _ fun a _ => promote_of_no_queues rooms
  · rfl

end

/-! ## Membership (R123) -/

/-- Two numbers below 1024 agree under a mask in all its digits exactly if they agree in the ten lowest. -/
theorem groupTakes_iff {x : Group} {n : Nat} (mask : x.mask < 1024) :
    groupTakes x n = true ↔ ∀ i, i < 10 → x.mask.testBit i = true → n.testBit i = x.base.testBit i := by
  have digits : groupTakes x n = true ↔ ∀ i, (n &&& x.mask).testBit i = (x.base &&& x.mask).testBit i := by
    rw [groupTakes, decide_eq_true_eq]
    exact ⟨fun h i => congrArg (Nat.testBit · i) h, fun h => Nat.eq_of_testBit_eq h⟩
  rw [digits]
  refine forall_congr' fun i => ?_
  rw [Nat.testBit_and, Nat.testBit_and]
  have high : 10 ≤ i → x.mask.testBit i = false := fun le =>
    Nat.testBit_eq_false_of_lt (lt_of_lt_of_le mask (Nat.pow_le_pow_right (n := 2) (by decide) le))
  cases hm : x.mask.testBit i with
  | false => simp
  | true =>
    have low : i < 10 := by
      by_contra far
      rw [high (by omega)] at hm
      cases hm
    simp [low]

end State

end Sys2Proof.Machine

open Sys2Proof.Machine

/-- Settles O28: the checks in their order, the stored record, and drops and promotions that change no group. -/
theorem groupSetStoresTheRecord : Obligations.GroupSetStoresTheRecord := by
  unfold Obligations.GroupSetStoresTheRecord
  refine ⟨fun s tag body take wrong => ?_, fun s tag body g x take read low high base mask rank => ?_,
    fun x n _ mask => State.groupTakes_iff mask⟩
  · exact congrArg Host.Outcome.next (State.request_of_refuse take (by cases s.link.phase <;> rfl) (State.handleGroupSet_of_wrong wrong))
  have runs := State.exec_groupSet_of_right take read ⟨low, high⟩ base mask rank
  refine ⟨fun config => ⟨_, runs, ?_⟩, fun run off => ⟨_, runs, ?_⟩⟩
  · rw [State.writeGroup_of_config (s := s.popInput) config]
    refine ⟨(State.marked_group (s := s.popInput)).trans (if_pos rfl), fun h other =>
      (State.marked_group (s := s.popInput)).trans (if_neg other), ?_, fun same => ?_, fun changed => ?_⟩
    · rw [State.marked_eq (s := s.popInput)]
      rfl
    · rw [State.marked_of_same (s := s.popInput) same]
      rfl
    · rw [State.marked_of_changed (s := s.popInput) changed]
      rfl
  · obtain ⟨groups, stamps⟩ := State.writeGroup_of_off (s := s.popInput) (g := g) (x := x) run ⟨off.off, off.none, off.open_⟩
    exact ⟨(groups g).trans (State.marked_group.trans (if_pos rfl)), fun h other =>
      (groups h).trans (State.marked_group.trans (if_neg other)), stamps⟩

/-- Settles O29: the drops of the newly blocked seats one after another, and then the indications. -/
theorem blockingDropsTheNewlyBlocked : Obligations.BlockingDropsTheNewlyBlocked := by
  unfold Obligations.BlockingDropsTheNewlyBlocked
  intro s tag body g x take run off canonical right read low high base mask rank
  have runs := State.exec_groupSet_of_right take read ⟨low, high⟩ base mask rank
  have off' : s.popInput.CountersOff := ⟨off.off, off.none, off.open_⟩
  have groups := (State.writeGroup_of_off (s := s.popInput) (g := g) (x := x) run off').1 g
  rw [State.marked_group, if_pos rfl] at groups
  refine ⟨fun new was force hnew => ⟨_, runs, groups, ?_⟩, fun was force nobody => ⟨_, runs, groups, ?_⟩⟩
  · obtain ⟨queues, drops, idle, others, old, link⟩ := State.reblocked_of_into_force (s := s.popInput) ⟨low, high⟩ off' right
      canonical was force hnew
    rw [State.writeGroup_of_into_force (s := s.popInput) ⟨low, high⟩ run canonical was force]
    refine ⟨queues, drops, idle, others, old, fun nobody => ?_⟩
    show LinkUnit.answer _ _ = _
    rw [link nobody, State.marked_of_changed (s := s.popInput) (by
      rw [force]
      show (s.group g).inForce ≠ _
      rw [was]
      decide), force]
    rfl
  · rw [State.writeGroup_of_out_of_force (s := s.popInput) ⟨low, high⟩ run canonical force nobody]
    have seats := fun n => State.reformAll_seat (n := n) (ms := changedBlocking s.popInput (s.popInput.marked g x)) (s.popInput.marked g x)
    have shows : ∀ n, (s.popInput.marked g x).indicationOf n =
        seatIndication (s.seat n) ((s.seatRoom n).map Room.session) ((s.popInput.marked g x).blocked n) := fun n => by
      rw [State.indicationOf, State.marked_seat, State.marked_seatRoom]
      rfl
    refine ⟨?_, fun n installed before after idle session => ?_, fun n idle shown => ?_, ?_⟩
    · refine ((State.Shown.reformAll _).hall).trans ?_
      rw [State.marked_eq]
      rfl
    · have unblocked : (s.popInput.marked g x).blocked n = false := ((State.OnFloor.reformAll _).blocked n).symm.trans after
      have changed : n ∈ changedBlocking s.popInput (s.popInput.marked g x) := by
        rw [State.mem_changedBlocking (by rwa [State.marked_seats]), State.marked_seat, unblocked]
        exact ⟨installed, by rw [show s.popInput.blocked n = true from before]; decide⟩
      refine (seats n).trans ?_
      rw [if_pos ⟨changed, by rw [State.marked_seat, show (s.popInput.seat n).mic = .idle from idle]; decide⟩, shows, unblocked,
        of_decide_eq_true session, State.seatIndication_of_idle idle, State.marked_seat]
      rfl
    · refine (seats n).trans ?_
      rw [State.marked_seat]
      split
      · next present =>
        have shown := shown.resolve_left present.2
        rw [shows, State.seatIndication_of_not_idle idle _ _ (s.blocked n)]
        show { s.seat n with indication := s.indicationOf n } = _
        rw [← shown]
      · rfl
    · show LinkUnit.answer _ _ = _
      rw [State.reformAll_link, State.marked_of_changed (s := s.popInput) (by
        rw [force]
        show (s.group g).inForce ≠ _
        rw [was]
        decide), force]
      rfl

end

section
/-! SUPPORT. What falls due at a boundary and is commanded after it: room timers, hold-offs, speaking clocks and ramps (O38, O39). -/

namespace Sys2Proof.Machine

namespace State

section
variable {s t : State} {n m a b k limit : Nat} {ns : List Nat} {r : Room}

theorem whenDue_of_done (up : s.resetLow = false) (done : s.BoundaryDone) (work : State → State) : s.whenDue work = work s := by
  rw [whenDue, whileUp_of_high up, closeInstant_of_boundaryDone done]

/-! ## The entry into a session -/

theorem entered_room (hr : s.room a = some r) {c : SessionCause} {w : Option Waker} :
    (s.entered a r c w).room b = if b = a then some (sessionRoom r) else s.room b := by
  have shown : ((s.modRoom a sessionRoom).note (.sessionState a r.session .inSession c w none)).Shown (s.entered a r c w) :=
    (Shown.makeChannels _).trans (.queueMaps _)
  rw [shown.room]
  show (State.modRoom s a sessionRoom).room b = _
  rw [modRoom_of_room hr]
  exact setRoom_room ..

theorem seated_room (hr : s.room a = some r) {c : SessionCause} {w : Option Waker} :
    (s.seated a r c w).room b = if b = a then some (sessionRoom r) else s.room b :=
  ((Shown.reformAll _).room b).trans (entered_room hr)

/-! ## Room timers (R31) -/

theorem nextTimer_of_due (due : s.roomsWith Room.timerDue = a :: ns) : s.nextTimer = s.expireTimer a := by
  unfold nextTimer
  rw [due]
  rfl

theorem expireTimer_of_room (hr : s.room a = some r) : s.expireTimer a =
    if r.wake.timer then (s.setRoom a (some { r with timer := none })).enterSession a .timer none
    else (s.setRoom a (some { r with timer := none })).note (.sessionState a .armed .armed .timer none none) := by
  unfold expireTimer
  rw [hr]
  dsimp only
  rw [modRoom_of_room hr]

/-! ## Hold-offs (R95) -/

/-- The seat whose hold-off is over. -/
def restedSeat (x : Seat) : Seat := { x with mic := .idle, holdOff := none, holdOffDue := false, pendingPress := false }

/-- The hold-off of a seat is over. -/
def rested (s : State) (n : Nat) : State := s.moveSeat n (restedSeat (s.seat n)) .holdOff .holdOffEnd

theorem endHoldOff_eq : s.endHoldOff n = if (s.seat n).pendingPress then (s.rested n).handlePress n else s.rested n := rfl

theorem nextHoldOff_of_due (due : tkeys (fun _ x => x.mic = .holdOff && x.holdOffDue) s.floor.seats = n :: ns) :
    s.nextHoldOff = s.endHoldOff n := by
  unfold nextHoldOff
  rw [due]
  rfl

theorem OnFloor.rested : s.OnFloor (s.rested n) := .moveSeat

theorem rested_seat : (s.rested n).seat m =
    if m = n then { restedSeat (s.seat n) with indication := s.movedIndication n (restedSeat (s.seat n)) } else s.seat m :=
  moveSeat_seat rfl

theorem rested_mic : ((s.rested n).seat n).mic = .idle := by
  rw [rested_seat, if_pos rfl]
  rfl

theorem rested_seatAnchor : (s.rested n).seatAnchor m = s.seatAnchor m := by
  unfold seatAnchor
  rw [rested_seat]
  split
  · subst_vars
    exact OnFloor.rested.anchorOf _
  · exact OnFloor.rested.anchorOf _

theorem rested_room : (s.rested n).room b = s.room b := moveSeat_room

theorem rested_link : (s.rested n).link =
    s.link.raise (.micState n (s.seatAnchor n) .holdOff .idle .holdOffEnd (s.seat n).muted (s.seat n).slot) := moveSeat_link rfl

theorem rested_freeSlot (i : Nat) : (s.rested n).freeSlot i = s.freeSlot i :=
  moveSeat_freeSlot (x := restedSeat (s.seat n)) (by rfl) (show Mic.idle ≠ .absent by decide) i

/-- Fewer seats count where each seat that counts counted before. -/
theorem rested_delegateCount_le : (s.rested n).delegateCount r ≤ s.delegateCount r := by
  unfold delegateCount
  rw [← List.countP_eq_length_filter, ← List.countP_eq_length_filter]
  refine List.countP_mono_left fun m _ counts => ?_
  by_cases here : m = n
  · have resting : ((s.rested n).seat m).mic.onFloor = false := by
      rw [here, rested_mic]
      rfl
    rw [resting, Bool.and_false] at counts
    cases counts
  · rwa [rested_seat, if_neg here] at counts

theorem rested_chairCount_le : (s.rested n).chairCount r ≤ s.chairCount r := by
  unfold chairCount
  rw [← List.countP_eq_length_filter, ← List.countP_eq_length_filter]
  refine List.countP_mono_left fun m _ counts => ?_
  by_cases here : m = n
  · have resting : ((s.rested n).seat m).mic.onFloor = false := by
      rw [here, rested_mic]
      rfl
    rw [resting, Bool.and_false] at counts
    cases counts
  · rwa [rested_seat, if_neg here] at counts

/-- A press that finds an IDLE seat in session which passes the open test opens it. -/
theorem handlePress_of_opens (ha : s.seatAnchor n = some a) (hr : s.room a = some r) (session : r.session = .inSession)
    (mic : (s.seat n).mic = .idle) (test : s.openTest n = none)
    (mode : (s.seat n).cls = .delegate → s.blocked n = false ∧ r.profile.floorMode = .openFloor) :
    s.handlePress n = s.enterOpening n .press none := by
  cases cls : (s.seat n).cls with
  | delegate =>
    rw [handlePress_of_idle_delegate ha hr session cls mic, pressIdleDelegate_of_open (mode cls).1 (mode cls).2 test]
  | chair =>
    rw [handlePress_of_chair ha hr session cls (by rw [mic]; decide), pressChair, mic]
    dsimp only
    rw [openChair, if_pos mic, test]

/-- The hold-off ends where no press waits, or where none is handled. -/
theorem endHoldOff_of_no_press
    (quiet : (s.seat n).pendingPress = false ∨ ∀ r, s.seatRoom n = some r → r.session ≠ .inSession) :
    s.endHoldOff n = s.rested n := by
  rw [endHoldOff_eq]
  split
  · next waits =>
    have out := quiet.resolve_left (by rw [waits]; decide)
    have mic : ((s.rested n).seat n).mic ≠ .closing ∧ ((s.rested n).seat n).mic ≠ .holdOff := by
      rw [rested_mic]
      decide
    cases ha : s.seatAnchor n with
    | none =>
      unfold handlePress
      rw [if_neg (by simp [mic.1, mic.2]), rested_seatAnchor, ha]
    | some a =>
      cases hr : s.room a with
      | none =>
        unfold handlePress
        rw [if_neg (by simp [mic.1, mic.2]), rested_seatAnchor, ha]
        dsimp only
        rw [rested_room, hr]
      | some r =>
        exact handlePress_of_out (rested_seatAnchor.trans ha) (rested_room.trans hr) mic (out r (seatRoom_of_room ha hr))
  · rfl

theorem rested_eq : s.rested n = { s with
    floor := { s.floor with seats := (s.rested n).floor.seats }
    buses := (s.rested n).buses
    link := s.link.raise (.micState n (s.seatAnchor n) .holdOff .idle .holdOffEnd (s.seat n).muted (s.seat n).slot) } :=
  OnFloor.rested.eq_of_hall moveSeat_hall moveSeat_openingCount moveSeat_liveCount moveSeat_stampCount rested_link

/-! ## Speaking clocks (R107, R108) -/

/-- A seat is written and its indication formed again, which the bus hears of where it changes. -/
def rewrite (s : State) (n : Nat) (x : Seat) : State := (s.setSeat n x).reform n

theorem OnFloor.rewrite {x : Seat} : s.OnFloor (s.rewrite n x) := (OnFloor.setSeat n x).trans (.reform n)

theorem rewrite_seat {x : Seat} : (s.rewrite n x).seat m =
    if m = n then { x with indication := ((s.rewrite n x).seat n).indication } else s.seat m := by
  have written : ∀ i, (s.rewrite n x).seat i = if i = n ∧ ((s.setSeat n x).seat i).mic ≠ .absent then
      { (s.setSeat n x).seat i with indication := (s.setSeat n x).indicationOf i } else (s.setSeat n x).seat i := fun i => reform_seat
  by_cases here : m = n
  · subst here
    rw [if_pos rfl, written, setSeat_seat_same]
    split <;> rfl
  · rw [if_neg here, written, if_neg fun h => here h.1, setSeat_seat, if_neg here]

theorem rewrite_hall {x : Seat} : (s.rewrite n x).hall = s.hall := (Shown.reform n).hall

theorem rewrite_link {x : Seat} : (s.rewrite n x).link = s.link := reform_link

theorem rewrite_eq {x : Seat} : s.rewrite n x = { s with
    floor := { s.floor with seats := (s.rewrite n x).floor.seats }, buses := (s.rewrite n x).buses } := by
  have floor : (s.rewrite n x).floor = { s.floor with seats := (s.rewrite n x).floor.seats } := (Shown.reform n).floor
  exact OnFloor.rewrite.eq_of_hall rewrite_hall (by rw [floor]) (by rw [floor]) (by rw [floor]) rewrite_link

theorem nextClock_of_due (due : tkeys (fun _ x => x.mic = .live && x.secondDue) s.floor.seats = n :: ns) :
    s.nextClock = s.clockSecond n := by
  unfold nextClock
  rw [due]
  rfl

theorem applicableLimit_of {x : Seat} (h : x.grant = some limit ∨ x.grant = none ∧ x.cls = .delegate ∧
    r.profile.speakingLimit = limit ∧ 0 < limit) : applicableLimit x r = some limit := by
  unfold applicableLimit
  rcases h with h | ⟨h, cls, rfl, positive⟩
  · rw [h]
  · rw [h, cls]
    exact if_neg (by omega)

/-- The mark of a whole second is cleared. -/
def unmarked (s : State) (n : Nat) : State := s.setSeat n { s.seat n with secondDue := false }

theorem clockSecond_of_limit {c : Clock} (clock : (s.seat n).clock = some c) (room : s.seatRoom n = some r)
    (h : applicableLimit (s.seat n) r = some limit) :
    s.clockSecond n = ((s.unmarked n).warnIfDue n c.seconds limit r).limitIfDue n c.seconds limit r := by
  unfold clockSecond
  rw [clock, room]
  dsimp only
  rw [h]
  rfl

theorem warnIfDue_eq {c : Nat} : s.warnIfDue n c limit r =
    if 0 < r.profile.warningLead ∧ r.profile.warningLead < limit ∧ limit ≤ c + r.profile.warningLead ∧ (s.seat n).warned = false
    then (s.rewrite n { s.seat n with warned := true }).note (.speakingWarning n c limit) else s := by
  unfold warnIfDue
  have same : (0 < r.profile.warningLead && r.profile.warningLead < limit && limit - r.profile.warningLead ≤ c &&
      !(s.seat n).warned) = true ↔ 0 < r.profile.warningLead ∧ r.profile.warningLead < limit ∧
      limit ≤ c + r.profile.warningLead ∧ (s.seat n).warned = false := by
    simp only [Bool.and_eq_true, decide_eq_true_eq, Bool.not_eq_true', and_assoc, Nat.sub_le_iff_le_add]
  simp only [same]
  rfl

theorem limitIfDue_of_below {c : Nat} (h : c < limit) : s.limitIfDue n c limit r = s := if_neg (by omega)

theorem limitIfDue_of_notify {c : Nat} (h : limit ≤ c) (action : r.profile.limitAction = .notify)
    (fresh : (s.seat n).limitReported = false) : s.limitIfDue n c limit r =
    (s.rewrite n { s.seat n with limitReported := true }).note (.speakingLimit n c limit) := by
  unfold limitIfDue
  rw [if_pos h, action]
  exact if_neg (by rw [fresh]; decide)

theorem limitIfDue_of_close {c : Nat} (h : limit ≤ c) (action : r.profile.limitAction = .close) : s.limitIfDue n c limit r =
    (((s.enterClosing n .limit).raiseSeat .limitClose n).settleCounts).promote r.anchor := by
  unfold limitIfDue
  rw [if_pos h, action]

end

end State

end Sys2Proof.Machine
end

section
/-! SUPPORT. The entry into a session and the work of the floor within one: sessions, channels and owners are kept. -/

namespace Sys2Proof.Machine

/-- A room context without the lists and the pointer that the floor's own work alters. -/
def Room.sitting (r : Room) : Room := { r with live := [], queue := [], rotation := none }

/-- A written table lists nothing but what it listed and what was written. -/
theorem mem_of_mem_tput {α : Type} {tb : Table α} {k : Nat} {v : α} {x : Nat × α} (hx : x ∈ tput tb k v) : x = (k, v) ∨ x ∈ tb := by
  induction tb with
  | nil => exact .inl (List.mem_singleton.1 hx)
  | cons y r ih =>
    unfold tput at hx
    split at hx
    · exact List.mem_cons.1 hx
    · split at hx
      · exact (List.mem_cons.1 hx).imp_right (List.mem_cons_of_mem y)
      · rcases List.mem_cons.1 hx with rfl | later
        · exact .inr List.mem_cons_self
        · exact (ih later).imp_right (List.mem_cons_of_mem y)

theorem mem_of_mem_tset {α : Type} [DecidableEq α] {d : α} {tb : Table α} {k : Nat} {v : α} {x : Nat × α} (hx : x ∈ tset d tb k v) :
    x = (k, v) ∨ x ∈ tb := by
  unfold tset at hx
  split at hx
  · exact .inr (mem_tdel.1 hx).1
  · exact mem_of_mem_tput hx

namespace State

section
variable {s t u : State} {n a b : Nat} {r : Room}

theorem ownerOf_eq_none_iff {key : Key} : s.ownerOf key = none ↔ ∀ x ∈ s.booth.consoles, x.2.owned ≠ some key := by
  unfold ownerOf tkeys
  simp

theorem ownerOf_of_consoles (h : t.booth.consoles = s.booth.consoles) (key : Key) : t.ownerOf key = s.ownerOf key := by
  unfold ownerOf
  rw [h]

theorem reconsole_ownerOf_none (c : Nat) {key : Key} (free : s.ownerOf key = none) : (s.reconsole c).ownerOf key = none := by
  rw [ownerOf_eq_none_iff] at free
  unfold State.reconsole
  split
  · exact ownerOf_eq_none_iff.2 free
  · rw [State.showConsole, ownerOf_of_consoles (congrArg BoothUnit.consoles (State.check_booth ..)), ownerOf_eq_none_iff]
    intro x hx
    rcases mem_of_mem_tset hx with rfl | old
    · by_cases initial : s.console c = Console.initial
      · show (s.console c).owned ≠ _
        rw [initial]
        exact fun e => nomatch e
      · exact free (c, s.console c) (Kept.mem_of_tget initial rfl)
    · exact free x old

/-- From `s` to `t` every room has kept all but its lists and its rotation pointer, no channel has come or gone, of a console only
the indication has changed, and no channel has found an owner. -/
structure Sits (s t : State) : Prop where
  rooms : ∀ b, (t.room b).map Room.sitting = (s.room b).map Room.sitting
  dist : t.dist = s.dist
  consoles : s.OnlyShows t
  free : ∀ key, s.ownerOf key = none → t.ownerOf key = none

namespace Sits

theorem refl (s : State) : s.Sits s := ⟨fun _ => rfl, rfl, .refl s, fun _ => id⟩

theorem trans (h : s.Sits t) (k : t.Sits u) : s.Sits u :=
  ⟨fun b => (k.rooms b).trans (h.rooms b), k.dist.trans h.dist, h.consoles.trans k.consoles, fun key none => k.free key (h.free key none)⟩

theorem fold {α : Type} {f : State → α → State} (hf : ∀ (v : State) x, v.Sits (f v x)) (xs : List α) (s : State) :
    s.Sits (xs.foldl f s) := by
  induction xs generalizing s with
  | nil => exact refl s
  | cons x xs ih => exact (hf s x).trans (ih _)

theorem room (h : s.Sits t) (hr : s.room a = some r) : ∃ x, t.room a = some x ∧ x.sitting = r.sitting := by
  have sits := h.rooms a
  rw [hr, Option.map_some] at sits
  exact Option.map_eq_some_iff.1 sits

theorem of_same (hh : t.hall = s.hall) (hd : t.dist = s.dist) (hb : t.booth.consoles = s.booth.consoles) : s.Sits t where
  rooms b := by
    unfold State.room
    rw [hh]
  dist := hd
  consoles := .of_consoles hb
  free key none := (ownerOf_of_consoles hb key).trans none

theorem of_sheds (h : s.Sheds t) : s.Sits t where
  rooms b := by
    cases hr : s.room b with
    | none => rw [h.noRoom b hr]
    | some r =>
      obtain ⟨q, hq, -⟩ := h.room b r hr
      rw [hq]
      rfl
  dist := h.dist
  consoles := .of_consoles (by rw [h.booth])
  free key none := (ownerOf_of_consoles (by rw [h.booth]) key).trans none

/-! ## Writes -/

theorem note (x : Notice) : s.Sits (s.note x) := of_same rfl rfl rfl
theorem noteMic (n : Nat) (old : Mic) (c : MicCause) : s.Sits (s.noteMic n old c) := note _
theorem setSeat (n : Nat) (x : Seat) : s.Sits (s.setSeat n x) := of_same rfl rfl rfl
theorem raise (o : Occurrence) : s.Sits (s.raise o) := of_same rfl rfl rfl
theorem settleCounts : s.Sits s.settleCounts := of_sheds .settleCounts

theorem modRoom (a : Nat) (f : Room → Room) (hf : ∀ r : Room, (f r).sitting = r.sitting) : s.Sits (s.modRoom a f) := by
  unfold State.modRoom
  split
  · exact refl s
  · next r hr =>
    refine ⟨fun b => ?_, rfl, .of_consoles rfl, fun _ => id⟩
    rw [setRoom_room]
    split
    · subst_vars
      rw [hr]
      exact congrArg some (hf r)
    · rfl

theorem modSeatRoom (n : Nat) (f : Room → Room) (hf : ∀ r : Room, (f r).sitting = r.sitting) : s.Sits (s.modSeatRoom n f) := by
  unfold State.modSeatRoom
  split
  · exact refl s
  · exact modRoom _ f hf

theorem reseat (n : Nat) : s.Sits (s.reseat n) := of_sheds (.reseat n)

/-! ## Seats and promotion -/

theorem unqueue (n : Nat) : s.Sits (s.unqueue n) := (modSeatRoom n _ fun _ => by rfl).trans (setSeat n _)

theorem enterOpening (n : Nat) (c : MicCause) (g : Option Nat) : s.Sits (s.enterOpening n c g) := by
  have counted : ∀ u : State, u.Sits u.countOpening := fun u => of_same rfl rfl rfl
  unfold State.enterOpening
  dsimp only
  refine .trans (.trans (.trans (.trans (.trans ?_ (setSeat n _)) (counted _)) (modSeatRoom n _ fun _ => by rfl)) (noteMic n _ c)) (reseat n)
  split
  · exact unqueue n
  · exact refl s

theorem enterClosing (n : Nat) (c : MicCause) : s.Sits (s.enterClosing n c) := ((setSeat n _).trans (noteMic n _ c)).trans (reseat n)

theorem refusePress (n : Nat) (c : RefusedCause) : s.Sits (s.refusePress n c) := ((note _).trans (raise _)).trans settleCounts

theorem takeCandidate (a : Nat) (e : Entry) (c : MicCause) : s.Sits (s.takeCandidate a e c) :=
  (enterOpening _ c none).trans (modRoom a _ fun _ => by rfl)

theorem promoteRun (fuel a : Nat) (s : State) : s.Sits (Machine.promoteRun fuel a s) := by
  induction fuel generalizing s with
  | zero => exact refl s
  | succ fuel ih =>
    unfold Machine.promoteRun
    split
    · exact refl s
    · split
      · split
        · exact refl s
        · split
          · exact refl s
          · exact (takeCandidate a _ _).trans (ih _)
      · exact refl s

theorem promote (a : Nat) : s.Sits (s.promote a) := by
  unfold State.promote
  split
  · exact refl s
  · exact promoteRun _ a s

/-! ## Priority -/

theorem mute (n : Nat) : s.Sits (s.mute n) := (setSeat n _).trans (noteMic n _ _)

theorem muteAll (a : Nat) : s.Sits (s.muteAll a) := by
  unfold State.muteAll
  split
  · exact refl s
  · exact fold (fun _ n => mute n) _ _

theorem closeAll (a : Nat) : s.Sits (s.closeAll a) := by
  unfold State.closeAll
  split
  · exact refl s
  · exact fold (fun _ n => enterClosing n _) _ _

theorem act (a : Nat) : s.Sits (s.act a) := by
  unfold State.act
  split
  · exact refl s
  · split
    · exact muteAll a
    · exact closeAll a
    · exact (closeAll a).trans (of_sheds (.emptyQueue a _))

theorem openChair (n : Nat) (c : MicCause) : s.Sits (s.openChair n c) := by
  unfold State.openChair
  split
  · split
    · exact enterOpening n c none
    · exact refusePress n _
  · exact refl s

/-- Only the activation itself alters the priority of its room. -/
theorem activate (hr : s.room a = some r) (chairs : List Nat) :
    (s.setRoom a (some { r with priority := true })).Sits (s.activate a chairs) := by
  unfold State.activate
  rw [hr]
  refine .trans ?_ (fold (fun _ n => openChair n _) _ _)
  split
  · next active =>
    refine ⟨fun b => ?_, rfl, .of_consoles rfl, fun _ => id⟩
    rw [setRoom_room]
    split
    · subst_vars
      rw [hr]
      show some r.sitting = some { r.sitting with priority := true }
      rw [← active]
      rfl
    · rfl
  · rw [modRoom_of_room hr]
    exact act a

/-! ## Booths -/

theorem relisten (b : Nat) : s.Sits (s.relisten b) where
  rooms c := by
    have hall : ∀ x : Booth, (s.setBooth b x).Sits (s.setBooth b x) := fun x => refl _
    unfold State.relisten
    dsimp only
    split
    · rfl
    · split
      · exact (((note _).trans (raise _)).trans settleCounts).rooms c
      · exact (note _).rooms c
      · rfl
  dist := relisten_dist b
  consoles := .of_consoles (relisten_consoles b)
  free key none := (ownerOf_of_consoles (relisten_consoles b) key).trans none

theorem reconsole (c : Nat) : s.Sits (s.reconsole c) where
  rooms b := by rw [(Shown.reconsole c).room]
  dist := reconsole_dist c
  consoles := .reconsole c
  free _ := reconsole_ownerOf_none c

theorem boothWork (a : Nat) : s.Sits (s.boothWork a) := (fold (fun _ b => relisten b) _ _).trans (fold (fun _ c => reconsole c) _ _)

end Sits

/-! ## The entry into a session (R32) -/

/-- The room that has entered its session, with the priority that is taken up. -/
theorem takeUp_room (hr : s.room a = some r) : ∃ x, (s.takeUp a r.segments).room a = some x ∧
    x.sitting = { r.sitting with priority := r.priority || decide (s.chairsHolding r.segments ≠ []) } := by
  unfold takeUp
  split
  · next none =>
    refine ⟨r, hr, ?_⟩
    rw [none, decide_eq_false (by simp), Bool.or_false]
    rfl
  · next some =>
    obtain ⟨x, hx, sits⟩ := (Sits.activate hr (s.chairsHolding r.segments)).room ((setRoom_room ..).trans (if_pos rfl))
    refine ⟨x, hx, sits.trans ?_⟩
    rw [decide_eq_true some, Bool.or_true]
    rfl

theorem Sits.takeUp_parts (hr : s.room a = some r) : (s.takeUp a r.segments).dist = s.dist ∧
    s.OnlyShows (s.takeUp a r.segments) ∧ ∀ key, s.ownerOf key = none → (s.takeUp a r.segments).ownerOf key = none := by
  unfold takeUp
  split
  · exact ⟨rfl, .refl s, fun _ => id⟩
  · have sits := Sits.activate hr (s.chairsHolding r.segments)
    exact ⟨sits.dist, fun c => sits.consoles c, fun key free => sits.free key free⟩

theorem Sits.after_takeUp (hr : s.room a = some r) {c : SessionCause} {w : Option Waker} :
    ((s.seated a r c w).takeUp a r.segments).Sits (s.enterSession a c w) := by
  rw [enterSession_of_room hr]
  exact (Sits.boothWork a).trans (.promote a)

/-- The room that has entered its session, but for its lists and its pointer. -/
theorem enterSession_room (hr : s.room a = some r) (c : SessionCause) (w : Option Waker) :
    ∃ x, (s.enterSession a c w).room a = some x ∧ x.sitting = { (sessionRoom r).sitting with
      priority := r.priority || decide ((s.seated a r c w).chairsHolding r.segments ≠ []) } := by
  obtain ⟨x, hx, taken⟩ := takeUp_room (s := s.seated a r c w) (r := sessionRoom r) ((seated_room hr).trans (if_pos rfl))
  obtain ⟨y, hy, sits⟩ := (Sits.after_takeUp hr (c := c) (w := w)).room hx
  exact ⟨y, hy, sits.trans taken⟩

end

end State

end Sys2Proof.Machine
end

section
/-! SUPPORT. What falls due at a boundary and is commanded after it: the statements (O38, O39). -/

namespace Sys2Proof.Machine

namespace State

section
variable {s : State} {n a k : Nat} {r : Room}

/-- After its hold-off has ended a seat that a press opens passes the open test. -/
theorem rested_openTest (ha : s.seatAnchor n = some a) (hr : s.room a = some r) (session : r.session = .inSession)
    (place : (s.seat n).cls = .delegate ∧ r.closing = false ∧ s.delegateCount r < r.profile.openLimit ∨
      (s.seat n).cls = .chair ∧ s.chairCount r < r.profile.chairLimit)
    (slot : s.freeSlot (seatBus n) = some k) (opening : s.floor.openingCount ≠ 4294967295) : (s.rested n).openTest n = none := by
  have cls : ((s.rested n).seat n).cls = (s.seat n).cls := by
    rw [rested_seat, if_pos rfl]
    rfl
  refine (openTest_eq_none_iff (seatRoom_of_room (rested_seatAnchor.trans ha) (rested_room.trans hr))).2 ⟨session, ⟨?_, ?_⟩, ?_, ?_⟩
  · intro delegate
    rw [cls] at delegate
    rcases place with ⟨-, closing, count⟩ | ⟨chair, -⟩
    · exact ⟨closing, lt_of_le_of_lt rested_delegateCount_le count⟩
    · rw [chair] at delegate
      cases delegate
  · intro chair
    rw [cls] at chair
    rcases place with ⟨delegate, -⟩ | ⟨-, count⟩
    · rw [delegate] at chair
      cases chair
    · exact lt_of_le_of_lt rested_chairCount_le count
  · rw [rested_freeSlot, slot]
    exact Option.some_ne_none k
  · rw [rested_eq]
    exact opening

/-- From its warning point on a seat has been warned if its room warns. -/
theorem warnIfDue_of_point {c limit : Nat} (h : limit ≤ c + r.profile.warningLead) :
    (s.warnIfDue n c limit r).seat n = { s.seat n with
      warned := (s.seat n).warned || decide (0 < r.profile.warningLead ∧ r.profile.warningLead < limit)
      indication := ((s.warnIfDue n c limit r).seat n).indication } ∧
    (∀ m, m ≠ n → (s.warnIfDue n c limit r).seat m = s.seat m) ∧ s.QueuesOnly (s.warnIfDue n c limit r) ∧
    s.warnIfDue n c limit r = { s with
      floor := { s.floor with seats := (s.warnIfDue n c limit r).floor.seats }
      buses := (s.warnIfDue n c limit r).buses
      link := if 0 < r.profile.warningLead ∧ r.profile.warningLead < limit ∧ (s.seat n).warned = false
        then s.link.raise (.speakingWarning n c limit) else s.link } := by
  have warns : s.warnIfDue n c limit r =
      if 0 < r.profile.warningLead ∧ r.profile.warningLead < limit ∧ (s.seat n).warned = false
      then (s.rewrite n { s.seat n with warned := true }).note (.speakingWarning n c limit) else s := by
    rw [warnIfDue_eq]
    refine if_congr ⟨fun ⟨lead, inside, _, fresh⟩ => ⟨lead, inside, fresh⟩, fun ⟨lead, inside, fresh⟩ =>
      ⟨lead, inside, h, fresh⟩⟩ rfl rfl
  rw [warns]
  have written := fun m => rewrite_seat (s := s) (n := n) (m := m) (x := { s.seat n with warned := true })
  split
  · next warned =>
    refine ⟨(written n).trans ((if_pos rfl).trans ?_), fun m hm => (written m).trans (if_neg hm), OnFloor.rewrite.queues,
      congrArg (fun v => State.note v (.speakingWarning n c limit)) rewrite_eq⟩
    rw [decide_eq_true ⟨warned.1, warned.2.1⟩, Bool.or_true]
    rfl
  · next quiet =>
    have before : ((s.seat n).warned || decide (0 < r.profile.warningLead ∧ r.profile.warningLead < limit)) = (s.seat n).warned := by
      cases already : (s.seat n).warned with
      | true => rfl
      | false => exact decide_eq_false fun h => quiet ⟨h.1, h.2, already⟩
    rw [before]
    exact ⟨rfl, fun _ _ => rfl, .refl s, rfl⟩

end

end State

end Sys2Proof.Machine

open Sys2Proof.Machine

/-- Settles O38. -/
theorem timersHoldOffsAndRampsEnd : Obligations.TimersHoldOffsAndRampsEnd := by
  unfold Obligations.TimersHoldOffsAndRampsEnd
  refine ⟨fun s a as r up done due hr anchor => ⟨fun wakes => ?_, fun stays => ?_⟩, fun s n ns up done due quiet => ?_,
    fun s n a k ns r up done due waits at_ session off => ?_, fun s a as r up due hr => ?_⟩
  · have runs : exec .roomTimerExpiry s = .next ((s.setRoom a (some { r with timer := none })).enterSession a .timer none) := by
      refine congrArg Host.Outcome.next ((State.whenDue_of_done up done _).trans ?_)
      rw [State.nextTimer_of_due due, State.expireTimer_of_room hr, if_pos wakes]
    obtain ⟨x, hx, fixed⟩ := State.enterSession_room (s := s.setRoom a (some { r with timer := none }))
      ((State.setRoom_room ..).trans (if_pos rfl)) .timer none
    exact ⟨_, x, runs, hx, (congrArg Room.session fixed :), (congrArg Room.timer fixed :), (congrArg Room.wake fixed :),
      (congrArg Room.profile fixed :)⟩
  · have runs : exec .roomTimerExpiry s =
        .next ((s.setRoom a (some { r with timer := none })).note (.sessionState a .armed .armed .timer none none)) := by
      refine congrArg Host.Outcome.next ((State.whenDue_of_done up done _).trans ?_)
      rw [State.nextTimer_of_due due, State.expireTimer_of_room hr, if_neg (Bool.eq_false_iff.1 stays)]
    exact ⟨_, runs, (State.setRoom_room ..).trans (if_pos rfl), fun b hb => (State.setRoom_room ..).trans (if_neg hb), rfl⟩
  · have runs : exec .holdOffEnd s = .next (s.rested n) := by
      refine congrArg Host.Outcome.next ((State.whenDue_of_done up done _).trans ?_)
      rw [State.nextHoldOff_of_due due, State.endHoldOff_of_no_press quiet]
    refine ⟨_, runs, ?_, fun m hm => State.rested_seat.trans (if_neg hm), State.OnFloor.rested.queues, State.rested_eq⟩
    rw [State.rested_seat, if_pos rfl]
    rfl
  · have anchor : (s.rested n).seatAnchor n = some a := State.rested_seatAnchor.trans at_.map
    have room : (s.rested n).room a = some r := State.rested_room.trans at_.room
    have off' : (s.rested n).CountersOff := State.OnFloor.rested.countersOff off
    have seat : (s.rested n).seat n = { State.restedSeat (s.seat n) with
        indication := seatIndication (State.restedSeat (s.seat n)) (some r.session) (s.blocked n) } := by
      rw [State.rested_seat, if_pos rfl, State.movedIndication_of_room at_.map at_.room]
    have cls : ((s.rested n).seat n).cls = (s.seat n).cls := by rw [seat]; rfl
    have blocked := State.OnFloor.rested (s := s) (n := n) |>.blocked n
    have others : ∀ m, m ≠ n → (s.rested n).seat m = s.seat m := fun m hm => State.rested_seat.trans (if_neg hm)
    have runs : exec .holdOffEnd s = .next ((s.rested n).handlePress n) := by
      refine congrArg Host.Outcome.next ((State.whenDue_of_done up done _).trans ?_)
      rw [State.nextHoldOff_of_due due, State.endHoldOff_eq, if_pos waits]
    have link := State.rested_link (s := s) (n := n)
    rw [at_.map] at link
    refine ⟨_, _, runs, rfl, fun delegate bars => ?_, fun opens slot opening => ?_, fun delegate free chair short stamps => ?_⟩
    · rw [State.handlePress_of_idle_delegate anchor room session (cls.trans delegate) State.rested_mic,
        State.pressIdleDelegate_of_blocked (blocked.trans bars), State.refusePress_of_off off', anchor]
      refine ⟨seat.trans ?_, ⟨others, fun b _ => State.rested_room⟩, State.OnFloor.rested.queues, ?_⟩
      · rw [session, bars]
        rfl
      · have eq := State.rested_eq (s := s) (n := n)
        rw [at_.map] at eq
        exact congrArg (fun v => State.note v (.requestRefused n (some a) .blocked)) eq
    · have test := State.rested_openTest at_.map at_.room session
        (opens.imp_left fun ⟨cls, _, _, closing, count⟩ => ⟨cls, closing, count⟩) slot opening
      have mode : ((s.rested n).seat n).cls = .delegate →
          (s.rested n).blocked n = false ∧ r.profile.floorMode = .openFloor := fun delegate => by
        rw [cls] at delegate
        rcases opens with ⟨-, free, mode, -⟩ | ⟨chair, -⟩
        · exact ⟨blocked.trans free, mode⟩
        · rw [chair] at delegate
          cases delegate
      obtain ⟨seats, rooms, count, live, stamp, raised⟩ := State.enterOpening_of_idle (c := .press) anchor room session
        State.rested_mic ((State.rested_freeSlot _).trans slot)
      have count0 : (s.rested n).floor.openingCount = s.floor.openingCount := State.moveSeat_openingCount
      have onFloor : s.OnFloor ((s.rested n).enterOpening n .press none) := State.OnFloor.rested.trans (.enterOpening n .press none)
      rw [State.handlePress_of_opens anchor room session State.rested_mic test mode]
      refine ⟨(seats n).trans ((if_pos rfl).trans ?_), (rooms a).trans (if_pos rfl),
        ⟨fun m hm => (seats m).trans ((if_neg hm).trans (others m hm)), fun b hb => (rooms b).trans ((if_neg hb).trans State.rested_room)⟩,
        onFloor.queues, onFloor.eq_with (count.trans (congrArg (· + 1) count0)) (live.trans State.moveSeat_liveCount)
          (stamp.trans State.moveSeat_stampCount) (raised.trans ?_)⟩
      · rw [seat, count0]
        rfl
      · rw [link, seat]
        rfl
    · have notFull : ¬ (s.rested n).queueFull r = true := fun full => by
        rcases State.queueFull_iff.1 full with h | h
        · omega
        · exact stamps (State.moveSeat_stampCount.symm.trans h)
      obtain ⟨seats, rooms, opening, live, stamp, raised⟩ := State.joinQueue_eq (c := .press) anchor room off'
      have stamp0 : (s.rested n).floor.stampCount = s.floor.stampCount := State.moveSeat_stampCount
      have segment : ((s.rested n).seat n).segment = (s.seat n).segment := by rw [seat]; rfl
      have onFloor : s.OnFloor ((s.rested n).joinQueue n .press) := State.OnFloor.rested.trans (.joinQueue off' n .press)
      rw [State.handlePress_of_idle_delegate anchor room session (cls.trans delegate) State.rested_mic,
        State.pressIdleDelegate_of_ask (blocked.trans free) (.inl (by rw [chair]; decide)), State.ask, if_neg notFull,
        State.joinQueue_promote_stays anchor room off' State.rested_mic (.inl (State.promotes_eq_false (.inl chair)))]
      refine ⟨(seats n).trans ((if_pos rfl).trans ?_), (rooms a).trans ((if_pos rfl).trans ?_),
        ⟨fun m hm => (seats m).trans ((if_neg hm).trans (others m hm)), fun b hb => (rooms b).trans ((if_neg hb).trans State.rested_room)⟩,
        onFloor.queues, onFloor.eq_with (opening.trans State.moveSeat_openingCount) (live.trans State.moveSeat_liveCount)
          (stamp.trans (congrArg (· + 1) stamp0)) (raised.trans ?_)⟩
      · rw [State.queuedSeat, seat, stamp0, session]
        rfl
      · rw [stamp0, segment]
      · rw [link, seat]
        rfl
  · have runs : exec .rampSettle s = .next (s.settleRamp a) := by
      refine congrArg Host.Outcome.next ((State.whileUp_of_high up _).trans ?_)
      unfold State.nextRamp
      rw [due]
      rfl
    have settled : s.settleRamp a = (s.setRoom a (some { r with ramp := .settled, settleDue := false })).note
        (.levelSettled a r.level r.profile.level r.ceiling) := by
      unfold State.settleRamp
      rw [hr]
    rw [settled] at runs
    exact ⟨_, runs, (State.setRoom_room ..).trans (if_pos rfl), fun b hb => (State.setRoom_room ..).trans (if_neg hb), rfl⟩

/-- Settles O39: the warning check, and then the limit check. -/
theorem speakingClockWarnsAndLimits : Obligations.SpeakingClockWarnsAndLimits := by
  unfold Obligations.SpeakingClockWarnsAndLimits
  intro s n a limit ns r c up done due clock at_ live limited
  have runs : exec .speakingClockSecond s =
      .next (((s.unmarked n).warnIfDue n c.seconds limit r).limitIfDue n c.seconds limit r) := by
    refine congrArg Host.Outcome.next ((State.whenDue_of_done up done _).trans ?_)
    rw [State.nextClock_of_due due, State.clockSecond_of_limit clock (State.seatRoom_of_room at_.map at_.room)
      (State.applicableLimit_of limited)]
  have seat : ∀ m, (s.unmarked n).seat m = if m = n then { s.seat n with secondDue := false } else s.seat m := fun m =>
    State.setSeat_seat ..
  have unmarked : s.OnFloor (s.unmarked n) := .setSeat n _
  have here : (s.unmarked n).seat n = { s.seat n with secondDue := false } := (seat n).trans (if_pos rfl)
  refine ⟨fun ⟨early, _, _⟩ => ⟨_, runs, ?_⟩, fun lead inside warns below fresh => ⟨_, runs, ?_⟩,
    fun late action fresh => ⟨_, runs, ?_⟩, fun late action nobody off => ⟨_, runs, ?_⟩⟩
  · rw [State.limitIfDue_of_below (by omega), State.warnIfDue_eq, if_neg (by omega)]
    exact ⟨here, fun m hm => (seat m).trans (if_neg hm), rfl⟩
  · obtain ⟨warned, others, queues, eq⟩ := State.warnIfDue_of_point (s := s.unmarked n) (n := n) (r := r) warns
    obtain ⟨v, hv⟩ : ∃ v, v = (s.unmarked n).warnIfDue n c.seconds limit r := ⟨_, rfl⟩
    rw [← hv] at warned others queues eq ⊢
    rw [here, decide_eq_true ⟨lead, inside⟩, Bool.or_true] at warned
    rw [here, if_pos ⟨lead, inside, fresh⟩] at eq
    rw [State.limitIfDue_of_below below]
    exact ⟨warned, fun m hm => (others m hm).trans ((seat m).trans (if_neg hm)), unmarked.queues.trans queues, eq⟩
  · obtain ⟨warned, others, queues, eq⟩ := State.warnIfDue_of_point (s := s.unmarked n) (n := n) (c := c.seconds) (limit := limit) (r := r) (by omega)
    obtain ⟨v, hv⟩ : ∃ v, v = (s.unmarked n).warnIfDue n c.seconds limit r := ⟨_, rfl⟩
    rw [← hv] at warned others queues eq ⊢
    rw [here] at warned eq
    have fresh' : (v.seat n).limitReported = false := by
      rw [warned]
      exact fresh
    have written := fun m => State.rewrite_seat (s := v) (n := n) (m := m) (x := { v.seat n with limitReported := true })
    rw [State.limitIfDue_of_notify late action fresh']
    refine ⟨(written n).trans ((if_pos rfl).trans ?_), fun m hm => (written m).trans ((if_neg hm).trans ((others m hm).trans
      ((seat m).trans (if_neg hm)))), (unmarked.queues.trans queues).trans (State.OnFloor.rewrite.trans (.note _)).queues, ?_⟩
    · rw [warned]
      rfl
    · have eq' := State.rewrite_eq (s := v) (n := n) (x := { v.seat n with limitReported := true })
      generalize v.rewrite n { v.seat n with limitReported := true } = w at eq' ⊢
      rw [eq', eq]
      rfl
  · obtain ⟨warned, others, -, eq⟩ := State.warnIfDue_of_point (s := s.unmarked n) (n := n) (c := c.seconds) (limit := limit) (r := r) (by omega)
    obtain ⟨v, hv⟩ : ∃ v, v = (s.unmarked n).warnIfDue n c.seconds limit r := ⟨_, rfl⟩
    rw [← hv] at warned others eq ⊢
    rw [here] at warned
    have off' : (v.enterClosing n .limit).CountersOff := (State.OnFloor.enterClosing n .limit).countersOff
      (by rw [eq]; exact ⟨off.off, off.none, off.open_⟩)
    have room : (v.enterClosing n .limit).room r.anchor = some r := by
      rw [State.enterClosing_room, eq, at_.anchor]
      exact at_.room
    have stays := State.promote_of_no_queue room nobody
    have counted : ((v.enterClosing n .limit).raiseSeat .limitClose n).settleCounts = v.enterClosing n .limit :=
      State.settleCounts_raise off'
    rw [State.limitIfDue_of_close late action, counted, stays]
    have closes := fun m => State.enterClosing_seat (s := v) (n := n) (m := m) (c := .limit)
    refine ⟨?_, ?_, ?_, fun m hm => (closes m).trans ((if_neg hm).trans ((others m hm).trans ((seat m).trans (if_neg hm))))⟩
    · rw [closes, if_pos rfl]
      rfl
    · rw [closes, if_pos rfl]
      rfl
    · rw [closes, if_pos rfl]
      show (v.seat n).slot = _
      rw [warned]

end

section
/-! SUPPORT. What the counters do with occurrences and at a second boundary, where none overflows and where one does (R185, R187 to
R190). -/

namespace Sys2Proof.Machine

/-- A counter that has taken an occurrence (R185, R188). -/
def Counter.took (x : Counter) : Counter :=
  if x.mode = .count then { x with value := x.value + 1 } else { x with tally := min 255 (x.tally + 1) }

/-- A counter that has taken its second without an overflow (R187 (3), R188). -/
def Counter.seconded (x : Counter) (reading : Nat) : Counter :=
  { x with value := x.value + x.addition reading, edge := if x.mode = .edge then x.condition reading else x.edge }

theorem Counter.addition_eq (x : Counter) (reading : Nat) : x.addition reading = match x.mode with
    | .count => if x.event.sampled then reading else 0
    | .threshold => if x.condition reading then 1 else 0
    | .edge => if x.condition reading ∧ x.edge = false then 1 else 0 := by
  unfold Counter.addition
  cases x.mode with
  | count => rfl
  | threshold => rfl
  | edge => simp

namespace State

section
variable {s t u : State} {c g n : Nat} {o : Occurrence} {os : List Occurrence} {x : Counter}

/-- From `s` to `t` only counters have changed. -/
def CountersOnly (s t : State) : Prop := t = { s with counts := { s.counts with counters := t.counts.counters } }

theorem CountersOnly.refl (s : State) : s.CountersOnly s := rfl

theorem CountersOnly.trans (h : s.CountersOnly t) (k : t.CountersOnly u) : s.CountersOnly u := by
  unfold CountersOnly at *
  rw [k, h]

theorem CountersOnly.setCounter (c : Nat) (x : Counter) : s.CountersOnly (s.setCounter c x) := rfl

/-- Counters that are written one after another, each from what it was at first. -/
theorem foldl_counters {f : State → Nat → State} {step : Nat → Counter → Counter} {cs : List Nat} (nodup : cs.Nodup)
    (hf : ∀ u c, c ∈ cs → s.CountersOnly u → u.counter c = s.counter c → u.CountersOnly (f u c) ∧
      ∀ d, (f u c).counter d = if d = c then step c (s.counter c) else u.counter d) :
    s.CountersOnly (cs.foldl f s) ∧ ∀ c, (cs.foldl f s).counter c = if c ∈ cs then step c (s.counter c) else s.counter c := by
  suffices later : ∀ u, s.CountersOnly u → (∀ c ∈ cs, u.counter c = s.counter c) → s.CountersOnly (cs.foldl f u) ∧
      ∀ c, (cs.foldl f u).counter c = if c ∈ cs then step c (s.counter c) else u.counter c from later s (.refl s) fun _ _ => rfl
  induction cs with
  | nil => exact fun u only _ => ⟨only, fun c => (if_neg List.not_mem_nil).symm⟩
  | cons c cs ih =>
    intro u only first
    obtain ⟨written, values⟩ := hf u c List.mem_cons_self only (first c List.mem_cons_self)
    have apart := (List.nodup_cons.1 nodup).1
    obtain ⟨only', values'⟩ := ih (List.nodup_cons.1 nodup).2 (fun v d hd => hf v d (List.mem_cons_of_mem c hd)) (f u c)
      (only.trans written) fun d hd => by
        rw [values, if_neg fun e : d = c => apart (e ▸ hd)]
        exact first d (List.mem_cons_of_mem c hd)
    refine ⟨only', fun d => ?_⟩
    rw [List.foldl_cons, values', values]
    by_cases here : d = c
    · subst here
      rw [if_neg apart, if_pos rfl, if_pos List.mem_cons_self]
    · simp only [here, if_false, List.mem_cons, false_or]

/-! ## One occurrence -/

/-- A counter takes an occurrence (R185). -/
def countedBy (s : State) (o : Occurrence) (x : Counter) : Bool := x.enabled && x.event = o.event && s.inScope x o

theorem inScope_iff : s.inScope x o = true ↔ s.InScope o x.scope := by
  unfold inScope InScope
  cases x.scope with
  | all => simp
  | segment k =>
    simp only [Bool.and_eq_true, decide_eq_true_eq, Option.isSome_iff_exists]
    exact ⟨fun ⟨⟨a, ha⟩, same⟩ => ⟨a, ha, same ▸ ha⟩, fun ⟨a, ha, hb⟩ => ⟨⟨a, ha⟩, ha.trans hb.symm⟩⟩
  | group g =>
    cases o.seat with
    | none => simp
    | some n => simp [memberOf]
  | bus i => simp

theorem countedBy_iff : s.countedBy o x = true ↔ x.enabled = true ∧ x.event = o.event ∧ s.InScope o x.scope := by
  simp only [countedBy, Bool.and_eq_true, decide_eq_true_eq, inScope_iff, and_assoc]

theorem CountersOnly.countedBy (h : s.CountersOnly t) : t.countedBy o x = s.countedBy o x := by
  rw [h]
  rfl

theorem takeOccurrence_of_room
    (room : s.countedBy o (s.counter c) = true → (s.counter c).mode = .count → (s.counter c).value < 4294967295) :
    s.takeOccurrence o c = if s.countedBy o (s.counter c) then s.setCounter c (s.counter c).took else s := by
  show (if s.countedBy o (s.counter c) then _ else _) = _
  split
  · next takes =>
    by_cases mode : (s.counter c).mode = .count
    · rw [Counter.took, if_pos mode]
      split
      · exact if_pos (room takes mode : (s.counter c).value + 1 ≤ counterTop)
      · next other => exact absurd mode other
    · rw [Counter.took, if_neg mode]
      split
      · next count => exact absurd count mode
      · rfl
  · rfl

/-- One occurrence is counted once by every counter that takes it. -/
theorem foldl_takeOccurrence
    (room : ∀ c ∈ counterNumbers, s.countedBy o (s.counter c) = true → (s.counter c).mode = .count → (s.counter c).value < 4294967295) :
    s.CountersOnly (counterNumbers.foldl (fun t c => t.takeOccurrence o c) s) ∧
      ∀ c, (counterNumbers.foldl (fun t c => t.takeOccurrence o c) s).counter c =
        if c ∈ counterNumbers then if s.countedBy o (s.counter c) then (s.counter c).took else s.counter c else s.counter c := by
  refine foldl_counters (cs := counterNumbers) (f := fun t c => t.takeOccurrence o c)
    (step := fun _ x => if s.countedBy o x then x.took else x) (by decide) fun u c hc only same => ?_
  have taken : u.takeOccurrence o c = if s.countedBy o (s.counter c) then u.setCounter c (s.counter c).took else u := by
    rw [takeOccurrence_of_room (by rw [only.countedBy, same]; exact room c hc), only.countedBy, same]
  rw [taken]
  split
  · exact ⟨.setCounter c _, fun d => setCounter_counter ..⟩
  · refine ⟨.refl u, fun d => ?_⟩
    split
    · subst_vars
      exact same
    · rfl

theorem addOccurrences_of_none (h : s.counts.raised = []) (fuel : Nat) : addOccurrences fuel s = s := by
  cases fuel with
  | zero => rfl
  | succ fuel =>
    unfold addOccurrences
    rw [h]

theorem settleCounts_of_none (h : s.counts.raised = []) : s.settleCounts = s := by
  unfold settleCounts
  split
  · rfl
  · exact addOccurrences_of_none h _

theorem CountersOnly.raised (h : s.CountersOnly t) : t.counts.raised = s.counts.raised :=
  (congrArg (fun v : State => v.counts.raised) h :)

theorem CountersOnly.deferring (h : s.CountersOnly t) : t.counts.deferring = s.counts.deferring :=
  (congrArg (fun v : State => v.counts.deferring) h :)

theorem CountersOnly.entryCount (h : s.CountersOnly t) : t.entryCount = s.entryCount := by
  rw [h]
  rfl

theorem settleCounts_of_cons (h : s.counts.raised = o :: os) (open_ : s.counts.deferring = false) : s.settleCounts =
    addOccurrences (os.length + s.entryCount)
      (counterNumbers.foldl (fun t c => t.takeOccurrence o c) { s with counts := { s.counts with raised := os } }) := by
  unfold settleCounts
  rw [if_neg (by rw [open_]; decide), h, List.length_cons, Nat.add_right_comm]
  exact (addOccurrences.eq_2 ..).trans (by rw [h])

/-- An occurrence that is raised when no other waits is counted at once. -/
theorem settleCounts_raise_of_room (none : s.counts.raised = []) (open_ : s.counts.deferring = false)
    (room : ∀ c ∈ counterNumbers, s.countedBy o (s.counter c) = true → (s.counter c).mode = .count → (s.counter c).value < 4294967295) :
    (s.raise o).settleCounts = counterNumbers.foldl (fun t c => t.takeOccurrence o c) s := by
  have raised : (s.raise o).counts.raised = [o] := by rw [State.raise_counts_raised, none]; rfl
  have emptied : { s.raise o with counts := { (s.raise o).counts with raised := [] } } = s := by
    rw [← none]
    rfl
  rw [settleCounts_of_cons raised open_, emptied]
  exact addOccurrences_of_none ((foldl_takeOccurrence room).1.raised.trans none) _

/-- The counters have taken an occurrence. -/
theorem Counted.of_taken (same : ∀ p : Scope, t.InScope o p ↔ s.InScope o p)
    (h : ∀ c, t.counter c = if c ∈ counterNumbers then if s.countedBy o (s.counter c) then (s.counter c).took else s.counter c
      else s.counter c) : s.Counted t o := by
  rintro c x takes rfl iff
  rw [same, ← countedBy_iff] at iff
  refine ⟨fun here => ?_, fun away => ?_⟩
  · obtain ⟨number, takes⟩ := iff.1 here
    rw [h, if_pos number, if_pos takes]
    rfl
  · rw [h]
    split
    · next number => exact if_neg fun takes => away (iff.2 ⟨number, takes⟩)
    · rfl

theorem CountersOnly.inScope (h : s.CountersOnly t) (p : Scope) : t.InScope o p ↔ s.InScope o p := by
  rw [h]
  rfl

theorem CountersReady.counted (ready : s.CountersReady) :
    s.Counted (s.raise o).settleCounts o ∧ s.CountersOnly (s.raise o).settleCounts := by
  have taken := foldl_takeOccurrence (s := s) (o := o) fun c hc _ _ => ready.below c hc
  rw [settleCounts_raise_of_room ready.none ready.open_ fun c hc _ _ => ready.below c hc]
  exact ⟨.of_taken taken.1.inScope taken.2, taken.1⟩

/-! ## The second boundary without an overflow (R187, R188) -/

theorem takeSecond_of_room {reading : Nat} (none : s.counts.raised = [])
    (room : (s.counter c).value + (s.counter c).addition reading ≤ 4294967295) :
    s.CountersOnly (s.takeSecond c reading) ∧
      ∀ d, (s.takeSecond c reading).counter d = if d = c then (s.counter c).seconded reading else s.counter d := by
  have added : s.addCounter c ((s.counter c).addition reading) =
      s.setCounter c { s.counter c with value := (s.counter c).value + (s.counter c).addition reading } := if_pos room
  unfold takeSecond Counter.seconded
  dsimp only
  rw [added]
  split
  · next mode =>
    rw [setCounter_counter_same, settleCounts_of_none (by exact none), if_pos mode]
    refine ⟨rfl, fun d => ?_⟩
    rw [setCounter_counter, setCounter_counter]
    split <;> rfl
  · next mode =>
    rw [settleCounts_of_none (by exact none), if_neg mode]
    exact ⟨rfl, fun d => setCounter_counter ..⟩

/-- Every tally is 0 again. -/
@[irreducible] def untallied (s : State) : State := counterNumbers.foldl (fun u c => u.setCounter c { u.counter c with tally := 0 }) s

theorem untallied_parts : s.CountersOnly s.untallied ∧
    ∀ c, s.untallied.counter c = if c ∈ counterNumbers then { s.counter c with tally := 0 } else s.counter c := by
  unfold untallied
  refine foldl_counters (cs := counterNumbers) (f := fun u c => u.setCounter c { u.counter c with tally := 0 }) (step := fun _ x => { x with tally := 0 })
    (by decide) fun u c _ _ same => ⟨rfl, fun d => ?_⟩
  rw [setCounter_counter, same]

/-- The counters that are enabled. -/
def enabledCounters (s : State) : List Nat := counterNumbers.filter (fun c => (s.counter c).enabled)

theorem second_eq : s.second = s.enabledCounters.foldl (fun u c => u.takeSecond c (s.reading (s.counter c))) s.untallied := by
  unfold untallied
  exact List.foldl_map ..

theorem second_of_room (none : s.counts.raised = [])
    (room : ∀ c ∈ counterNumbers, (s.counter c).value + (s.counter c).addition (s.reading (s.counter c)) ≤ 4294967295) :
    s.CountersOnly s.second ∧ ∀ c ∈ counterNumbers, s.second.counter c =
      if (s.counter c).enabled then { (s.counter c).seconded (s.reading (s.counter c)) with tally := 0 }
      else { s.counter c with tally := 0 } := by
  obtain ⟨only, tallies⟩ := untallied_parts (s := s)
  have nodup : s.enabledCounters.Nodup := List.Nodup.filter _ (by decide)
  obtain ⟨only', values⟩ := foldl_counters (s := s.untallied) (cs := s.enabledCounters)
    (f := fun u c => u.takeSecond c (s.reading (s.counter c))) (step := fun c x => x.seconded (s.reading (s.counter c))) nodup
    fun u c hc here same => by
      have number := (List.mem_filter.1 hc).1
      have record : u.counter c = { s.counter c with tally := 0 } := by rw [same, tallies, if_pos number]
      have fits : (u.counter c).value + (u.counter c).addition (s.reading (s.counter c)) ≤ 4294967295 := by
        rw [record]
        exact room c number
      rw [← same]
      exact takeSecond_of_room ((only.trans here).raised.trans none) fits
  rw [second_eq]
  refine ⟨only.trans only', fun c number => ?_⟩
  rw [values, tallies, if_pos number]
  simp only [enabledCounters, List.mem_filter, number, true_and]
  rfl

end

end State

end Sys2Proof.Machine

open Sys2Proof.Machine

/-- Settles O40. -/
theorem secondBoundaryAddsToTheCounters : Obligations.SecondBoundaryAddsToTheCounters := by
  unfold Obligations.SecondBoundaryAddsToTheCounters
  intro s up done due none _ room
  obtain ⟨v, hv⟩ : ∃ v : State, v = { s with counts := { s.counts with secondDue := false } } := ⟨_, rfl⟩
  have runs : exec .secondBoundary s = .next v.second := by
    refine congrArg Host.Outcome.next ((State.whenDue_of_done up done _).trans ?_)
    rw [hv]
    exact if_pos due
  have counter : ∀ c, v.counter c = s.counter c := fun c => by rw [hv]; rfl
  have reading : ∀ x, v.reading x = s.reading x := fun x => by rw [hv]; rfl
  obtain ⟨only, values⟩ := State.second_of_room (s := v) (by rw [hv]; exact none) fun c hc => by
    rw [counter, reading]
    exact room c hc
  generalize v.second = w at runs only values
  refine ⟨w, runs, fun c hc => ?_, by subst hv; exact only⟩
  rw [values c hc, counter, reading]
  refine if_congr Iff.rfl ?_ rfl
  rw [Counter.seconded, Counter.addition_eq] <;> rfl

end

section
/-! SUPPORT. A counter that passes its top: the overflow, the blocking of its group, and the drops that this brings (O41). -/

namespace Sys2Proof.Machine

namespace State

section
variable {s t u : State} {c g n k : Nat} {x : Counter}

/-! ## Drops that wait to be counted -/

/-- From `s` to `t` no counter and no group has changed, and only drops have joined the occurrences that wait. -/
structure Drops (s t : State) : Prop where
  counters : t.counts = { s.counts with raised := t.counts.raised }
  raised : ∀ o ∈ t.counts.raised, o ∈ s.counts.raised ∨ o.event = .requestDropped
  groups : t.floor.groups = s.floor.groups

theorem Drops.refl (s : State) : s.Drops s := ⟨rfl, fun _ => .inl, rfl⟩

theorem Drops.trans (h : s.Drops t) (k : t.Drops u) : s.Drops u :=
  ⟨by rw [k.counters, h.counters], fun o ho => (k.raised o ho).elim (h.raised o) .inr, k.groups.trans h.groups⟩

theorem Drops.fold {α : Type} {f : State → α → State} (hf : ∀ (v : State) y, v.Drops (f v y)) (ys : List α) (s : State) :
    s.Drops (ys.foldl f s) := by
  induction ys generalizing s with
  | nil => exact refl s
  | cons y ys ih => exact (hf s y).trans (ih _)

theorem Drops.of_onFloor (h : s.OnFloor t) : s.Drops t := ⟨by rw [h.counts], fun o ho => .inl (h.counts ▸ ho), h.groups⟩

theorem Drops.drop (n : Nat) (k : DropCause) : s.Drops (s.drop n k) := by
  have unqueued : s.Drops (s.unqueued n k) := .of_onFloor .unqueued
  refine unqueued.trans ⟨rfl, fun o ho => ?_, rfl⟩
  rcases List.mem_append.1 ho with ho | ho
  · exact .inl ho
  · exact .inr (by rw [List.mem_singleton.1 ho])

theorem Drops.group (h : s.Drops t) (d : Nat) : t.group d = s.group d := by
  unfold State.group
  rw [h.groups]

/-! ## The blocking of a group by an overflow (R125, R189) -/

/-- The group is marked blocked and GROUP_BLOCKED raised. -/
def barred (s : State) (g : Nat) : State := (s.setGroup g { s.group g with blocked := true }).noteGroup g true .counter

/-- The installed seats that this blocks. -/
def barredSeats (s : State) (g : Nat) : List Nat := newlyBlocked s (s.setGroup g { s.group g with blocked := true })

/-- What the drops of the blocked seats leave. -/
def barredDrops (s : State) (g : Nat) : State :=
  ((s.barred g).queuedAmong (s.barredSeats g)).foldl (fun v n => v.drop n .blocked) (s.barred g)

theorem counterBlocks_of_blocked (h : (s.group g).blocked = true) : s.counterBlocks g = s := if_pos h

theorem counterBlocks_of_uninstalled (h : (s.group g).blocked = false) (hi : (s.group g).installed = false) :
    s.counterBlocks g = s.setGroup g { s.group g with blocked := true } := by
  unfold counterBlocks
  dsimp only
  rw [if_neg (Bool.eq_false_iff.1 h), if_neg (by simp [hi]), if_neg (by simp [hi])]

theorem counterBlocks_of_run (h : (s.group g).blocked = false) (hi : (s.group g).installed = true) (hp : s.link.phase = .run) :
    s.counterBlocks g = (s.barredDrops g).reformAll (s.barredSeats g) := by
  unfold counterBlocks
  rw [if_neg (Bool.eq_false_iff.1 h), if_pos (by simp [hi, hp])]
  rfl

theorem Drops.barredDrops : (s.barred g).Drops (s.barredDrops g) := .fold (fun _ n => .drop n .blocked) _ _

theorem counterBlocks_parts (hp : s.link.phase = .run) : (s.counterBlocks g).counts = { s.counts with
      raised := (s.counterBlocks g).counts.raised } ∧
    (∀ o ∈ (s.counterBlocks g).counts.raised, o ∈ s.counts.raised ∨ o.event = .requestDropped) ∧
    ∀ d, (s.counterBlocks g).group d = if d = g then { s.group g with blocked := true } else s.group d := by
  cases blocked : (s.group g).blocked with
  | true =>
    rw [counterBlocks_of_blocked blocked]
    refine ⟨rfl, fun _ => .inl, fun d => ?_⟩
    split
    · subst_vars
      rw [← blocked]
    · rfl
  | false =>
    cases installed : (s.group g).installed with
    | false =>
      rw [counterBlocks_of_uninstalled blocked installed]
      exact ⟨rfl, fun _ => .inl, fun d => setGroup_group ..⟩
    | true =>
      have drops : (s.barred g).Drops ((s.barredDrops g).reformAll (s.barredSeats g)) :=
        Drops.barredDrops.trans (.of_onFloor (.reformAll _))
      rw [counterBlocks_of_run blocked installed hp]
      exact ⟨drops.counters, drops.raised, fun d => (drops.group d).trans (setGroup_group ..)⟩

/-- A seat that is newly blocked is taken by the group. -/
theorem groupTakes_of_newly (h : (s.setGroup g { s.group g with blocked := true }).blocked n = true) (before : s.blocked n = false) :
    groupTakes (s.group g) n = true := by
  obtain ⟨d, range, takes, force⟩ := blocked_iff.1 h
  rw [setGroup_group] at takes force
  split at takes
  · exact takes
  · next other =>
    rw [if_neg other] at force
    rw [blocked_iff.2 ⟨d, range, takes, force⟩] at before
    cases before

theorem barredSeats_takes (h : n ∈ s.barredSeats g) : groupTakes (s.group g) n = true := by
  unfold barredSeats newlyBlocked at h
  obtain ⟨v, -, meets⟩ := Kept.mem_tkeys h
  rw [Bool.and_eq_true, Bool.and_eq_true, Bool.not_eq_true'] at meets
  exact groupTakes_of_newly meets.1.2 meets.2

/-- Where no member of the group waits, nobody is dropped. -/
theorem barredDrops_of_nobody
    (nobody : ∀ a r, s.room a = some r → ∀ e ∈ r.queue, groupTakes (s.group g) e.seat = false) : s.barredDrops g = s.barred g := by
  have none : (s.barred g).queuedAmong (s.barredSeats g) = [] := List.eq_nil_iff_forall_not_mem.2 fun n hn => by
    obtain ⟨seat, a, r, e, hr, he, rfl⟩ := mem_queuedAmong.1 hn
    have out := nobody a r hr e he
    rw [barredSeats_takes seat] at out
    cases out
  rw [barredDrops, none]
  rfl

/-! ## An overflow (R189) -/

/-- A counter has passed its top and COUNTER_OVERFLOW has been raised. -/
def wrapped (s : State) (c k : Nat) : State :=
  (s.setCounter c { s.counter c with value := (s.counter c).value + k - 4294967296 }).note (.counterOverflow c (s.counter c).event
    (s.counter c).scope (s.counter c).mode ((s.counter c).value + k - 4294967296) (s.counter c).action)

/-- The action of an overflow is carried out. -/
def overflowed (s : State) (x : Counter) : State :=
  match x.action, x.scope with
  | .noticeAndBlock, .group g => s.counterBlocks g
  | _, _ => s

theorem addCounter_of_overflow (h : 4294967295 < (s.counter c).value + k) :
    s.addCounter c k = (s.wrapped c k).overflowed (s.counter c) := by
  unfold addCounter
  dsimp only
  rw [if_neg (show ¬ (s.counter c).value + k ≤ counterTop by rw [show counterTop = 4294967295 from rfl]; omega)]
  rfl

theorem overflowed_of_notice (h : x.action = .notice) : s.overflowed x = s := by
  unfold overflowed
  rw [h]

theorem overflowed_of_block (h : x.action = .noticeAndBlock) (hs : x.scope = .group g) : s.overflowed x = s.counterBlocks g := by
  unfold overflowed
  rw [h, hs]

theorem overflowed_counts (hp : s.link.phase = .run) : (s.overflowed x).counts = { s.counts with
      raised := (s.overflowed x).counts.raised } ∧
    ∀ o ∈ (s.overflowed x).counts.raised, o ∈ s.counts.raised ∨ o.event = .requestDropped := by
  unfold overflowed
  split
  · exact ⟨(counterBlocks_parts hp).1, (counterBlocks_parts hp).2.1⟩
  · exact ⟨rfl, fun _ => .inl⟩

/-- A counter in EDGE mode remembers its condition. -/
def edged (s : State) (c : Nat) (x : Counter) (reading : Nat) : State :=
  if x.mode = .edge then s.setCounter c { s.counter c with edge := x.condition reading } else s

theorem takeSecond_of_overflow {reading : Nat} (h : 4294967295 < (s.counter c).value + (s.counter c).addition reading) :
    s.takeSecond c reading =
      (((s.wrapped c ((s.counter c).addition reading)).overflowed (s.counter c)).edged c (s.counter c) reading).settleCounts := by
  unfold takeSecond edged
  dsimp only
  rw [addCounter_of_overflow h]
  split
  · next mode => rw [if_pos mode]
  · next mode => rw [if_neg mode]

theorem edged_eq {reading : Nat} : s.CountersOnly (s.edged c x reading) ∧
    ∀ d, (s.edged c x reading).counter d = { s.counter d with edge := ((s.edged c x reading).counter d).edge } := by
  unfold edged
  split
  · refine ⟨rfl, fun d => ?_⟩
    rw [setCounter_counter]
    split
    · subst_vars
      rfl
    · rfl
  · exact ⟨rfl, fun _ => rfl⟩

/-! ## Drops that are counted without an overflow -/

/-- No counter that counts drops is in COUNT mode, so that a drop adds to no counter's value. -/
def CountsNoDrop (s : State) : Prop := ∀ c ∈ counterNumbers, (s.counter c).enabled = true → (s.counter c).event = .requestDropped →
  (s.counter c).mode ≠ .count

theorem addOccurrences_of_drops (fuel : Nat) (s : State) (drops : ∀ o ∈ s.counts.raised, o.event = .requestDropped)
    (quiet : s.CountsNoDrop) : addOccurrences fuel s = { s with counts := (addOccurrences fuel s).counts } ∧
      ∀ c, (addOccurrences fuel s).counter c = { s.counter c with tally := ((addOccurrences fuel s).counter c).tally } := by
  induction fuel generalizing s with
  | zero => exact ⟨rfl, fun _ => rfl⟩
  | succ fuel ih =>
    unfold addOccurrences
    split
    · exact ⟨rfl, fun _ => rfl⟩
    · next o os raised =>
      rw [raised] at drops
      obtain ⟨only, values⟩ := foldl_takeOccurrence (s := { s with counts := { s.counts with raised := os } }) (o := o)
        fun c number takes mode => by
          obtain ⟨enabled, event, -⟩ := countedBy_iff.1 takes
          exact absurd mode (quiet c number enabled (event.trans (drops o List.mem_cons_self)))
      generalize counterNumbers.foldl (fun t c => t.takeOccurrence o c) { s with counts := { s.counts with raised := os } } = v
        at only values
      have tallies : ∀ c, v.counter c = { s.counter c with tally := (v.counter c).tally } := fun c => by
        have value := values c
        change v.counter c = (if c ∈ counterNumbers then if _ then (s.counter c).took else s.counter c else s.counter c) at value
        split at value
        · next number =>
          split at value
          · next takes =>
            obtain ⟨enabled, event, -⟩ := countedBy_iff.1 takes
            rw [Counter.took, if_neg (quiet c number enabled (event.trans (drops o List.mem_cons_self)))] at value
            rw [value]
          · rw [value]
        · rw [value]
      have left : v.counts.raised = os := only.raised
      obtain ⟨rest, later⟩ := ih v (fun p hp => drops p (List.mem_cons_of_mem o (left ▸ hp))) fun c number => by
        rw [tallies]
        exact quiet c number
      refine ⟨?_, fun c => ?_⟩
      · rw [rest, only]
      · rw [later, tallies]

theorem settleCounts_of_drops (drops : ∀ o ∈ s.counts.raised, o.event = .requestDropped) (quiet : s.CountsNoDrop) :
    s.settleCounts = { s with counts := s.settleCounts.counts } ∧
      ∀ c, s.settleCounts.counter c = { s.counter c with tally := (s.settleCounts.counter c).tally } := by
  unfold settleCounts
  split
  · exact ⟨rfl, fun _ => rfl⟩
  · exact addOccurrences_of_drops _ s drops quiet

end

end State

end Sys2Proof.Machine
end

section
/-! SUPPORT. The second boundary at which one counter passes its top (O41). -/

namespace Sys2Proof.Machine

namespace State

section
variable {s t u : State} {c g v : Nat} {x : Counter}

theorem Sheds.of_countersOnly (h : s.CountersOnly t) : s.Sheds t := by
  rw [h]
  exact .setCounts _

theorem Sheds.overflowed : s.Sheds (s.overflowed x) := by
  unfold State.overflowed
  split
  · exact .counterBlocks _
  · exact .refl s

theorem untallied_counter (h : c ∈ counterNumbers) : s.untallied.counter c = { s.counter c with tally := 0 } :=
  (untallied_parts.2 c).trans (if_pos h)

/-- With one counter enabled the second boundary is its second. -/
theorem second_of_one (number : c ∈ counterNumbers) (enabled : (s.counter c).enabled = true)
    (others : ∀ d ∈ counterNumbers, d ≠ c → (s.counter d).enabled = false) :
    s.second = s.untallied.takeSecond c (s.reading (s.counter c)) := by
  have one : s.enabledCounters = [c] := by
    have alone : s.enabledCounters = counterNumbers.filter (fun d => decide (d = c)) := List.filter_congr fun d hd => by
      by_cases same : d = c
      · rw [same, enabled, decide_eq_true rfl]
      · rw [others d hd same, decide_eq_false same]
    rw [alone, counterNumbers]
    simp only [counterNumbers, List.mem_cons, List.not_mem_nil, or_false] at number
    rcases number with rfl | rfl | rfl | rfl | rfl | rfl | rfl | rfl <;> rfl
  rw [second_eq]
  rw [one]
  rfl

/-- What the overflow of the one enabled counter leaves, before its drops are counted. -/
def passedTop (s : State) (c : Nat) (x : Counter) : State :=
  ((s.untallied.wrapped c (x.addition (s.reading x))).overflowed (s.untallied.counter c)).edged c (s.untallied.counter c)
    (s.reading x)

end

section
variable {s : State} {c v : Nat} {x : Counter} {n : Notice} (hp : s.link.phase = .run) (none : s.counts.raised = [])
  (number : c ∈ counterNumbers) (hx : x = s.counter c) (enabled : x.enabled = true)
  (others : ∀ d ∈ counterNumbers, d ≠ c → (s.counter d).enabled = false) (small : x.value ≤ 4294967295)
  (hv : v = x.value + x.addition (s.reading x)) (passes : 4294967295 < v)
  (hn : n = .counterOverflow c x.event x.scope x.mode (v - 4294967296) x.action)

include hx in
theorem passedTop_start (number : c ∈ counterNumbers) : s.untallied.counter c = { x with tally := 0 } := by
  rw [untallied_counter number, hx]

include number hx hv passes in
theorem second_of_overflow (enabled : x.enabled = true) (others : ∀ d ∈ counterNumbers, d ≠ c → (s.counter d).enabled = false) :
    s.second = (s.passedTop c x).settleCounts := by
  have start := passedTop_start hx number
  have above : 4294967295 < (s.untallied.counter c).value + (s.untallied.counter c).addition (s.reading x) := by
    rw [start]
    exact hv ▸ passes
  rw [second_of_one number (hx ▸ enabled) others, ← hx, takeSecond_of_overflow above, start]
  rw [passedTop, start]
  rfl

include number hx hv hn in
/-- The wrapped counter and its notice. -/
theorem wrapped_eq : s.untallied.wrapped c (x.addition (s.reading x)) = { s with
      counts := (s.untallied.wrapped c (x.addition (s.reading x))).counts, link := s.link.raise n } ∧
    (s.untallied.wrapped c (x.addition (s.reading x))).counts.raised = s.counts.raised ∧
    ∀ d, (s.untallied.wrapped c (x.addition (s.reading x))).counter d =
      if d = c then { x with value := v - 4294967296, tally := 0 } else s.untallied.counter d := by
  have start := passedTop_start hx number
  have counter := fun d => setCounter_counter (s := s.untallied) c { s.untallied.counter c with
    value := (s.untallied.counter c).value + x.addition (s.reading x) - 4294967296 } d
  refine ⟨?_, ?_, fun d => (counter d).trans ?_⟩
  · rw [wrapped, start, hn, hv]
    generalize hz : s.untallied = z
    have eq : s.CountersOnly s.untallied := untallied_parts.1
    rw [hz] at eq
    unfold CountersOnly at eq
    rw [eq]
    rfl
  · exact untallied_parts.1.raised
  · rw [start, hv]

include number hx hv passes small hp none others hn in
/-- The overflow's own work: the counter's value, and the drops that are to be counted. -/
theorem passedTop_parts : ((s.passedTop c x).counter c).value = v - 4294967296 ∧
    ((s.passedTop c x).counter c).enabled = x.enabled ∧ (∀ o ∈ (s.passedTop c x).counts.raised, o.event = .requestDropped) ∧
    (s.passedTop c x).CountsNoDrop := by
  have start := passedTop_start hx number
  obtain ⟨eq, raised, counters⟩ := wrapped_eq number hx hv hn
  have phase : (s.untallied.wrapped c (x.addition (s.reading x))).link.phase = .run := by
    rw [eq]
    exact (LinkUnit.raise_phase _ _).trans hp
  obtain ⟨counts, drops⟩ := overflowed_counts (x := s.untallied.counter c) phase
  obtain ⟨only, edges⟩ := edged_eq (s := (s.untallied.wrapped c (x.addition (s.reading x))).overflowed (s.untallied.counter c))
    (c := c) (x := s.untallied.counter c) (reading := s.reading x)
  have counter : ∀ d, (s.passedTop c x).counter d = { (if d = c then { x with value := v - 4294967296, tally := 0 }
      else s.untallied.counter d : Counter) with edge := ((s.passedTop c x).counter d).edge } := fun d => by
    have same : ((s.untallied.wrapped c (x.addition (s.reading x))).overflowed (s.untallied.counter c)).counter d =
        (s.untallied.wrapped c (x.addition (s.reading x))).counter d := by
      rw [State.counter, counts]
      rfl
    rw [passedTop, edges d, same, counters d]
  refine ⟨?_, ?_, fun o ho => ?_, fun d hd on event => ?_⟩
  · rw [counter, if_pos rfl]
  · rw [counter, if_pos rfl]
  · rw [passedTop, only.raised] at ho
    refine (drops o ho).resolve_left fun before => ?_
    rw [raised, none] at before
    cases before
  · by_cases same : d = c
    · rw [counter, if_pos same] at event ⊢
      intro mode
      have nothing : x.addition (s.reading x) = 0 := by
        rw [Counter.addition_eq, show x.mode = .count from mode]
        exact if_neg (by rw [show x.event = .requestDropped from event]; decide)
      rw [nothing] at hv
      omega
    · rw [counter, if_neg same, untallied_counter hd] at on
      rw [others d hd same] at on
      cases on

end

/-- Where an overflow's notice is all, nothing else than counters and the link changes. -/
theorem noticed {s w u : State} {n : Notice} (none : s.counts.raised = [])
    (eq : w = { s with counts := w.counts, link := s.link.raise n }) (raised : w.counts.raised = s.counts.raised)
    (only : w.CountersOnly u) : u.settleCounts = { s with counts := u.settleCounts.counts, link := s.link.raise n } := by
  rw [settleCounts_of_none (only.raised.trans (raised.trans none))]
  unfold CountersOnly at only
  rw [only, eq]

/-- What the overflow leaves when its drops have been counted. -/
theorem passedTop_settled {s t : State} {c v : Nat} {x : Counter} {n : Notice} (hp : s.link.phase = .run)
    (none : s.counts.raised = []) (number : c ∈ counterNumbers) (hx : x = s.counter c) (enabled : x.enabled = true)
    (others : ∀ d ∈ counterNumbers, d ≠ c → (s.counter d).enabled = false) (small : x.value ≤ 4294967295)
    (hv : v = x.value + x.addition (s.reading x)) (passes : 4294967295 < v)
    (hn : n = .counterOverflow c x.event x.scope x.mode (v - 4294967296) x.action) (ht : t = (s.passedTop c x).settleCounts) :
    (t.counter c).value = v - 4294967296 ∧ (t.counter c).enabled = true ∧ t.hall = { s.hall with rooms := t.hall.rooms } ∧
      (x.action = .notice → t = { s with counts := t.counts, link := s.link.raise n }) ∧
      ∀ g, x.action = .noticeAndBlock → x.scope = .group g →
        (∀ h, h ≠ g → t.group h = s.group h) ∧ t.group g = { s.group g with blocked := true } ∧
        ((s.group g).blocked = true → t = { s with counts := t.counts, link := s.link.raise n }) ∧
        ((s.group g).blocked = false → (s.group g).installed = false →
          t = { s with counts := t.counts, link := s.link.raise n
                       floor := { s.floor with groups := t.floor.groups } }) ∧
        ((s.group g).blocked = false → (s.group g).installed = true →
          (∀ a r, s.room a = some r → ∀ e ∈ r.queue, groupTakes (s.group g) e.seat = false) →
          s.QueuesOnly t ∧ t = { s with
            counts := t.counts
            floor := { s.floor with groups := t.floor.groups, seats := t.floor.seats }
            buses := t.buses
            link := (s.link.raise n).raise (.groupBlocked g true .counter (s.memberCount g)) }) := by
  subst ht
  obtain ⟨value, on, drops, quiet⟩ := passedTop_parts hp none number hx others small hv passes hn
  obtain ⟨settled, tallies⟩ := settleCounts_of_drops drops quiet
  obtain ⟨eq, raised, counters⟩ := wrapped_eq number hx hv hn
  have start := passedTop_start hx number
  have unchanged : (s.passedTop c x).counts.raised = [] → (s.passedTop c x).settleCounts = s.passedTop c x :=
    settleCounts_of_none
  have edged : ∀ w : State, (s.untallied.wrapped c (x.addition (s.reading x))).overflowed (s.untallied.counter c) = w →
      w.CountersOnly (s.passedTop c x) := fun w hw => by
    rw [passedTop, hw]
    exact edged_eq.1
  have sheds : s.Sheds (s.passedTop c x).settleCounts := by
    have begun : s.Sheds s.untallied := .of_countersOnly untallied_parts.1
    exact (((begun.trans ((Sheds.setCounter c _).trans (.note _))).trans .overflowed).trans
      (.of_countersOnly (edged _ rfl))).trans .settleCounts
  generalize hw : s.untallied.wrapped c (x.addition (s.reading x)) = w at eq raised counters edged
  generalize hu : s.passedTop c x = u at value on drops quiet settled tallies unchanged edged sheds
  refine ⟨?_, ?_, sheds.hall, fun notice => ?_, fun g block scope => ?_⟩
  · rw [tallies]
    exact value
  · rw [tallies]
    exact on.trans enabled
  · exact noticed none eq raised (edged w (overflowed_of_notice (by rw [start]; exact notice)))
  have phase : w.link.phase = .run := by
    rw [eq]
    exact (LinkUnit.raise_phase _ _).trans hp
  have blocks : w.overflowed (s.untallied.counter c) = w.counterBlocks g :=
    overflowed_of_block (by rw [start]; exact block) (by rw [start]; exact scope)
  have only := edged _ blocks
  have group : ∀ h, w.group h = s.group h := fun h => by rw [eq]; rfl
  have groups : ∀ h, u.settleCounts.group h = if h = g then { s.group g with blocked := true } else s.group h := fun h => by
    have kept : u.settleCounts.group h = (w.counterBlocks g).group h := by
      rw [settled, only]
      rfl
    rw [kept, (counterBlocks_parts phase).2.2, group, group]
  refine ⟨fun h hg => (groups h).trans (if_neg hg), (groups g).trans (if_pos rfl), fun blocked => ?_, fun free uninstalled => ?_,
    fun free installed nobody => ?_⟩
  · rw [counterBlocks_of_blocked (by rw [group]; exact blocked)] at only
    exact noticed none eq raised only
  · rw [counterBlocks_of_uninstalled (by rw [group]; exact free) (by rw [group]; exact uninstalled)] at only
    rw [unchanged (by rw [only.raised]; exact raised.trans none), only, eq]
    rfl
  · have nobody' : ∀ a r, w.room a = some r → ∀ e ∈ r.queue, groupTakes (w.group g) e.seat = false := by
      rw [group]
      rw [eq]
      exact nobody
    rw [counterBlocks_of_run (by rw [group]; exact free) (by rw [group]; exact installed) phase,
      barredDrops_of_nobody nobody'] at only
    have onFloor : (w.barred g).OnFloor ((w.barred g).reformAll (w.barredSeats g)) := .reformAll _
    have shown : (w.barred g).Shown ((w.barred g).reformAll (w.barredSeats g)) := .reformAll _
    have link : ((w.barred g).reformAll (w.barredSeats g)).link = (w.barred g).link := reformAll_link _
    generalize (w.barred g).reformAll (w.barredSeats g) = z at only onFloor shown link
    have waits : u.counts.raised = [] := by
      rw [only.raised, onFloor.counts]
      exact raised.trans none
    have members : w.barred g = { s with
        counts := w.counts
        floor := { s.floor with groups := (w.barred g).floor.groups }
        link := (s.link.raise n).raise (.groupBlocked g true .counter (s.memberCount g)) } := by
      have count : (w.setGroup g { w.group g with blocked := true }).memberCount g = s.memberCount g := by
        unfold memberCount
        rw [setGroup_group, if_pos rfl, group, eq]
        rfl
      show note _ (.groupBlocked g true .counter _) = _
      rw [count, eq]
      rfl
    have queues : s.QueuesOnly z := by
      have before : s.QueuesOnly (w.barred g) := .of_buses (by rw [members])
      exact before.trans onFloor.queues
    have final : z = { s with
        counts := z.counts
        floor := { s.floor with groups := z.floor.groups, seats := z.floor.seats }
        buses := z.buses
        link := (s.link.raise n).raise (.groupBlocked g true .counter (s.memberCount g)) } := by
      have hall := shown.hall
      have floor := shown.floor
      generalize w.barred g = y at onFloor hall floor link members
      have eq := onFloor.eq_of_hall hall (by rw [floor]) (by rw [floor]) (by rw [floor]) link
      rw [eq, members]
    rw [unchanged waits]
    unfold CountersOnly at only
    rw [only]
    exact ⟨queues, by rw [final]⟩

end State

end Sys2Proof.Machine

open Sys2Proof.Machine

/-- Settles O41. -/
theorem overflowWrapsAndBlocks : Obligations.OverflowWrapsAndBlocks := by
  unfold Obligations.OverflowWrapsAndBlocks
  intro s' c v x n up done hp' due none' _ number hx' enabled others' small hv' passes hn
  obtain ⟨s, hs⟩ : ∃ s : State, s = { s' with counts := { s'.counts with secondDue := false } } := ⟨_, rfl⟩
  have hp : s.link.phase = .run := by rw [hs]; exact hp'
  have none : s.counts.raised = [] := by rw [hs]; exact none'
  have hx : x = s.counter c := by rw [hs]; exact hx'
  have hv : v = x.value + x.addition (s.reading x) := by rw [hs]; exact hv'
  have others : ∀ d ∈ counterNumbers, d ≠ c → (s.counter d).enabled = false := by rw [hs]; exact others'
  have runs : exec .secondBoundary s' = .next (s.passedTop c x).settleCounts := by
    refine congrArg Host.Outcome.next ((State.whenDue_of_done up done _).trans ?_)
    rw [← State.second_of_overflow number hx hv passes enabled others, hs]
    exact if_pos due
  have core := State.passedTop_settled hp none number hx enabled others small hv passes hn rfl
  generalize (s.passedTop c x).settleCounts = t at core runs
  subst hs
  exact ⟨t, runs, core⟩

end

section
/-! SUPPORT. What a block boundary samples, counts and opens where nothing is left due (O37), and work on the buses one by one. -/

namespace Sys2Proof.Machine

namespace State

variable {s t : State} {a n p : Nat} {r : Room} {os : List Occurrence} {audio : List Upstream} {sense : BitVec 16}

/-! ## Work on the buses one by one -/

/-- Work that takes the buses in turn, each from what it was, and changes nothing else. -/
theorem foldl_bus {f : State → Nat → State} {step : Nat → Bus → Bus} (hf : ∀ v i, f v i = { v with buses := (f v i).buses })
    (hb : ∀ v i j, v = { s with buses := v.buses } → (f v i).bus j = if j = i then step i (v.bus i) else v.bus j)
    {is : List Nat} (nodup : is.Nodup) (j : Nat) :
    (is.foldl f s).bus j = if j ∈ is then step j (s.bus j) else s.bus j := by
  suffices later : ∀ v : State, v = { s with buses := v.buses } → (∀ i ∈ is, v.bus i = s.bus i) →
      (is.foldl f v).bus j = if j ∈ is then step j (s.bus j) else v.bus j from later s rfl fun _ _ => rfl
  induction is with
  | nil => exact fun v _ _ => (if_neg List.not_mem_nil).symm
  | cons i is ih =>
    intro v only first
    have apart := (List.nodup_cons.1 nodup).1
    rw [List.foldl_cons, ih (List.nodup_cons.1 nodup).2 (f v i) (by rw [hf, only]) fun k hk => by
      rw [hb v i k only, if_neg fun e : k = i => apart (e ▸ hk)]
      exact first k (List.mem_cons_of_mem i hk), hb v i j only]
    by_cases here : j = i
    · subst here
      rw [if_neg apart, if_pos rfl, if_pos List.mem_cons_self, first j List.mem_cons_self]
    · simp only [here, if_false, List.mem_cons, false_or]

theorem openWindow_bus (v : State) (i j : Nat) : (v.openWindow i).bus j =
    if j = i then { v.bus i with begun := 0, missed := [], exchange := none } else v.bus j := setBus_bus ..

theorem ticked_bus {i : Nat} (h : i < 5) : s.ticked.bus i = { s.bus i with begun := 0, missed := [], exchange := none } := by
  have number : i ∈ busNumbers := by
    unfold busNumbers
    simp only [List.mem_cons, List.not_mem_nil, or_false]
    omega
  exact (foldl_bus (step := fun _ x => { x with begun := 0, missed := [], exchange := none }) openWindow_buses
    (fun v i j _ => openWindow_bus v i j) (by decide) i).trans (if_pos number)

/-! ## The end of the block before -/

theorem addOccurrences_of_off (off : ∀ c ∈ counterNumbers, (s.counter c).enabled = false) (more : Nat) :
    addOccurrences (os.length + more) { s with counts := { s.counts with raised := os } } =
      { s with counts := { s.counts with raised := [] } } := by
  induction os with
  | nil => exact addOccurrences_of_none rfl _
  | cons o os ih =>
    rw [List.length_cons, Nat.add_right_comm]
    unfold addOccurrences
    dsimp only
    rw [foldl_of_fixed _ _ fun c hc => takeOccurrence_of_off (s := { s with counts := { s.counts with raised := os } }) (off c hc)]
    exact ih

/-- What is raised one after another joins the tail. -/
theorem foldl_raise (s : State) (os : List Occurrence) :
    os.foldl raise s = { s with counts := { s.counts with raised := s.counts.raised ++ os } } := by
  induction os generalizing s with
  | nil => rw [List.append_nil]; rfl
  | cons o os ih =>
    rw [List.foldl_cons, ih]
    simp [raise]

theorem settleCounts_foldl_raise (off : s.CountersOff) : (os.foldl raise s).settleCounts = s := by
  have emptied : { s with counts := { s.counts with raised := [] } } = s := by
    rw [← off.none]
  rw [foldl_raise, off.none, List.nil_append, settleCounts, if_neg (by simp [off.open_])]
  exact (addOccurrences_of_off off.off _).trans emptied

/-- The block that ended, as it was heard. -/
def heardBlock (s : State) (audio : List Upstream) : State := { s with mix := { s.mix with heard := mixBlock s.mix.plan audio } }

/-- The occurrence of a room whose floor saturated in the block that ended (R178). -/
def clipOf (a : Nat) : Occurrence := { event := .clip, segment := a, bus := none, seat := none }

theorem closeBlock_of_run (hp : s.link.phase = .run) : s.closeBlock audio =
    (((s.mix.plan.voices.filter (floorClips s.mix.plan audio)).map clipOf).foldl raise (s.heardBlock audio)).settleCounts := by
  rw [List.foldl_map]
  exact if_pos hp

theorem closeBlock_of_off (off : s.CountersOff) : s.closeBlock audio = s.heardBlock audio := by
  by_cases hp : s.link.phase = .run
  · rw [closeBlock_of_run hp]
    exact settleCounts_foldl_raise ⟨off.off, off.none, off.open_⟩
  · exact if_neg hp

/-! ## The samples -/

theorem foldl_settling {step : Nat → Settling → Settling} {ps : List Nat} (nodup : ps.Nodup) (s : State) :
    ps.foldl (fun t p => t.setSettling p (step p (t.settling p))) s =
        { s with hall := { s.hall with settling :=
          (ps.foldl (fun t p => t.setSettling p (step p (t.settling p))) s).hall.settling } } ∧
      ∀ p, (ps.foldl (fun t p => t.setSettling p (step p (t.settling p))) s).settling p =
        if p ∈ ps then step p (s.settling p) else s.settling p := by
  induction ps generalizing s with
  | nil => exact ⟨rfl, fun p => (if_neg List.not_mem_nil).symm⟩
  | cons q ps ih =>
    have apart := (List.nodup_cons.1 nodup).1
    obtain ⟨only, values⟩ := ih (List.nodup_cons.1 nodup).2 (s.setSettling q (step q (s.settling q)))
    rw [List.foldl_cons]
    refine ⟨only, fun p => ?_⟩
    rw [values, setSettling_settling]
    by_cases here : p = q
    · subst here
      rw [if_neg apart, if_pos rfl, if_pos List.mem_cons_self]
    · simp only [here, if_false, List.mem_cons, false_or]

theorem mem_inputNumbers : p ∈ inputNumbers ↔ 1 ≤ p ∧ p ≤ 16 := by
  unfold inputNumbers
  simp only [List.mem_map, List.mem_range]
  exact ⟨fun ⟨k, hk, e⟩ => by omega, fun ⟨low, high⟩ => ⟨p - 1, by omega, by omega⟩⟩

theorem sampleInputs_eq : s.sampleInputs sense =
    { s with hall := { s.hall with settling := (s.sampleInputs sense).hall.settling } } :=
  (foldl_settling (step := fun p x => x.sample (contactAt sense p)) (by decide) s).1

theorem sampleInputs_settling (low : 1 ≤ p) (high : p ≤ 16) :
    (s.sampleInputs sense).settling p = (s.settling p).sample (contactAt sense p) :=
  ((foldl_settling (step := fun p x => x.sample (contactAt sense p)) (ps := inputNumbers) (by decide) s).2 p).trans
    (if_pos (mem_inputNumbers.2 ⟨low, high⟩))

/-! ## The boundary -/

/-- A boundary before it counts: the block that ended is heard, and the inputs are sampled. -/
def sampled (s : State) (sense : BitVec 16) (audio : List Upstream) : State := (s.heardBlock audio).sampleInputs sense

theorem sampled_eq : s.sampled sense audio = { s with
    hall := { s.hall with settling := (s.sampled sense audio).hall.settling }
    mix := { s.mix with heard := mixBlock s.mix.plan audio } } := sampleInputs_eq

theorem sampled_settling (low : 1 ≤ p) (high : p ≤ 16) :
    (s.sampled sense audio).settling p = (s.settling p).sample (contactAt sense p) := by
  have same : (s.heardBlock audio).settling p = s.settling p := rfl
  rw [sampled, sampleInputs_settling low high, same]

theorem finishDue_of_calm (calm : s.Calm) : s.finishDue = s := by
  have lapsed : busNumbers.foldl lapse s = s := foldl_of_fixed _ _ fun i hi => by
    unfold lapse
    rw [calm.buses i hi]
  rw [finishDue, catchUp_of_nothingDue calm.due, lapsed]
  exact completeStop_of_waiting (.inl calm.complete)

theorem sampled_link : (s.sampled sense audio).link = s.link := by
  rw [sampled_eq]

theorem closed_of_calm (calm : s.Calm) (off : s.CountersOff) :
    ((s.finishDue.closeBlock audio).sampleInputs sense).tickFrame = s.sampled sense audio := by
  have still : (s.sampled sense audio).tickFrame = s.sampled sense audio := by
    unfold tickFrame
    rw [sampled_link, calm.hunting]
  rw [finishDue_of_calm calm, closeBlock_of_off off, ← sampled, still]

/-- A boundary that finds nothing due and no answer awaited. -/
theorem boundary_of_calm (calm : s.Calm) (off : s.CountersOff) :
    (s.link.phase = .run → s.boundary sense audio = (s.sampled sense audio).tickRun) ∧
      (s.link.phase = .config → s.boundary sense audio = (s.sampled sense audio).tickConfig) := by
  unfold boundary
  dsimp only
  rw [closed_of_calm calm off, sampled_link]
  exact ⟨fun hp => by rw [hp], fun hp => by rw [hp]⟩

theorem exec_boundary (up : s.resetLow = false) : exec (.blockBoundary sense audio) s = .next (s.boundary sense audio) :=
  congrArg Host.Outcome.next (whileUp_of_high up fun v => v.boundary sense audio)

theorem tickConfig_eq : s.tickConfig = { s with buses := s.tickConfig.buses, mix := { s.mix with plan := Plan.silent } } := by
  unfold tickConfig
  rw [foldl_buses offWindow_buses]
  rfl

theorem ticked_mapWaiting : s.ticked.mapWaiting = s.mapWaiting := by
  have queue : ∀ i, i < 5 → (s.ticked.bus i).queue = (s.bus i).queue := fun i hi => by rw [ticked_bus hi]
  simp only [mapWaiting, List.any_cons, List.any_nil, queue 0 (by decide), queue 1 (by decide), queue 2 (by decide),
    queue 3 (by decide)]

theorem mapWaiting_of_buses (h : t.buses = s.buses) : t.mapWaiting = s.mapWaiting := by
  unfold mapWaiting bus
  rw [h]

theorem settleDue_of_done (done : s.BoundaryDone) (hr : s.room a = some r) : r.settleDue = false := by
  have listed : (a, some r) ∈ s.hall.rooms := Kept.mem_of_tget (d := none) (Option.some_ne_none r) hr
  have none_due := done.ramps
  rw [roomsWith, tkeys, List.map_eq_nil_iff, List.filter_eq_nil_iff] at none_due
  exact Bool.eq_false_iff.2 (none_due _ listed)

/-- What a boundary in RUN leaves of the state, and what it changes. -/
theorem tickRun_parts : s.tickRun = { s with
    hall := s.tickRooms.hall
    floor := { s.floor with seats := s.tickRun.floor.seats }
    counts := s.counts.tick
    buses := s.ticked.buses
    dist := { s.dist with switchDue := !s.mapWaiting && s.tablesDiffer }
    link := { s.link with restartDue := s.link.restarts.length }
    mix := { s.mix with plan := s.tickRun.formPlan } } := by
  have differ : s.ticked.tablesDiffer = s.tablesDiffer := by rw [ticked_eq]; rfl
  have plan : s.tickRun.formPlan = s.tickedDue.formPlan := rfl
  rw [plan, tickRun_eq, tickedDue, ticked_mapWaiting, differ, ticked_eq]
  rfl

theorem tickRun_seat (canonical : twf Seat.initial s.floor.seats = true) (n : Nat) : s.tickRun.seat n = (s.seat n).tick := by
  have floor : s.tickRun.floor = (s.eachSeat (fun _ x => x.tick)).floor := by
    rw [tickRun_eq, tickedDue, ticked_eq]; rfl
  show tget Seat.initial s.tickRun.floor.seats n = _
  rw [floor]
  exact tget_rewritten (f := fun _ x => Seat.tick x) (fun _ => rfl) canonical n

end State

/-! ## What counts -/

/-- A seat's tick changes its counts only. -/
theorem Seat.tick_eq (x : Seat) : x.tick = { x with
    clock := x.tick.clock, secondDue := x.tick.secondDue, holdOff := x.tick.holdOff, holdOffDue := x.tick.holdOffDue } := by
  unfold Seat.tick
  split
  · split
    · rfl
    · split <;> rfl
  · split
    · rfl
    · split <;> rfl
  · rfl

theorem Seat.tick_of_live {x : Seat} {c : Clock} (mic : x.mic = .live) (clock : x.clock = some c) (before : x.secondDue = false) :
    x.tick.clock = some (if c.blocks + 1 = 1000 then ⟨c.seconds + 1, 0⟩ else ⟨c.seconds, c.blocks + 1⟩) ∧
      x.tick.secondDue = decide (c.blocks + 1 = 1000) := by
  unfold Seat.tick
  simp only [mic, clock]
  by_cases full : c.blocks + 1 = 1000
  · rw [if_pos (full : _ = Config.blocksPerSecond), if_pos full]
    exact ⟨rfl, (decide_eq_true full).symm⟩
  · rw [if_neg (full : ¬ _ = Config.blocksPerSecond), if_neg full]
    exact ⟨rfl, before.trans (decide_eq_false full).symm⟩

theorem Seat.tick_of_holdOff {x : Seat} {k : Nat} (mic : x.mic = .holdOff) (count : x.holdOff = some k) :
    if 249 ≤ k then x.tick.holdOffDue = true else x.tick.holdOff = some (k + 1) := by
  unfold Seat.tick
  simp only [mic, count]
  by_cases ends : 249 ≤ k
  · rw [if_pos ends, if_pos (show Config.holdOffBlocks ≤ k + 1 from Nat.succ_le_succ ends)]
  · rw [if_neg ends, if_neg (show ¬ Config.holdOffBlocks ≤ k + 1 from fun h => ends (Nat.le_of_succ_le_succ h))]

theorem CounterUnit.tick_of_blocks {x : CounterUnit} {b : Nat} (blocks : x.blocks = some b) (before : x.secondDue = false) :
    x.tick.blocks = some (if b + 1 = 1000 then 0 else b + 1) ∧ x.tick.secondDue = decide (b + 1 = 1000) := by
  unfold CounterUnit.tick
  simp only [blocks]
  by_cases full : b + 1 = 1000
  · rw [if_pos (full : _ = Config.blocksPerSecond), if_pos full]
    exact ⟨rfl, (decide_eq_true full).symm⟩
  · rw [if_neg (full : ¬ _ = Config.blocksPerSecond), if_neg full]
    exact ⟨rfl, before.trans (decide_eq_false full).symm⟩

theorem CounterUnit.tick_counters (x : CounterUnit) : x.tick.counters = x.counters := by
  unfold CounterUnit.tick
  split
  · rfl
  · split <;> rfl

/-- A room's timer counts a boundary, but only where it runs. -/
theorem Room.cross_timer {b : Bool} {r : Room} {m : RoomTimer} (armed : r.session = .armed) (timer : r.timer = some m)
    (runs : 0 < m.seconds) :
    (r.cross b).timer = some (if m.blocks + 1 = 1000 then ⟨m.seconds - 1, 0⟩ else ⟨m.seconds, m.blocks + 1⟩) := by
  rw [Room.cross_eq]
  show r.tick.timer = _
  unfold Room.tick
  simp only [armed, timer]
  rw [if_neg (by omega)]
  by_cases full : m.blocks + 1 = 1000
  · rw [if_pos (full : _ = Config.blocksPerSecond), if_pos full]
  · rw [if_neg (full : ¬ _ = Config.blocksPerSecond), if_neg full]

theorem Room.tick_eq (r : Room) : r.tick = { r with timer := r.tick.timer } := by
  unfold Room.tick
  split
  · split
    · rfl
    · split <;> rfl
  · rfl

/-- A room's ramp takes one step, and is due to end where it has met the target. -/
theorem Room.cross_ramp {r : Room} (restarts : List Byte) (before : r.settleDue = false) :
    (r.cross (!restarts.isEmpty)).level = (if r.ramp = .settled then r.level
        else if r.level < r.target then r.level + 1 else if r.target < r.level then r.level - 1 else r.level) ∧
      (r.cross (!restarts.isEmpty)).settleDue =
        decide (r.ramp = .ramping ∧ (r.cross (!restarts.isEmpty)).level = r.target ∧ restarts = []) := by
  rw [Room.cross_eq]
  dsimp only
  rw [Room.tick_eq]
  unfold Room.stepRamp
  cases ramp : r.ramp with
  | settled => simp [before]
  | ramping => cases restarts <;> simp [Room.target]

end Sys2Proof.Machine

open Sys2Proof Sys2Proof.Machine

/-- Settles O37. -/
theorem boundarySamplesAndCounts : Obligations.BoundarySamplesAndCounts := by
  unfold Obligations.BoundarySamplesAndCounts
  refine ⟨fun s sense audio calm off => ?_, fun s sense audio calm off hp canonical => ?_⟩
  · obtain ⟨run, config⟩ := State.boundary_of_calm (sense := sense) (audio := audio) calm off
    have counted : ∀ t : State, t.hall.settling = (s.sampled sense audio).hall.settling → ∀ p, 1 ≤ p → p ≤ 16 →
        ∀ l, l = (if sense.getLsbD (p - 1) then Contact.opened else .closed) → t.settling p =
          if (s.settling p).candidate = some l then
            if (s.settling p).hold < 100 then { s.settling p with hold := (s.settling p).hold + 1 } else s.settling p
          else { s.settling p with candidate := some l, hold := 1 } := fun t ht p low high l hl => by
      have sampled : t.settling p = (s.sampled sense audio).settling p := congrArg (fun tb => tget Settling.initial tb p) ht
      rw [sampled, State.sampled_settling low high, hl]
      rfl
    obtain ⟨v, hv⟩ : ∃ v, v = s.sampled sense audio := ⟨_, rfl⟩
    have hall : v.hall = { s.hall with settling := v.hall.settling } := by rw [hv, State.sampled_eq]
    have rest : v.link = s.link ∧ v.booth = s.booth ∧ v.floor = s.floor := by rw [hv, State.sampled_eq]; exact ⟨rfl, rfl, rfl⟩
    obtain ⟨link, booth, floor⟩ := rest
    rw [← hv] at counted
    have runs := State.exec_boundary (sense := sense) (audio := audio) calm.up
    cases phase : s.link.phase with
    | run =>
      refine ⟨_, runs.trans (by rw [run phase, ← hv]), counted _ (by rw [State.tickRun_hall]; rfl), ?_⟩
      have ticked := v.tickRun_parts
      generalize v.tickRun = w at ticked
      refine ⟨?_, ?_, ?_, ?_⟩
      · rw [ticked]
        exact congrArg (fun h : RoomUnit => { h with settling := v.hall.settling, rooms := v.tickRooms.hall.rooms }) hall
      · rw [ticked]
        exact (congrArg LinkUnit.phase link).trans phase
      · rw [ticked]
        exact booth
      · rw [ticked]
        exact (congrArg FloorUnit.groups floor :)
    | config =>
      refine ⟨_, runs.trans (by rw [config phase, ← hv]), counted _ (by rw [State.tickConfig_hall]), ?_⟩
      rw [State.tickConfig_eq]
      refine ⟨?_, ?_, booth, ?_⟩
      · exact congrArg (fun h : RoomUnit => { h with settling := v.hall.settling, rooms := v.hall.rooms }) hall
      · exact (congrArg LinkUnit.phase link).trans phase
      · exact congrArg FloorUnit.groups floor
  · obtain ⟨v, hv⟩ : ∃ v, v = s.sampled sense audio := ⟨_, rfl⟩
    have parts := hv.trans State.sampled_eq
    have run := State.exec_boundary (sense := sense) (audio := audio) calm.up
    rw [(State.boundary_of_calm calm off).1 hp] at run
    rw [← hv] at run parts
    have floor : v.floor = s.floor := by rw [parts]
    have rooms : v.hall.rooms = s.hall.rooms := by rw [parts]
    have counts : v.counts = s.counts := by rw [parts]
    have link : v.link = s.link := by rw [parts]
    have buses : v.buses = s.buses := by rw [parts]
    have dist : v.dist = s.dist := by rw [parts]
    have seat : ∀ n, v.tickRun.seat n = (s.seat n).tick := fun n => by
      rw [State.tickRun_seat (by rw [floor]; exact canonical), State.seat, floor]
      rfl
    have quiet : ∀ n, (s.seat n).secondDue = false := fun n => by
      by_cases initial : s.seat n = Seat.initial
      · rw [initial]
        rfl
      · exact (calm.due.seats _ (Kept.mem_of_tget initial rfl)).2
    have ticked := v.tickRun_parts
    have room : ∀ a, v.tickRun.room a = (s.room a).map (Room.cross (!s.link.restarts.isEmpty)) := fun a => by
      rw [State.room, State.tickRun_hall]
      refine (State.tickRooms_room v a).trans ?_
      rw [link, State.room, rooms]
      rfl
    have plan : v.tickRun.mix.plan = v.tickRun.formPlan := congrArg (fun x : State => x.mix.plan) ticked
    generalize v.tickRun = w at run seat ticked room plan
    refine ⟨w, run, fun a r hr => ⟨r.cross (!s.link.restarts.isEmpty), by rw [room, hr]; rfl, ?_⟩, fun n c mic clock => ?_,
      fun n k mic count => ?_, fun n => ?_, fun b blocks => ?_, fun i hi => ?_, ?_, ?_, plan, ?_, ?_, ?_⟩
    · have before : r.settleDue = false := State.settleDue_of_done calm.due.toBoundaryDone hr
      obtain ⟨level, settle⟩ := Room.cross_ramp s.link.restarts before
      refine ⟨level, fun m armed timer runs => Room.cross_timer armed timer runs, ?_⟩
      rw [← Room.target, ← settle, Room.cross_eq]
    · rw [seat]
      exact Seat.tick_of_live mic clock (quiet n)
    · rw [seat]
      exact Seat.tick_of_holdOff mic count
    · rw [seat]
      exact Seat.tick_eq _
    · rw [ticked, counts]
      exact CounterUnit.tick_of_blocks blocks calm.due.counters
    · rw [ticked]
      refine (State.ticked_bus (s := v) hi).trans ?_
      rw [State.bus, buses]
      rfl
    · rw [ticked, dist, State.mapWaiting_of_buses buses, State.tablesDiffer, dist]
      rfl
    · rw [ticked, link]
    · rw [ticked, parts]
    · rw [ticked, parts]
    · rw [ticked, counts]
      exact CounterUnit.tick_counters _

end

section
/-! SUPPORT. START: its checks, the rooms and records that it builds, and the buses that it powers (O47). -/

namespace Sys2Proof.Machine

/-! ## The lowest listed number -/

section
variable {α : Type} [DecidableEq α] {d : α} {tb : Table α} {p : Nat → α → Bool} {k : Nat}

theorem tkeys_eq_nil (canonical : twf d tb = true) (hd : ∀ k, p k d = false) (none : ∀ k, p k (tget d tb k) = false) :
    tkeys p tb = [] :=
  List.eq_nil_iff_forall_not_mem.2 fun k hk => by
    have meets := (mem_tkeys_iff canonical hd k).1 hk
    rw [none k] at meets
    cases meets

theorem head_tkeys_of_least (canonical : twf d tb = true) (hd : ∀ k, p k d = false) (meets : p k (tget d tb k) = true)
    (least : ∀ j, p j (tget d tb j) = true → k ≤ j) : (tkeys p tb).head? = some k := by
  have rising := tkeys_pairwise canonical p
  have listed := (mem_tkeys_iff canonical hd k).2 meets
  have all : ∀ j ∈ tkeys p tb, k ≤ j := fun j hj => least j ((mem_tkeys_iff canonical hd j).1 hj)
  cases h : tkeys p tb with
  | nil =>
    rw [h] at listed
    cases listed
  | cons j js =>
    rw [h] at rising listed all
    rcases List.mem_cons.1 listed with rfl | later
    · rfl
    · have below := List.rel_of_pairwise_cons rising later
      have above := all j List.mem_cons_self
      omega

end

/-- Every booth listens by its source alone. -/
theorem tget_restBooths {tb : Table Booth} (canonical : twf Booth.initial tb = true) (b : Nat) :
    tget Booth.initial (restBooths tb) b = { tget Booth.initial tb b with listen := (tget Booth.initial tb b).source.restListen } :=
  tget_rewritten (f := fun (_ : Nat) (x : Booth) => { x with listen := x.source.restListen }) (fun _ => by decide) canonical b

namespace State

variable {s : State} {a b i k n p : Nat} {tag : Byte}

/-! ## The checks (R199) -/

/-- An installed partition with an end that is not installed. -/
def LooseWall (s : State) (p : Nat) : Prop :=
  (s.partition p).installed = true ∧
    ((s.segment (s.partition p).a).installed = false ∨ (s.segment (s.partition p).b).installed = false)

/-- An installed seat in a segment that is not installed. -/
def LooseSeat (s : State) (n : Nat) : Prop := (s.seat n).installed = true ∧ (s.segment (s.seat n).segment).installed = false

/-- An installed booth in a segment that is not installed. -/
def LooseBooth (s : State) (b : Nat) : Prop := (s.boothAt b).installed = true ∧ (s.segment (s.boothAt b).home).installed = false

/-- The checks on the tables, as `State.startFailure` makes them. -/
def wallCheck (s : State) (x : Partition) : Bool :=
  x.installed && !((s.segment x.a).installed && (s.segment x.b).installed)

def seatCheck (s : State) (x : Seat) : Bool := x.installed && !(s.segment x.segment).installed

def boothCheck (s : State) (x : Booth) : Bool := x.installed && !(s.segment x.home).installed

theorem wallCheck_iff : s.wallCheck (s.partition p) = true ↔ s.LooseWall p := by
  simp [wallCheck, LooseWall, Bool.and_eq_true]

theorem seatCheck_iff : s.seatCheck (s.seat n) = true ↔ s.LooseSeat n := by
  simp [seatCheck, LooseSeat]

theorem boothCheck_iff : s.boothCheck (s.boothAt b) = true ↔ s.LooseBooth b := by
  simp [boothCheck, LooseBooth]

theorem startFailure_eq : s.startFailure =
    if s.installedSegments = [] then some .segment
    else ((tkeys (fun _ x => s.wallCheck x) s.hall.partitions).head?.map StartItem.partition).or
      (((tkeys (fun _ x => s.seatCheck x) s.floor.seats).head?.map StartItem.seat).or
        ((tkeys (fun _ x => s.boothCheck x) s.booth.booths).head?.map StartItem.booth)) := by
  unfold startFailure wallCheck seatCheck boothCheck
  dsimp only
  split
  · rfl
  · split
    · next p found => rw [found]; rfl
    · next no_wall =>
      rw [no_wall]
      split
      · next n found => rw [found]; rfl
      · next no_seat =>
        rw [no_seat]
        split
        · next b found => rw [found]; rfl
        · next no_booth => rw [no_booth]; rfl

section
variable (some_segment : s.installedSegments ≠ []) (walls : twf Partition.initial s.hall.partitions = true)
  (seats : twf Seat.initial s.floor.seats = true) (booths : twf Booth.initial s.booth.booths = true)

theorem no_wallCheck (h : ∀ p, ¬ s.LooseWall p) (walls : twf Partition.initial s.hall.partitions = true) :
    tkeys (fun _ x => s.wallCheck x) s.hall.partitions = [] :=
  tkeys_eq_nil walls (fun _ => rfl) fun p => Bool.eq_false_iff.2 fun e => h p (wallCheck_iff.1 e)

theorem no_seatCheck (h : ∀ n, ¬ s.LooseSeat n) (seats : twf Seat.initial s.floor.seats = true) :
    tkeys (fun _ x => s.seatCheck x) s.floor.seats = [] :=
  tkeys_eq_nil seats (fun _ => rfl) fun n => Bool.eq_false_iff.2 fun e => h n (seatCheck_iff.1 e)

include some_segment walls

theorem startFailure_of_wall (bad : s.LooseWall p) (least : ∀ q, s.LooseWall q → p ≤ q) :
    s.startFailure = some (.partition p) := by
  rw [startFailure_eq, if_neg some_segment, head_tkeys_of_least walls (fun _ => rfl) (wallCheck_iff.2 bad)
    fun q hq => least q (wallCheck_iff.1 hq)]
  rfl

include seats

theorem startFailure_of_seat (no_wall : ∀ p, ¬ s.LooseWall p) (bad : s.LooseSeat n) (least : ∀ m, s.LooseSeat m → n ≤ m) :
    s.startFailure = some (.seat n) := by
  rw [startFailure_eq, if_neg some_segment, no_wallCheck no_wall walls, head_tkeys_of_least seats (fun _ => rfl)
    (seatCheck_iff.2 bad) fun m hm => least m (seatCheck_iff.1 hm)]
  rfl

include booths

theorem startFailure_of_booth (no_wall : ∀ p, ¬ s.LooseWall p) (no_seat : ∀ n, ¬ s.LooseSeat n) (bad : s.LooseBooth b)
    (least : ∀ c, s.LooseBooth c → b ≤ c) : s.startFailure = some (.booth b) := by
  rw [startFailure_eq, if_neg some_segment, no_wallCheck no_wall walls, no_seatCheck no_seat seats,
    head_tkeys_of_least booths (fun _ => rfl) (boothCheck_iff.2 bad) fun c hc => least c (boothCheck_iff.1 hc)]
  rfl

theorem startFailure_of_right (no_wall : ∀ p, ¬ s.LooseWall p) (no_seat : ∀ n, ¬ s.LooseSeat n) (no_booth : ∀ b, ¬ s.LooseBooth b) :
    s.startFailure = none := by
  rw [startFailure_eq, if_neg some_segment, no_wallCheck no_wall walls, no_seatCheck no_seat seats,
    tkeys_eq_nil booths (fun _ => rfl) fun b => Bool.eq_false_iff.2 fun e => no_booth b (boothCheck_iff.1 e)]
  rfl

end

theorem handleStart_of_failure {item : StartItem} (h : s.startFailure = some item) :
    handleStart [] s = (s, ⟨.inconsistent, false, .item item⟩) := by
  unfold handleStart
  refine (withBody_of_some rfl).trans ?_
  rw [h]

theorem handleStart_of_right (h : s.startFailure = none) : handleStart [] s = (s.enterRun, .ok .nothing) := by
  unfold handleStart
  refine (withBody_of_some rfl).trans ?_
  rw [h]

/-! ## What START builds -/

/-- The controller of bus `i` as START leaves it (R80). -/
def startedBus (s : State) (i : Nat) : Bus :=
  { Bus.initial with queue := if i < 4 then s.installedSegments.map Item.map else [], power := true }

theorem mem_five : i ∈ [0, 1, 2, 3, 4] ↔ i < 5 := by
  simp only [List.mem_cons, List.not_mem_nil, or_false]
  omega

theorem enterRun_bus (h : i < 5) : s.enterRun.bus i = s.startedBus i := by
  have started : ∀ (v : State) (i j : Nat), v = { s.runStarted with buses := v.buses } →
      (v.startBus i).bus j = if j = i then s.startedBus i else v.bus j := fun v i j only => by
    have maps : v.allMaps = s.installedSegments.map Item.map := by rw [only]; rfl
    unfold startBus startedBus
    rw [setBus_bus, maps]
  exact (foldl_bus (s := s.runStarted) (step := fun i _ => s.startedBus i) startBus_buses started (by decide) i).trans
    (if_pos (mem_five.2 h))

theorem enterRun_hall_eq : s.enterRun.hall = s.buildRooms.hall := by rw [enterRun_eq]; rfl

theorem enterRun_seat (canonical : twf Seat.initial s.floor.seats = true) (n : Nat) : s.enterRun.seat n = (s.seat n).cleared := by
  rw [seat, enterRun_seats]
  exact tget_rewritten (f := fun _ x => Seat.cleared x) (fun _ => rfl) canonical n

theorem enterRun_boothAt (canonical : twf Booth.initial s.booth.booths = true) (b : Nat) :
    s.enterRun.boothAt b = { s.boothAt b with listen := (s.boothAt b).source.restListen } := by
  rw [boothAt, enterRun_eq]
  exact tget_restBooths canonical b

end State

end Sys2Proof.Machine

open Sys2Proof Sys2Proof.Machine

/-- Settles O47. -/
theorem startBuildsTheRooms : Obligations.StartBuildsTheRooms := by
  unfold Obligations.StartBuildsTheRooms
  intro s tag refused walls seats booths take config wallsOk seatsOk boothsOk hrefused hwalls hseats hbooths
  obtain rfl : walls = s.LooseWall := funext fun p => propext (hwalls p)
  obtain rfl : seats = s.LooseSeat := funext fun n => propext (hseats n)
  obtain rfl : booths = s.LooseBooth := funext fun b => propext (hbooths b)
  have phase : Allowed.config.permits s.link.phase = true := by simp [Allowed.permits, config]
  have fails : ∀ item, s.startFailure = some item → refused item := fun item failure =>
    (hrefused item).2 (congrArg Host.Outcome.next (State.request_of_answer take phase
      (State.handleStart_of_failure (s := s.popInput) failure)))
  have installed : (∃ k, 1 ≤ k ∧ k ≤ 12 ∧ (s.segment k).installed = true) → s.installedSegments ≠ [] :=
    fun ⟨k, low, high, inst⟩ none => by
      have listed := State.mem_installedSegments.2 ⟨⟨low, high⟩, inst⟩
      rw [none] at listed
      cases listed
  refine ⟨fun none => fails _ (if_pos ?_), fun some_segment => ⟨fun p bad least => ?_, fun no_wall => ⟨fun n bad least => ?_,
    fun no_seat b bad least => ?_⟩⟩, fun some_segment no_wall no_seat no_booth => ?_⟩
  · refine List.eq_nil_iff_forall_not_mem.2 fun k hk => ?_
    obtain ⟨⟨low, high⟩, inst⟩ := State.mem_installedSegments.1 hk
    rw [none k low high] at inst
    cases inst
  · exact fails _ (State.startFailure_of_wall (installed some_segment) wallsOk bad least)
  · exact fails _ (State.startFailure_of_seat (installed some_segment) wallsOk seatsOk no_wall bad least)
  · exact fails _ (State.startFailure_of_booth (installed some_segment) wallsOk seatsOk boothsOk no_wall no_seat bad least)
  · have right := State.startFailure_of_right (installed some_segment) wallsOk seatsOk boothsOk no_wall no_seat no_booth
    obtain ⟨v, hv⟩ : ∃ v, v = s.popInput := ⟨_, rfl⟩
    have runs : exec (.start tag []) s = .next (v.enterRun.reply ⟨0x05, tag, .ok .nothing⟩) := hv ▸
      congrArg Host.Outcome.next (State.request_of_handled take phase (State.handleStart_of_right (s := s.popInput) right))
    have rooms := State.buildRooms_room v
    have map := State.buildRooms_anchorOf v
    have hall := State.enterRun_hall_eq (s := v)
    have seat := State.enterRun_seat (s := v) (by rw [hv]; exact seatsOk)
    have booth := State.enterRun_boothAt (s := v) (by rw [hv]; exact boothsOk)
    have bus := fun i => State.enterRun_bus (s := v) (i := i)
    have parts := State.enterRun_eq v
    generalize v.enterRun = w at runs hall seat booth bus parts
    subst hv
    obtain ⟨r, hr⟩ : ∃ r : Reply, r = ⟨0x05, tag, .ok .nothing⟩ := ⟨_, rfl⟩
    rw [← hr] at runs
    have anchorOf : ∀ k, (w.reply r).anchorOf k = if k ∈ s.installedSegments then some (s.builtAnchor k) else none := fun k =>
      (congrArg (fun h : RoomUnit => tget none h.segmentMap k) hall).trans (map k)
    have room : ∀ k, (w.reply r).room k = if k ∈ s.installedSegments ∧ s.builtAnchor k = k then
        some (s.freshRoom k (s.groupOf s.installedSegments k)) else none := fun k =>
      (congrArg (fun h : RoomUnit => tget none h.rooms k) hall).trans (rooms k)
    refine ⟨_, runs, ?_, fun k hk => (anchorOf k).trans (if_pos hk), fun k hk => ⟨(anchorOf k).trans (if_neg hk),
      (room k).trans (if_neg fun h => hk h.1)⟩, fun k hk own => (room k).trans (if_pos ⟨hk, own⟩), ?_, ?_, ?_, ?_,
      fun i hi => bus i hi, seat, booth, fun c => ?_, ?_, ?_, ?_, ?_, ?_, ?_⟩
    · refine (LinkUnit.answer_phase _ _).trans ?_
      rw [parts]
      rfl
    all_goals
      rw [parts]
      rfl

end

section
/-! SUPPORT. STOP, its OFF windows and its reply; and RESTART, from its request to its boundary (O48, O49). -/

namespace Sys2Proof.Machine

/-! ## Replies and the rest of the link controller -/

namespace LinkUnit

/-- A reply changes the reply list and what is being sent, and nothing else. -/
theorem answer_eq (l : LinkUnit) (r : Reply) :
    l.answer r = { l with replies := (l.answer r).replies, sending := (l.answer r).sending } := by
  unfold answer kick
  split
  · rfl
  · unfold startNext
    split
    · rfl
    · next empty => exact absurd empty (by simp)

theorem foldl_answer_eq (l : LinkUnit) (rs : List Reply) :
    rs.foldl answer l = { l with replies := (rs.foldl answer l).replies, sending := (rs.foldl answer l).sending } := by
  induction rs generalizing l with
  | nil => rfl
  | cons r rs ih =>
    rw [List.foldl_cons, ih (l.answer r)]
    rw [answer_eq l r]

end LinkUnit

namespace State

variable {s t : State} {a b c g i k n : Nat} {tag : Byte} {sense : BitVec 16} {audio : List Upstream}

/-- A request whose reply is formed later, in RUN. -/
theorem later_of_canTake {kind : Byte} (take : s.CanTake ⟨kind, tag, []⟩) (run : s.link.phase = .run) (work : State → State) :
    s.later kind tag [] work = work s.popInput := by
  have phase : ¬ s.popInput.link.phase ≠ .run := fun h => h run
  rw [later, taking_of_canTake take, if_neg phase, if_neg fun h : ([] : List Byte) ≠ [] => h rfl]

/-! ## STOP (R200) -/

/-- The controller of a bus as STOP leaves it (R81 (1)). -/
def stoppedBus (x : Bus) : Bus := { Bus.initial with power := x.power, off := .waiting }

theorem enterConfig_bus (h : i < 5) : (s.enterConfig tag).bus i = stoppedBus (s.bus i) := by
  have stops : ∀ (v : State) (i j : Nat), v = { s.stopped tag with buses := v.buses } →
      (v.stopBus i).bus j = if j = i then stoppedBus (v.bus i) else v.bus j := fun v i j _ => setBus_bus ..
  rw [enterConfig_eq_foldl]
  exact (foldl_bus (s := s.stopped tag) (step := fun _ x => stoppedBus x) stopBus_buses stops (by decide) i).trans
    (if_pos (mem_five.2 h))

theorem enterConfig_seat (canonical : twf Seat.initial s.floor.seats = true) (n : Nat) :
    (s.enterConfig tag).seat n = (s.seat n).cleared := by
  rw [seat, enterConfig_seats]
  exact tget_rewritten (f := fun _ x => Seat.cleared x) (fun _ => rfl) canonical n

theorem enterConfig_boothAt (canonical : twf Booth.initial s.booth.booths = true) (b : Nat) :
    (s.enterConfig tag).boothAt b = { s.boothAt b with listen := (s.boothAt b).source.restListen } := by
  rw [boothAt, enterConfig_eq]
  exact tget_restBooths canonical b

theorem enterConfig_group (g : Nat) : ((s.enterConfig tag).group g).blocked = false := by
  rw [group, enterConfig_eq]
  exact tget_foldl_tset_all (P := fun x : Group => x.blocked = false) (fun _ => rfl) s.floor.groups (fun _ => rfl) g

/-- The link controller at STOP, but for the replies to RESTARTs that it found waiting. -/
theorem cancelLink_eq (l : LinkUnit) : cancelLink l =
    { l with restarts := [], restartDue := 0, replies := (cancelLink l).replies, sending := (cancelLink l).sending } :=
  LinkUnit.foldl_answer_eq _ _

/-! ## The OFF windows (R81) -/

theorem completeStop_of_sent (stopping : s.link.stopping = some tag)
    (sent : ∀ i, i < 5 → (s.bus i).off = .sent ∨ (s.bus i).off = .done) : s.completeStop =
      { s with link := LinkUnit.answer { s.link with stopping := none } ⟨0x06, tag, .ok .nothing⟩ } := by
  have all : [0, 1, 2, 3, 4].all (fun i => (s.bus i).offSent) = true := List.all_eq_true.2 fun i hi => by
    rcases sent i (mem_five.1 hi) with off | off <;> simp [Bus.offSent, off]
  unfold completeStop
  rw [stopping]
  exact if_pos all

theorem completeStop_of_unsent (h : i < 5) (sent : (s.bus i).off ≠ .sent)
    (done : (s.bus i).off ≠ .done) : s.completeStop = s := by
  refine completeStop_of_waiting (.inr (List.all_eq_false.2 ⟨i, mem_five.2 h, ?_⟩))
  simp [Bus.offSent, sent, done]

theorem lapse_of_none (h : s.awaited i = none) : s.lapse i = s := by
  unfold lapse
  rw [h]

theorem exec_busExchange_config {bus : BusId} (hi : i = bus.index) (up : s.resetLow = false) (due : s.NothingDue)
    (config : s.link.phase = .config) (none : s.awaited i = none) :
    exec (.busExchange bus) s = .next (if (s.bus i).off = .due then s.sendOff i else s) := by
  refine congrArg Host.Outcome.next ((upToDate_of_nothingDue up due _).trans ?_)
  unfold beginExchange
  dsimp only
  rw [← hi, lapse_of_none none, config]

theorem sendOff_bus (j : Nat) : (s.sendOff i).bus j = if j = i then
    { s.bus i with exchange := some ⟨0, .off, false⟩, begun := (s.bus i).begun + 1, off := .sent } else s.bus j := by
  have carried : ∀ j, (s.carry i (some ⟨0, .off, false⟩)).bus j = if j = i then
      { s.bus i with exchange := some ⟨0, .off, false⟩, begun := (s.bus i).begun + 1 } else s.bus j := fun j => setBus_bus ..
  unfold sendOff
  dsimp only
  rw [setBus_bus, carried, carried, if_pos rfl]
  split <;> rfl

/-- The controller of a bus after a boundary in CONFIG (R81 (2)). -/
def offTurned (x : Bus) : Bus :=
  match x.off with
  | .waiting => { x with off := .due, begun := 0 }
  | .sent => { x with off := .done, power := false, exchange := none }
  | _ => x

theorem offWindow_bus (v : State) (i j : Nat) : (v.offWindow i).bus j = if j = i then offTurned (v.bus i) else v.bus j := by
  have still : v.bus j = if j = i then v.bus i else v.bus j := by
    split
    · subst_vars; rfl
    · rfl
  unfold offWindow offTurned
  cases (v.bus i).off with
  | waiting => exact setBus_bus ..
  | sent => exact setBus_bus ..
  | none => exact still
  | due => exact still
  | done => exact still

theorem tickConfig_bus (h : i < 5) : s.tickConfig.bus i = offTurned (s.bus i) :=
  (foldl_bus (step := fun _ x => offTurned x) offWindow_buses (fun v i j _ => offWindow_bus v i j)
    (show busNumbers.Nodup by decide) i).trans (if_pos (mem_five.2 h))

theorem boundary_config_bus (due : s.NothingDue) (config : s.link.phase = .config)
    (none : ∀ i ∈ busNumbers, s.awaited i = none) (h : i < 5) : (s.boundary sense audio).bus i = offTurned (s.bus i) := by
  have finished : s.finishDue = s := by
    rw [finishDue, catchUp_of_nothingDue due, foldl_of_fixed _ _ fun i hi => lapse_of_none (none i hi)]
    exact completeStop_of_waiting due.stopping
  have closed : s.closeBlock audio = s.heardBlock audio := if_neg (by rw [config]; decide)
  have ticks : ∀ u : State, u.tickFrame.buses = u.buses ∧ u.tickFrame.link.phase = u.link.phase := fun u => by
    unfold tickFrame
    split <;> exact ⟨rfl, rfl⟩
  obtain ⟨v, hv⟩ : ∃ v, v = ((s.finishDue.closeBlock audio).sampleInputs sense).tickFrame := ⟨_, rfl⟩
  have parts : v.buses = s.buses ∧ v.link.phase = s.link.phase := by
    rw [hv, finished, closed, ← sampled, (ticks _).1, (ticks _).2, sampled_link]
    exact ⟨by rw [sampled_eq], rfl⟩
  unfold boundary
  dsimp only
  rw [← hv, parts.2, config]
  refine (tickConfig_bus h).trans ?_
  rw [bus, parts.1]
  rfl

/-! ## RESTART (R201) -/

theorem takeRestart_eq : s.takeRestart =
    { s.rebuiltBuses.setPlan s.rebuiltBuses.formPlan with link := restartLink s.link } := by
  rw [takeRestart_eq_endRestart, endRestart_eq, rebuiltBuses_link]

theorem restartLink_eq (l : LinkUnit) : restartLink l = { l with
    restarts := l.restarts.drop l.restartDue, restartDue := 0
    replies := (restartLink l).replies, sending := (restartLink l).sending } := LinkUnit.foldl_answer_eq _ _

theorem takeRestart_seat (canonical : twf Seat.initial s.floor.seats = true) (inst : (s.seat n).installed = true) :
    s.takeRestart.seat n = s.restartedSeat n (s.seat n) := by
  rw [seat, takeRestart_seats]
  refine (tget_foldl_tset Seat.initial s.restartedSeat canonical [] n).trans (if_neg fun initial => ?_)
  rw [seat, initial] at inst
  cases inst

theorem rebuilt_boothAt (canonical : twf Booth.initial s.booth.booths = true) (b : Nat) :
    s.rebuilt.boothAt b = { s.boothAt b with listen := (s.boothAt b).source.restListen } :=
  tget_restBooths canonical b

theorem takeRestart_boothAt (canonical : twf Booth.initial s.booth.booths = true) (b : Nat) :
    s.takeRestart.boothAt b = { s.boothAt b with listen := (s.boothAt b).source.restListen } := by
  refine Eq.trans ?_ (rebuilt_boothAt canonical b)
  rw [boothAt, takeRestart_eq, rebuiltBuses_eq]
  rfl

/-! ### Consoles -/

/-- A console as RESTART leaves it (R149). -/
def restartedConsole (s : State) (c : Nat) : Console :=
  { state := if (s.unit 4 c).presence = .present then .ready else .absent, owned := none, cough := (s.unit 4 c).held,
    indication := if (s.unit 4 c).presence = .present then some .busy else none }

theorem tget_foldl_tset_of_mem {α : Type} [DecidableEq α] (d : α) (f : Nat → α) (cs : List Nat) (u : Table α) (k : Nat) :
    tget d (cs.foldl (fun u c => tset d u c (f c)) u) k = if k ∈ cs then f k else tget d u k := by
  induction cs generalizing u with
  | nil => exact (if_neg List.not_mem_nil).symm
  | cons c cs ih =>
    rw [List.foldl_cons, ih, tget_tset]
    by_cases here : k = c
    · simp [here]
    · simp [here]

theorem mem_addresses_of_consoleInUse (h : s.consoleInUse c = true) : c ∈ s.addresses 4 := by
  have number := h
  simp only [consoleInUse, Bool.and_eq_true, decide_eq_true_eq] at number
  obtain ⟨⟨⟨low, high⟩, -⟩, -⟩ := number
  have next : c - 1 + 1 = c := by omega
  show c ∈ (List.range 48).filterMap fun c => if s.consoleInUse (c + 1) then some (c + 1) else none
  refine List.mem_filterMap.2 ⟨c - 1, List.mem_range.2 (by omega), ?_⟩
  rw [next, if_pos h]

theorem restartConsoles_of_inUse (h : s.consoleInUse c = true) : tget Console.initial s.restartConsoles c = s.restartedConsole c :=
  (tget_foldl_tset_of_mem Console.initial s.restartedConsole (s.addresses 4) [] c).trans
    (if_pos (mem_addresses_of_consoleInUse h))

/-! ### Buses -/

/-- The controller of a bus as RESTART leaves it (R82). -/
def restartedBus (s : State) (i : Nat) (x : Bus) : Bus :=
  { x with
    units := restartUnits x.units
    queue := ((s.addresses i).filter (fun a => decide ((tget UnitRecord.initial x.units a).presence = .present))).map Item.unit ++
      if i < 4 then s.allMaps else []
    exchange := none }

theorem takeRestart_bus (h : i < 5) : s.takeRestart.bus i = s.rebuilt.restartedBus i (s.bus i) := by
  have restarts : ∀ (v : State) (i j : Nat), v = { s.rebuilt with buses := v.buses } →
      (v.restartBus i).bus j = if j = i then s.rebuilt.restartedBus i (v.bus i) else v.bus j := fun v i j only => by
    have addresses : v.addresses i = s.rebuilt.addresses i := by rw [only]; rfl
    have maps : v.allMaps = s.rebuilt.allMaps := by rw [only]; rfl
    unfold restartBus restartedBus
    dsimp only
    rw [setBus_bus, addresses, maps]
    rfl
  have buses : s.takeRestart.buses = s.rebuiltBuses.buses := by
    have ends := takeRestart_eq (s := s)
    generalize s.rebuiltBuses = v at ends ⊢
    rw [ends]
    rfl
  have turned := foldl_bus restartBus_buses restarts (is := [0, 1, 2, 3, 4]) (by decide) i
  have before : s.rebuilt.bus i = s.bus i := rfl
  rw [if_pos (mem_five.2 h), before] at turned
  rw [bus, buses]
  exact turned

theorem takeRestart_unit (h : i < 5) (canonical : twf UnitRecord.initial (s.bus i).units = true) (a : Nat) :
    s.takeRestart.unit i a = { s.unit i a with assigned := false, mapOwed := false, told := none } := by
  rw [unit, takeRestart_bus h]
  exact tget_rewritten (f := fun (_ : Nat) (x : UnitRecord) => { x with assigned := false, mapOwed := false, told := none })
    (fun _ => by decide) canonical a

/-- What is listed depends on what each number reads only. -/
theorem tkeys_congr {α : Type} [DecidableEq α] {d : α} {tb ub : Table α} {p : Nat → α → Bool} (ht : twf d tb = true)
    (hu : twf d ub = true) (hd : ∀ k, p k d = false) (h : ∀ k, p k (tget d tb k) = p k (tget d ub k)) : tkeys p tb = tkeys p ub :=
  (tkeys_pairwise ht p).eq_of_mem_iff (tkeys_pairwise hu p) fun k => by
    rw [mem_tkeys_iff ht hd, mem_tkeys_iff hu hd, h]

theorem rebuilt_addresses (seats : twf Seat.initial s.floor.seats = true) (booths : twf Booth.initial s.booth.booths = true) :
    s.rebuilt.addresses i = s.addresses i := by
  have inUse : ∀ c, s.rebuilt.consoleInUse c = s.consoleInUse c := fun c => by
    rw [consoleInUse, consoleInUse, rebuilt_boothAt booths]
  have listed : s.rebuilt.seatAddresses i = s.seatAddresses i := by
    refine congrArg (List.map seatAddress) (tkeys_congr (s.buildRooms.eachSeat_canonical s.restartedSeat) seats
      (fun _ => rfl) fun n => ?_)
    have same : (tget Seat.initial s.rebuilt.floor.seats n).installed =
        (tget Seat.initial s.floor.seats n).installed := by
      refine (congrArg Seat.installed (tget_foldl_tset Seat.initial s.restartedSeat seats [] n)).trans ?_
      split
      · next initial => rw [initial]; rfl
      · rfl
    rw [same]
  unfold addresses
  simp only [listed, inUse]

end State

end Sys2Proof.Machine

open Sys2Proof Sys2Proof.Machine

/-- Settles O48. -/
theorem stopClearsAndCompletes : Obligations.StopClearsAndCompletes := by
  unfold Obligations.StopClearsAndCompletes
  refine ⟨fun s tag take run => ?_, fun s tag up done stopping => ⟨fun sent => ?_, fun ⟨i, hi, sent, unsent⟩ => ?_⟩,
    fun s bus i hi up due config none => ⟨fun off => ?_, fun off => ?_⟩, fun s sense audio up due config none => ?_⟩
  · obtain ⟨v, hv⟩ : ∃ v, v = s.popInput := ⟨_, rfl⟩
    have runs : exec (.stop tag []) s = .next (v.enterConfig tag) := hv ▸
      congrArg Host.Outcome.next (State.later_of_canTake take run fun t => t.enterConfig tag)
    have bus := fun i => State.enterConfig_bus (s := v) (tag := tag) (i := i)
    have seat := fun h => State.enterConfig_seat (s := v) (tag := tag) h
    have booth := fun h => State.enterConfig_boothAt (s := v) (tag := tag) h
    have groups := fun g => State.enterConfig_group (s := v) (tag := tag) g
    have parts := State.enterConfig_eq v tag
    have link : (v.enterConfig tag).link = { State.cancelLink v.link with phase := .config, stopping := some tag } := by
      rw [parts]; rfl
    rw [State.cancelLink_eq] at link
    have quiet : s.link.restarts = [] → State.cancelLink v.link = { s.link with input := s.link.input.drop 1, restartDue := 0 } :=
      fun h => by
        rw [hv]
        unfold State.cancelLink
        rw [show s.popInput.link.restarts = [] from h]
        show { s.popInput.link with restarts := [], restartDue := 0 } = _
        rw [← h]
        rfl
    generalize v.enterConfig tag = w at runs bus seat booth groups parts link
    subst hv
    refine ⟨w, runs, by rw [link], by rw [link], by rw [link], fun a => ?_, fun k => ?_, fun c => ?_, fun c => ?_, ?_, groups,
      ?_, ?_, ?_, fun i => bus i, seat, booth, ?_, ?_, ?_, by rw [link]; rfl, ?_, fun none => ?_⟩
    case refine_1.refine_13 =>
      rw [link, ← State.cancelLink_eq, quiet none]
    all_goals
      rw [parts]
      rfl
  · exact congrArg Host.Outcome.next ((State.whenDue_of_done up done _).trans (State.completeStop_of_sent stopping sent))
  · exact congrArg Host.Outcome.next ((State.whenDue_of_done up done _).trans
      (State.completeStop_of_unsent hi sent unsent))
  · refine ⟨s.sendOff i, ?_, (State.sendOff_bus i).trans (if_pos rfl), fun j hj => (State.sendOff_bus j).trans (if_neg hj), rfl⟩
    rw [State.exec_busExchange_config hi up due config none, if_pos off]
  · rw [State.exec_busExchange_config hi up due config none, if_neg off]
  · refine ⟨_, State.exec_boundary up, fun i hi => ?_⟩
    rw [State.boundary_config_bus due config none hi]
    unfold State.offTurned
    cases (s.bus i).off <;> rfl

/-- Settles O49. -/
theorem restartWaitsAndTakesEffect : Obligations.RestartWaitsAndTakesEffect := by
  unfold Obligations.RestartWaitsAndTakesEffect
  refine ⟨fun s tag take run => ?_, fun s up done due => ?_⟩
  · exact congrArg Host.Outcome.next (State.later_of_canTake take run fun t => t.scheduleRestart tag)
  · have runs : exec .restartTakesEffect s = .next s.takeRestart :=
      congrArg Host.Outcome.next ((State.whenDue_of_done up done _).trans (if_neg due))
    have room : ∀ a, s.takeRestart.room a = s.buildRooms.room a := fun a => by rw [State.room, State.takeRestart_hall]; rfl
    have anchorOf : ∀ k, s.takeRestart.anchorOf k = s.buildRooms.anchorOf k := fun k => by
      rw [State.anchorOf, State.takeRestart_hall]; rfl
    have consoles : s.takeRestart.booth.consoles = s.restartConsoles := by
      rw [State.takeRestart_eq, State.rebuiltBuses_eq]; rfl
    have link : s.takeRestart.link = State.restartLink s.link := by rw [State.takeRestart_eq]
    rw [State.restartLink_eq] at link
    refine ⟨_, runs, fun a r hr => ?_, fun k hk => ?_, ?_, ?_, ?_, ?_, fun canonical n inst => ?_,
      fun canonical => State.takeRestart_boothAt canonical, fun c inUse => ?_, fun seats booths i hi => ?_,
      fun i hi canonical => State.takeRestart_unit hi canonical, ?_, ?_, ?_, by rw [link], by rw [link], by rw [link], ?_, ?_, ?_⟩
    · obtain ⟨-, -, rfl⟩ := State.buildRooms_room_eq_some ((room a).symm.trans hr)
      exact ⟨rfl, rfl, rfl, rfl, rfl, rfl, rfl, rfl, rfl, rfl, rfl, rfl, rfl⟩
    · refine ⟨(anchorOf k).trans ((State.buildRooms_anchorOf s k).trans (if_pos hk)), ?_⟩
      rw [room]
      exact congrArg Option.isSome ((State.buildRooms_room s _).trans (if_pos (State.builtAnchor_builtAnchor hk)))
    case refine_2.refine_7 =>
      rw [State.takeRestart_seat canonical inst, State.restartedSeat, Seat.restarted, Seat.cleared, inst]
      simp only [decide_eq_true_eq]
    case refine_2.refine_8 =>
      rw [State.console, consoles, State.restartConsoles_of_inUse inUse]
      rfl
    case refine_2.refine_9 =>
      rw [State.takeRestart_bus hi, State.restartedBus, State.rebuilt_addresses seats booths]
      rfl
    all_goals
      rw [State.takeRestart_eq, State.rebuiltBuses_eq]
      rfl

end

section
/-! SUPPORT. The mix unit's arithmetic: factors, scaled samples, the routes of a block and the floors that they sum to (O44). -/

namespace Sys2Proof.Machine

/-! ## The attenuation (R166) -/

theorem attenuation_bounds {n : Nat} (low : 1 ≤ n) (high : n < 16) :
    10 ^ (2 * (attenuation n).toNat) ≤ 10 * n ^ 40 ∧ n ^ 40 < 10 * 10 ^ (2 * (attenuation n).toNat) := by
  interval_cases n <;> decide

theorem attenuation_of_large {n : Nat} (h : 16 ≤ n) : attenuation n = 24 := by
  obtain ⟨k, rfl⟩ := Nat.exists_eq_add_of_le' h
  rfl

theorem attenuation_nonneg (n : Nat) : 0 ≤ attenuation n := by
  by_cases h : n < 16
  · interval_cases n <;> decide
  · rw [attenuation_of_large (by omega)]
    decide

/-! ## Factors (R175) -/

/-- The search by halving ends at the highest number that satisfies the bound. -/
theorem factorSearch_spec (g : Int) (n lo : Nat) (low : factorAtMost g lo = true) (high : factorAtMost g (lo + 2 ^ n) = false) :
    factorAtMost g (factorSearch g n lo) = true ∧ factorAtMost g (factorSearch g n lo + 1) = false := by
  induction n generalizing lo with
  | zero => exact ⟨low, high⟩
  | succ n ih =>
    unfold factorSearch
    split
    · next half => exact ih _ half (by rw [Nat.add_assoc, ← Nat.two_mul, ← Nat.pow_succ']; exact high)
    · next half => exact ih _ low (Bool.eq_false_iff.2 half)

/-- The bound, in whole numbers. -/
theorem factorAtMost_iff (g : Int) (f : Nat) :
    factorAtMost g f = true ↔ (2 * f - 1) ^ 40 * 10 ^ (-g).toNat ≤ 131072 ^ 40 * 10 ^ g.toNat := by
  unfold factorAtMost
  split
  · next up => rw [show (-g).toNat = 0 by omega, pow_zero, mul_one, decide_eq_true_eq]
  · next down => rw [show g.toNat = 0 by omega, pow_zero, mul_one, decide_eq_true_eq]

theorem factorAtMost_zero (g : Int) : factorAtMost g 0 = true := (factorAtMost_iff g 0).2 (by simp)

theorem factorAtMost_top {g : Int} (h : g ≤ 24) : factorAtMost g (0 + 2 ^ 19) = false := by
  refine Bool.eq_false_iff.2 fun e => ?_
  have bound := (factorAtMost_iff g _).1 e
  have up : (10 : Nat) ^ g.toNat ≤ 10 ^ 24 := Nat.pow_le_pow_right (by decide) (by omega)
  have down : 1 ≤ (10 : Nat) ^ (-g).toNat := Nat.one_le_pow _ _ (by decide)
  have large : (131072 : Nat) ^ 40 * 10 ^ 24 < (2 * (0 + 2 ^ 19) - 1) ^ 40 := by norm_num
  have left := Nat.le_mul_of_pos_right ((2 * (0 + 2 ^ 19) - 1) ^ 40) down
  have right := Nat.mul_le_mul_left (131072 ^ 40) up
  omega

theorem factor_bounds {g : Int} (low : -144 ≤ g) (high : g ≤ 24) :
    (2 * (factor g : Int) - 1) ^ 40 * 10 ^ (-g).toNat ≤ 131072 ^ 40 * 10 ^ g.toNat ∧
      (131072 : Int) ^ 40 * 10 ^ g.toNat < (2 * (factor g : Int) + 1) ^ 40 * 10 ^ (-g).toNat := by
  obtain ⟨most, least⟩ := factorSearch_spec g 19 0 (factorAtMost_zero g) (factorAtMost_top high)
  rw [factorAtMost_iff] at most
  rw [Bool.eq_false_iff, ne_eq, factorAtMost_iff, not_le] at least
  change (2 * factor g - 1) ^ 40 * _ ≤ _ at most
  change _ < (2 * (factor g + 1) - 1) ^ 40 * _ at least
  constructor
  · by_cases zero : factor g = 0
    · have up : (10 : Int) ^ (-g).toNat ≤ 10 ^ 144 := pow_le_pow_right₀ (by decide) (by omega)
      have down : (1 : Int) ≤ 10 ^ g.toNat := one_le_pow₀ (by decide)
      have large : (10 : Int) ^ 144 ≤ 131072 ^ 40 := by norm_num
      rw [zero]
      calc (2 * ((0 : Nat) : Int) - 1) ^ 40 * 10 ^ (-g).toNat = 10 ^ (-g).toNat := by norm_num
        _ ≤ 131072 ^ 40 := up.trans large
        _ ≤ 131072 ^ 40 * 10 ^ g.toNat := le_mul_of_one_le_right (by positivity) down
    · have cast : ((2 * factor g - 1 : Nat) : Int) = 2 * (factor g : Int) - 1 := by omega
      rw [← cast]
      exact_mod_cast most
  · have cast : 2 * (factor g + 1) - 1 = 2 * factor g + 1 := by omega
    rw [cast] at least
    exact_mod_cast least

/-! ## Samples (R176, R177) -/

theorem scale_of_nonneg {x : Int} (f : Nat) (h : 0 ≤ x) : scale x f = (2 * x * f + 65536) / 131072 := by
  unfold scale
  rw [if_pos h]
  obtain ⟨n, rfl⟩ := Int.eq_ofNat_of_zero_le h
  push_cast
  rw [Nat.abs_cast]

theorem scale_bounds {x : Int} (f : Nat) (h : 0 ≤ x) :
    65536 * scale x f * 2 ≤ 2 * x * f + 65536 ∧ 2 * x * f + 65536 < 65536 * scale x f * 2 + 131072 := by
  rw [scale_of_nonneg f h]
  omega

theorem scale_neg (x : Int) (f : Nat) : scale (-x) f = -scale x f := by
  unfold scale
  rw [Int.natAbs_neg]
  rcases lt_trichotomy x 0 with neg | rfl | pos
  · rw [if_pos (by omega), if_neg (by omega), neg_neg]
  · simp
  · rw [if_neg (by omega), if_pos (by omega)]

theorem route_of_mute {g : Int} (x : Int) (h : g < -120) : route g x = 0 := if_pos (decide_eq_true h)

theorem route_of_heard {g : Int} (x : Int) (h : -120 ≤ g) : route g x = scale x (factor g) :=
  if_neg (by simp [isMute, h])

theorem route_zero (g : Int) : route g 0 = 0 := by
  by_cases h : g < -120
  · exact route_of_mute 0 h
  · rw [route_of_heard 0 (by omega)]
    simp [scale]

theorem limit24_eq (y : Int) :
    limit24 y = if 8388607 < y then 8388607 else if y < -8388608 then -8388608 else y := by
  unfold limit24 clampInt
  split <;> split <;> omega

theorem toInt_limit24 (y : Int) : (BitVec.ofInt 24 (limit24 y)).toInt = limit24 y := by
  have range : -8388608 ≤ limit24 y ∧ limit24 y ≤ 8388607 := by
    rw [limit24_eq]
    split
    · omega
    · split <;> omega
  rw [BitVec.toInt_ofInt]
  exact Int.bmod_eq_of_le (by omega) (by omega)

/-! ## What a block carries -/

section
variable {p : Plan} {audio : List Upstream} {a : Nat}

/-- `ls` holds 48 samples, those of `f`. -/
def Samples (ls : List Sample) (f : Nat → Int) : Prop := ls.length = 48 ∧ ∀ i, i < 48 → (ls.getD i 0).toInt = f i

theorem samples_blockFrames {f g : Nat → Int} (h : ∀ i, g i = limit24 (f i)) : Samples (toSamples (blockFrames.map g)) g := by
  refine ⟨by simp [toSamples, blockFrames, Config.framesPerBlock], fun i hi => ?_⟩
  have frame : blockFrames[i]? = some i := List.getElem?_range (n := 48) hi
  rw [toSamples, List.getD_eq_getElem?_getD, List.getElem?_map, List.getElem?_map, frame]
  show (BitVec.ofInt 24 (g i)).toInt = g i
  rw [h, toInt_limit24]

theorem samples_floor {floor : Nat → Int} (h : ∀ i, floor i = limit24 ((p.mics.filter (fun m => decide (m.anchor = a))).map
      (fun m => route m.gain (upstreamSample audio m.bus m.slot i))).sum) : Samples (toSamples (floorBlock p audio a)) floor := by
  have same : floorBlock p audio a = blockFrames.map floor := List.map_congr_left fun i _ => (h i).symm
  rw [same]
  exact samples_blockFrames h

/-- A floor through a gain, limited again. -/
theorem samples_routed {floor : Nat → Int} (g : Int)
    (h : ∀ i, floor i = limit24 ((p.mics.filter (fun m => decide (m.anchor = a))).map
      (fun m => route m.gain (upstreamSample audio m.bus m.slot i))).sum) :
    Samples (toSamples ((floorBlock p audio a).map (fun x => limit24 (route g x)))) fun i => limit24 (route g (floor i)) := by
  have same : (floorBlock p audio a).map (fun x => limit24 (route g x)) = blockFrames.map fun i => limit24 (route g (floor i)) := by
    rw [floorBlock, List.map_map]
    exact List.map_congr_left fun i _ => congrArg (fun y => limit24 (route g y)) (h i).symm
  rw [same]
  exact samples_blockFrames fun _ => rfl

theorem mem_segmentNumbers {k : Nat} : k ∈ segmentNumbers ↔ 1 ≤ k ∧ k ≤ 12 := by
  constructor
  · revert k; decide
  · rintro ⟨low, high⟩
    interval_cases k <;> decide

theorem mem_voices : a ∈ p.voices ↔ (1 ≤ a ∧ a ≤ 12) ∧ ∃ m ∈ p.mics, m.anchor = a := by
  simp [Plan.voices, mem_segmentNumbers]

end

namespace State

variable {s : State} {n : Nat} {m : MicRoute}

/-! ## The routes of a block (R167, R172) -/

/-- The microphone route of a seat, if it has one. -/
def micRoute (s : State) (n : Nat) (x : Seat) : Option MicRoute :=
  if x.mic = .live && !x.muted then
    match s.roomOf x.segment, x.slot with
    | some r, some k => some { seat := n, bus := seatBus n, slot := k, anchor := r.anchor, gain := x.trim - attenuation (s.openMics r) }
    | _, _ => none
  else none

theorem micRoutes_eq : s.micRoutes = s.floor.seats.filterMap fun e => s.micRoute e.1 e.2 := rfl

theorem micRoute_eq_some {x : Seat} : s.micRoute n x = some m ↔ ∃ r k, x.mic = .live ∧ x.muted = false ∧
    s.roomOf x.segment = some r ∧ x.slot = some k ∧
      m = { seat := n, bus := seatBus n, slot := k, anchor := r.anchor, gain := x.trim - attenuation (s.openMics r) } := by
  unfold micRoute
  cases room : s.roomOf x.segment with
  | none => simp
  | some r =>
    cases slot : x.slot with
    | none => simp
    | some k =>
      by_cases heard : x.mic = .live ∧ x.muted = false
      · simp [heard.1, heard.2, eq_comm]
      · rw [if_neg (by simpa using heard)]
        simp only [reduceCtorEq, false_iff]
        rintro ⟨_, _, live, unmuted, -⟩
        exact heard ⟨live, unmuted⟩

theorem openMics_eq (r : Room) : s.openMics r =
    (r.live.filter (fun i => decide ((s.seat i).mic = .live ∧ (s.seat i).muted = false))).length := by
  refine congrArg List.length (List.filter_congr fun i _ => ?_)
  simp [Bool.decide_and]

theorem mem_micRoutes (canonical : twf Seat.initial s.floor.seats = true) :
    m ∈ s.micRoutes ↔ ∃ n, s.micRoute n (s.seat n) = some m := by
  rw [micRoutes_eq, List.mem_filterMap]
  constructor
  · rintro ⟨⟨n, x⟩, listed, route⟩
    exact ⟨n, by rw [seat, Kept.tget_of_mem canonical listed]; exact route⟩
  · rintro ⟨n, route⟩
    obtain ⟨-, -, live, -⟩ := micRoute_eq_some.1 route
    have other : s.seat n ≠ Seat.initial := fun e => by
      rw [e] at live
      cases live
    exact ⟨(n, s.seat n), Kept.mem_of_tget other rfl, route⟩

theorem micRoutes_nodup (canonical : twf Seat.initial s.floor.seats = true) : (s.micRoutes.map MicRoute.seat).Nodup := by
  rw [micRoutes_eq, List.map_filterMap]
  refine List.Pairwise.filterMap _ (fun x y below i hi j hj => ?_) (twf_pairwise canonical)
  obtain ⟨m, hm, rfl⟩ := Option.map_eq_some_iff.1 hi
  obtain ⟨o, ho, rfl⟩ := Option.map_eq_some_iff.1 hj
  obtain ⟨-, -, -, -, -, -, rfl⟩ := micRoute_eq_some.1 hm
  obtain ⟨-, -, -, -, -, -, rfl⟩ := micRoute_eq_some.1 ho
  exact Nat.ne_of_lt below

/-- The loudspeaker route of a segment that a room contains. -/
def zoneRoute (s : State) (k : Nat) : Option ZoneRoute :=
  (s.roomOf k).map fun r => { segment := k, anchor := r.anchor, gain := r.level + (s.segment k).trim }

theorem zoneRoutes_eq : s.zoneRoutes = s.installedSegments.filterMap s.zoneRoute := rfl

theorem zoneRoutes_nodup : (s.zoneRoutes.map ZoneRoute.segment).Nodup := by
  rw [zoneRoutes_eq, List.map_filterMap]
  refine List.Pairwise.filterMap _ (fun x y below i hi j hj => ?_) s.installedSegments_rising
  obtain ⟨z, hz, rfl⟩ := Option.map_eq_some_iff.1 hi
  obtain ⟨o, ho, rfl⟩ := Option.map_eq_some_iff.1 hj
  obtain ⟨-, -, rfl⟩ := Option.map_eq_some_iff.1 hz
  obtain ⟨-, -, rfl⟩ := Option.map_eq_some_iff.1 ho
  exact Nat.ne_of_lt below

theorem mem_zoneRoutes {z : ZoneRoute} : z ∈ s.zoneRoutes ↔ 1 ≤ z.segment ∧ z.segment ≤ 12 ∧
    (s.segment z.segment).installed = true ∧ ∃ a r, s.anchorOf z.segment = some a ∧ s.room a = some r ∧ z.anchor = r.anchor ∧
      z.gain = r.level + (s.segment z.segment).trim := by
  rw [zoneRoutes_eq, List.mem_filterMap]
  constructor
  · rintro ⟨k, hk, route⟩
    obtain ⟨⟨low, high⟩, inst⟩ := mem_installedSegments.1 hk
    obtain ⟨r, hr, rfl⟩ := Option.map_eq_some_iff.1 route
    obtain ⟨a, ha, hr⟩ := Option.bind_eq_some_iff.1 hr
    exact ⟨low, high, inst, a, r, ha, hr, rfl, rfl⟩
  · rintro ⟨low, high, inst, a, r, ha, hr, anchor, gain⟩
    refine ⟨z.segment, mem_installedSegments.2 ⟨⟨low, high⟩, inst⟩, ?_⟩
    rw [zoneRoute, roomOf, ha, Option.bind_some, hr, Option.map_some, ← anchor, ← gain]

end State

end Sys2Proof.Machine

open Sys2Proof Sys2Proof.Machine

/-- Settles O44. -/
theorem theFloorIsTheScaledSum : Obligations.TheFloorIsTheScaledSum := by
  unfold Obligations.TheFloorIsTheScaledSum
  refine ⟨fun n => ⟨attenuation_nonneg n, fun h => by rw [h]; rfl, attenuation_of_large, attenuation_bounds⟩,
    fun s m canonical => ⟨?_, State.micRoutes_nodup canonical⟩, fun s => ⟨State.zoneRoutes_nodup, fun z => State.mem_zoneRoutes⟩,
    limit24_eq, fun p audio a floor hfloor => ⟨fun ls hls => ?_, fun m hm here low high => ?_, fun k hk => ?_, fun z hz here => ?_⟩,
    fun g => factor_bounds, fun x f => scale_bounds f, scale_neg, fun g x => route_of_mute x, route_zero,
    fun g x => route_of_heard x⟩
  · refine (State.mem_micRoutes canonical).trans (exists_congr fun n => State.micRoute_eq_some.trans ?_)
    simp only [State.openMics_eq, State.seatRoom]
  · obtain ⟨b, -, e⟩ := List.mem_map.1 hls
    obtain ⟨rfl, rfl⟩ := Prod.mk.inj e
    exact samples_floor hfloor
  · exact ⟨_, List.mem_map.2 ⟨a, mem_voices.2 ⟨⟨low, high⟩, m, hm, here⟩, rfl⟩⟩
  · exact ⟨_, List.mem_map.2 ⟨_, hk, rfl⟩, samples_floor hfloor⟩
  · subst here
    exact ⟨_, List.mem_map.2 ⟨z, hz, rfl⟩, samples_routed z.gain hfloor⟩

end

section
/-! SUPPORT. What the channels and the slots carry in a block (O45). -/

namespace Sys2Proof.Machine

/-! ## Lists of what slots carry -/

theorem carrying_cons (f : Nat → Carry) (j : Nat) (ks : List Nat) :
    carrying f (j :: ks) = if f j = .silence then carrying f ks else (j, f j) :: carrying f ks := by
  unfold carrying
  split
  · next quiet => rw [List.filterMap_cons, if_pos quiet]
  · next heard => rw [List.filterMap_cons, if_neg heard]

theorem tget_carrying (f : Nat → Carry) (ks : List Nat) (k : Nat) :
    tget .silence (carrying f ks) k = if k ∈ ks then f k else .silence := by
  induction ks with
  | nil => rfl
  | cons j ks ih =>
    rw [carrying_cons]
    split
    · next quiet =>
      rw [ih]
      by_cases here : k = j
      · subst here
        simp [quiet]
      · simp [here]
    · rw [tget, ih]
      by_cases here : k = j
      · simp [here]
      · simp [here, Ne.symm here]

theorem mem_of_mem_carrying {f : Nat → Carry} {ks : List Nat} {x : Nat × Carry} (h : x ∈ carrying f ks) : x.1 ∈ ks := by
  obtain ⟨k, hk, e⟩ := List.mem_filterMap.1 h
  split at e
  · cases e
  · rw [← Option.some.inj e]
    exact hk

/-- Numbers from 1 up, counted from 0. -/
theorem tget_map_pred {α : Type} (d : α) {tb : Table α} (positive : ∀ x ∈ tb, 1 ≤ x.1) {b : Nat} (hb : 1 ≤ b) :
    tget d (tb.map (fun x => (x.1 - 1, x.2))) (b - 1) = tget d tb b := by
  induction tb with
  | nil => rfl
  | cons x r ih =>
    have first := positive x List.mem_cons_self
    rw [List.map_cons, tget, tget, ih fun y hy => positive y (List.mem_cons_of_mem x hy)]
    by_cases here : x.1 = b
    · rw [if_pos here, if_pos (by omega)]
    · rw [if_neg here, if_neg (by omega)]

theorem find?_eq_some_of_unique {α : Type} {p : α → Bool} {xs : List α} {x : α} (listed : x ∈ xs) (meets : p x = true)
    (only : ∀ y ∈ xs, p y = true → y = x) : xs.find? p = some x := by
  cases h : xs.find? p with
  | none => exact absurd meets (List.find?_eq_none.1 h x listed)
  | some y => rw [only y (List.mem_of_find?_eq_some h) (List.find?_some h)]

/-! ## Channels -/

theorem hasChannels_iff {x : Session} : x.hasChannels = true ↔ x = .inSession ∨ x = .ending := by
  cases x <;> decide

namespace State

variable {s : State} {a b c k : Nat} {r : Room} {o : Output}

theorem mem_outputs (ok : s.RoomsOk) (hr : s.room a = some r) :
    (⟨a, c⟩, o) ∈ s.outputs ↔ (r.session = .inSession ∨ r.session = .ending) ∧ c ∈ r.profile.languages ∧
      o = s.output r ⟨a, c⟩ := by
  have anchor : r.anchor = a := (ok.anchor a r hr).1
  have listed : a ∈ s.anchors := mem_anchors hr
  unfold outputs
  rw [List.mem_flatMap]
  constructor
  · rintro ⟨b, -, found⟩
    split at found
    · cases found
    · next q hq =>
      obtain ⟨key, hkey, e⟩ := List.mem_map.1 found
      obtain ⟨rfl, rfl⟩ := Prod.mk.inj e
      unfold Room.channelKeys at hkey
      split at hkey
      · next channels =>
        obtain ⟨d, hd, e⟩ := List.mem_map.1 hkey
        obtain ⟨rfl, rfl⟩ := Key.mk.inj e
        obtain rfl : b = q.anchor := ((ok.anchor b q hq).1).symm
        obtain rfl : q = r := Option.some.inj (hq.symm.trans hr)
        exact ⟨hasChannels_iff.1 channels, hd, rfl⟩
      · cases hkey
  · rintro ⟨session, code, rfl⟩
    refine ⟨a, listed, ?_⟩
    rw [hr]
    refine List.mem_map.2 ⟨⟨a, c⟩, ?_, rfl⟩
    rw [Room.channelKeys, if_pos (hasChannels_iff.2 session), ← anchor]
    exact List.mem_map.2 ⟨c, code, rfl⟩

theorem output_of_onAir (ok : s.OwnersOk) {key : Key} {d : Nat} (owned : (s.console d).owned = some key)
    (state : (s.console d).state = .onAir) :
    s.output r key = if (s.console d).cough then .silence else .microphone d (s.boothAt (consoleBooth d)).trim := by
  unfold output
  rw [(ownerOf_eq_some_iff ok).2 owned]
  exact if_pos state

theorem output_of_cueing (ok : s.OwnersOk) {key : Key} {d : Nat} (owned : (s.console d).owned = some key)
    (state : (s.console d).state = .cueing) : s.output r key = .fill r.anchor r.profile.fill := by
  unfold output
  rw [(ownerOf_eq_some_iff ok).2 owned]
  exact if_neg (by rw [state]; decide)

theorem output_of_free (ok : s.OwnersOk) {key : Key} (free : ∀ d, (s.console d).owned ≠ some key) :
    s.output r key = .fill r.anchor r.profile.fill := by
  unfold output
  cases owner : s.ownerOf key with
  | none => rfl
  | some d => exact absurd ((ownerOf_eq_some_iff ok).1 owner) (free d)

end State

/-! ## Samples -/

section
variable {p : Plan} {audio : List Upstream} {floor : Nat → Nat → Int}

/-- The sample of an output in a frame. -/
def Output.sample (floor : Nat → Nat → Int) (audio : List Upstream) (i : Nat) : Output → Int
  | .microphone c g => limit24 (route g (upstreamSample audio 4 (c - 1) i))
  | .fill b (some g) => limit24 (route g (floor b i))
  | _ => 0

theorem samples_silence : Samples (toSamples (blockFrames.map fun _ => 0)) fun _ => 0 :=
  samples_blockFrames (f := fun _ => 0) fun _ => by decide

theorem samples_output (h : ∀ b i, floor b i = limit24 ((p.mics.filter (fun m => decide (m.anchor = b))).map
      (fun m => route m.gain (upstreamSample audio m.bus m.slot i))).sum) (o : Output) :
    Samples (toSamples (outputBlock p audio o)) fun i => o.sample floor audio i := by
  cases o with
  | microphone c g => exact samples_blockFrames fun _ => rfl
  | silence => exact samples_silence
  | fill b fill =>
    cases fill with
    | none => exact samples_silence
    | some g => exact samples_routed g (h b)

theorem channelBlock_of_unique {key : Key} {o : Output} (only : ∀ x, (key, x) ∈ p.channels ↔ x = o) :
    channelBlock p audio key = outputBlock p audio o := by
  have found : p.channels.find? (fun x => decide (x.1 = key)) = some (key, o) :=
    find?_eq_some_of_unique ((only o).2 rfl) (decide_eq_true rfl) fun y hy here => by
      obtain ⟨k, x⟩ := y
      obtain rfl : k = key := of_decide_eq_true here
      rw [(only x).1 hy]
  unfold channelBlock
  rw [found]

end

/-! ## Slots -/

namespace State

variable {s : State} {a b c k l : Nat} {r : Room}

theorem formPlan_slots (h : k < 64) : tget .silence s.formPlan.slots k = s.slotCarry k :=
  (tget_carrying s.slotCarry (List.range 64) k).trans (if_pos (List.mem_range.2 h))

theorem formPlan_listens (hb : 1 ≤ b) (canonical : twf Booth.initial s.booth.booths = true) (zero : (s.boothAt 0).installed = false) :
    tget .silence s.formPlan.listens (b - 1) = if (s.boothAt b).installed = true then s.listenCarry b else .silence := by
  have listed : ∀ k, k ∈ tkeys (fun (_ : Nat) (x : Booth) => x.installed) s.booth.booths ↔ (s.boothAt k).installed = true :=
    mem_tkeys_iff canonical fun _ => rfl
  refine (tget_map_pred Carry.silence (fun x hx => ?_) hb).trans ((tget_carrying s.listenCarry _ b).trans (if_congr (listed b) rfl rfl))
  have inst := (listed x.1).1 (mem_of_mem_carrying hx)
  by_contra none
  obtain low : x.1 = 0 := by omega
  rw [low, zero] at inst
  cases inst

theorem roomOf_of (ha : s.anchorOf k = some a) (hr : s.room a = some r) : s.roomOf k = some r := by
  rw [roomOf, ha, Option.bind_some, hr]

theorem listenCarry_of_floor (hr : s.boothRoom b = some r) (source : (s.boothAt b).source = .floor) :
    s.listenCarry b = .floor r.anchor := by
  unfold listenCarry
  rw [hr, source]
  cases (s.boothAt b).listen <;> rfl

theorem listenCarry_of_relay (hr : s.boothRoom b = some r) (source : (s.boothAt b).source = .relay l) :
    s.listenCarry b = if (s.boothAt b).listen = .relay then .channel ⟨r.anchor, l⟩ else .floor r.anchor := by
  unfold listenCarry
  rw [hr, source]
  cases (s.boothAt b).listen <;> rfl

theorem listenOf_of_relay (ok : s.OwnersOk) (hr : s.boothRoom b = some r) (source : (s.boothAt b).source = .relay l) :
    s.listenOf b = .relay ↔ (r.session = .inSession ∨ r.session = .ending) ∧ s.hasChannel ⟨r.anchor, l⟩ = true ∧
      ∃ d, (s.console d).owned = some ⟨r.anchor, l⟩ ∧ (s.console d).state = .onAir ∧
        (s.boothAt (consoleBooth d)).source = .floor := by
  unfold listenOf
  rw [source]
  dsimp only
  rw [hr]
  dsimp only
  rw [← hasChannels_iff]
  by_cases channels : r.session.hasChannels = true ∧ s.hasChannel ⟨r.anchor, l⟩ = true
  · rw [if_pos (by simp [channels.1, channels.2])]
    cases owner : s.ownerOf ⟨r.anchor, l⟩ with
    | none =>
      refine iff_of_false Listen.noConfusion fun ⟨_, _, d, owned, _⟩ => ?_
      rw [(ownerOf_eq_some_iff ok).2 owned] at owner
      cases owner
    | some d =>
      have owned := (ownerOf_eq_some_iff ok).1 owner
      dsimp only
      by_cases heard : (s.console d).state = .onAir ∧ (s.boothAt (consoleBooth d)).source = .floor
      · rw [if_pos (by simp [heard.1, heard.2])]
        exact ⟨fun _ => ⟨channels.1, channels.2, d, owned, heard⟩, fun _ => rfl⟩
      · rw [if_neg (by simpa using heard)]
        refine iff_of_false Listen.noConfusion fun ⟨_, _, e, owns, onAir⟩ => ?_
        rw [ok.one e d _ owns owned] at onAir
        exact absurd onAir heard
  · rw [if_neg (by simpa using channels)]
    exact iff_of_false Listen.noConfusion fun ⟨session, channel, _⟩ => channels ⟨session, channel⟩

theorem slotCarry_floor (low : 1 ≤ k) (high : k ≤ 12) : s.slotCarry (k - 1) = s.floorCarry k := by
  unfold slotCarry
  rw [if_pos (by omega), Nat.sub_add_cancel low]

theorem floorCarry_of_out (out : s.link.phase ≠ .run ∨ (s.segment k).installed = false ∨ k ∉ s.dist.current.anchors) :
    s.floorCarry k = .silence := by
  refine if_neg fun all => ?_
  simp only [Bool.and_eq_true, decide_eq_true_eq, List.contains_iff_mem] at all
  obtain ⟨⟨run, inst⟩, listed⟩ := all
  rcases out with config | bare | unlisted
  · exact config run
  · rw [bare] at inst
    cases inst
  · exact unlisted listed

theorem floorCarry_of_room (run : s.link.phase = .run) (inst : (s.segment k).installed = true)
    (listed : k ∈ s.dist.current.anchors) (hr : s.roomOf k = some r) :
    s.floorCarry k = if r.session = .inSession ∨ r.session = .ending then .floor r.anchor else .silence := by
  unfold floorCarry
  rw [if_pos (by simp [run, inst, listed]), hr]
  exact if_congr hasChannels_iff rfl rfl

theorem slotCarry_language (low : 12 ≤ k) : s.slotCarry k = s.languageCarry k := if_neg (by omega)

theorem languageCarry_of_none (h : tget none s.dist.current.slots k = none) : s.languageCarry k = .silence := by
  unfold languageCarry
  rw [h]

theorem languageCarry_of_room {key : Key} (h : tget none s.dist.current.slots k = some key) (hr : s.roomOf key.anchor = some r) :
    s.languageCarry k = if (r.session = .inSession ∨ r.session = .ending) ∧ key.code ∈ r.profile.languages then
      .channel ⟨r.anchor, key.code⟩ else .silence := by
  unfold languageCarry
  rw [h]
  dsimp only
  rw [hr]
  refine if_congr ?_ rfl rfl
  rw [Bool.and_eq_true, hasChannels_iff, List.contains_iff_mem]

end State

end Sys2Proof.Machine

open Sys2Proof Sys2Proof.Machine

/-- Settles O45. -/
theorem slotsCarryTheirRoomsAndChannels : Obligations.SlotsCarryTheirRoomsAndChannels := by
  unfold Obligations.SlotsCarryTheirRoomsAndChannels
  refine ⟨fun s a c r owners rooms _ hr => ⟨fun out o listed => ?_, fun session code => ⟨s.output r ⟨a, c⟩, fun x => ?_,
      fun d owned onAir => State.output_of_onAir owners owned onAir, fun d owned cueing => ?_, fun free => ?_⟩⟩,
    fun p audio key o floor sample hfloor only hsample => ?_, fun s k low high => ⟨fun out => ?_, fun b r run inst listed ha hr e => ?_⟩,
    fun s k low high => ⟨fun none => ?_, fun key b r held ha hr e => ?_⟩,
    fun s b hb canonical zero => ⟨fun bare => ?_, fun a r inst right owners ha hr e => ?_⟩⟩
  · obtain ⟨session, code, -⟩ := (State.mem_outputs rooms hr).1 listed
    rcases out with ⟨h1, h2⟩ | h
    · exact session.elim h1 h2
    · exact h code
  · exact (State.mem_outputs rooms hr).trans ⟨fun ⟨_, _, e⟩ => e, fun e => ⟨session, code, e⟩⟩
  · rw [State.output_of_cueing owners owned cueing, (rooms.anchor a r hr).1]
  · rw [State.output_of_free owners free, (rooms.anchor a r hr).1]
  · have samples : Samples (toSamples (channelBlock p audio key)) sample := by
      obtain rfl : sample = fun i => o.sample floor audio i := funext fun i => (hsample i).trans (by
        unfold Output.sample
        rfl)
      rw [channelBlock_of_unique only]
      exact samples_output hfloor o
    exact ⟨fun k hk => ⟨_, List.mem_map.2 ⟨_, hk, rfl⟩, samples⟩, fun k hk => ⟨_, List.mem_map.2 ⟨_, hk, rfl⟩, samples⟩,
      fun k b hk => ⟨_, List.mem_map.2 ⟨_, hk, rfl⟩, samples_floor (hfloor b)⟩⟩
  · rw [State.formPlan_slots (by omega), State.slotCarry_floor low high, State.floorCarry_of_out out]
  · subst e
    rw [State.formPlan_slots (by omega), State.slotCarry_floor low high,
      State.floorCarry_of_room run inst listed (State.roomOf_of ha hr)]
  · rw [State.formPlan_slots (by omega), State.slotCarry_language low, State.languageCarry_of_none none]
  · subst e
    rw [State.formPlan_slots (by omega), State.slotCarry_language low,
      State.languageCarry_of_room held (State.roomOf_of ha hr)]
  · rw [State.formPlan_listens hb canonical zero, if_neg (by rw [bare]; decide)]
  · subst e
    have room : s.boothRoom b = some r := State.roomOf_of ha hr
    rw [State.formPlan_listens hb canonical zero, if_pos inst]
    refine ⟨fun source => State.listenCarry_of_floor room source, fun l valid source hvalid => ?_⟩
    have relay : (s.boothAt b).listen = .relay ↔ valid := by
      rw [right b, State.listenOf_of_relay owners room source, hvalid]
    rw [State.listenCarry_of_relay room source]
    exact ⟨fun h => if_pos (relay.2 h), fun h => if_neg fun e => h (relay.1 e)⟩

end

section
/-! SUPPORT. Which channels there are, and that making one keeps the others; the entry into a session by request (O12). -/

namespace Sys2Proof.Machine

/-! ## Listing a record -/

/-- Listing a record drops no record but the one that its number had. -/
theorem mem_tput_of_mem {α : Type} {d v : α} {tb : Table α} {k : Nat} {x : Nat × α} (hx : x ∈ tb) (other : x.2 ≠ tget d tb k) :
    x ∈ tput tb k v := by
  induction tb with
  | nil => cases hx
  | cons y r ih =>
    obtain ⟨j, w⟩ := y
    unfold tput
    split
    · exact List.mem_cons_of_mem _ hx
    · split
      · next e =>
        subst e
        rw [tget, if_pos rfl] at other
        rcases List.mem_cons.1 hx with rfl | later
        · exact absurd rfl other
        · exact List.mem_cons_of_mem _ later
      · next e =>
        rcases List.mem_cons.1 hx with rfl | later
        · exact List.mem_cons_self
        · rw [tget, if_neg (Ne.symm e)] at other
          exact List.mem_cons_of_mem _ (ih later other)

theorem mem_tput_self {α : Type} {tb : Table α} {k : Nat} {v : α} : (k, v) ∈ tput tb k v := by
  induction tb with
  | nil => exact List.mem_cons_self
  | cons y r ih =>
    unfold tput
    split
    · exact List.mem_cons_self
    · split
      · exact List.mem_cons_self
      · exact List.mem_cons_of_mem _ ih

namespace State

section
variable {s t : State} {a b n : Nat} {r : Room} {key new : Key} {c : SessionCause} {w : Option Waker}

/-! ## Channels -/

theorem isSome_positionOf (keys : List Key) (i : Nat) : (positionOf key keys i).isSome = true ↔ key ∈ keys := by
  induction keys generalizing i with
  | nil => simp [positionOf]
  | cons x xs ih =>
    unfold positionOf
    split
    · next e => simp [e]
    · next e => rw [ih, List.mem_cons, or_iff_right (Ne.symm e)]

theorem isSome_slotOf (tb : SlotTable) : (tb.slotOf key).isSome = true ↔ ∃ k, (k, some key) ∈ tb.slots := by
  unfold SlotTable.slotOf
  rw [List.isSome_head?]
  refine Iff.trans ⟨List.exists_mem_of_ne_nil _, fun ⟨_, hk⟩ => List.ne_nil_of_mem hk⟩ (exists_congr fun k => ?_)
  simp only [tkeys, List.mem_map, List.mem_filter, decide_eq_true_eq]
  exact ⟨fun ⟨x, ⟨hx, e⟩, here⟩ => by rw [← here, ← e]; exact hx, fun h => ⟨_, ⟨h, rfl⟩, rfl⟩⟩

/-- A channel is one that has a slot or stands on the unserved list (R150). -/
theorem hasChannel_iff : s.hasChannel key = true ↔ (∃ k, (k, some key) ∈ s.dist.allocation.slots) ∨ key ∈ s.dist.unserved := by
  rw [← isSome_slotOf, ← isSome_positionOf s.dist.unserved 1]
  unfold hasChannel service
  cases s.dist.allocation.slotOf key with
  | some k => simp
  | none => cases positionOf key s.dist.unserved 1 <;> simp

theorem hasChannel_of_dist (h : t.dist = s.dist) (key : Key) : t.hasChannel key = s.hasChannel key := by
  unfold hasChannel service
  rw [h]

/-- After a channel is made, the channels are it and those before. -/
theorem hasChannel_makeChannel (h : key = new ∨ s.hasChannel key = true) : (s.makeChannel new).hasChannel key = true := by
  by_cases there : s.hasChannel new = true
  · rw [makeChannel, if_pos there]
    exact h.elim (fun e => e ▸ there) id
  · have made := makeChannel_dist (s := s) (key := new) (Bool.eq_false_iff.2 there)
    rw [hasChannel_iff, made]
    rw [hasChannel_iff] at h
    split
    · next k free =>
      refine h.elim (fun e => .inl ⟨k, ?_⟩) (Or.imp_left fun ⟨j, hj⟩ => ⟨j, ?_⟩)
      · subst e
        exact mem_tput_self
      · have empty : tget none s.dist.allocation.slots k = none := of_decide_eq_true (List.find?_some free :)
        exact mem_tput_of_mem (d := none) hj (by rw [empty]; exact Option.some_ne_none key)
    · refine h.elim (fun e => .inr ?_) (Or.imp_right fun hk => ?_)
      · subst e
        exact List.mem_append_right _ List.mem_cons_self
      · exact List.mem_append_left _ hk

theorem hasChannel_makeChannels {keys : List Key} (h : key ∈ keys ∨ s.hasChannel key = true) :
    (s.makeChannels keys).hasChannel key = true := by
  unfold makeChannels
  induction keys generalizing s with
  | nil => exact h.resolve_left List.not_mem_nil
  | cons x xs ih =>
    refine ih ?_
    rcases h with listed | there
    · exact (List.mem_cons.1 listed).symm.imp_right fun e => hasChannel_makeChannel (.inl e)
    · exact .inr (hasChannel_makeChannel (.inr there))

/-! ## The channels of a session -/

theorem join_dist (i : Nat) (it : Item) : (s.join i it).dist = s.dist := by rw [join_eq]

theorem queueMaps_dist (ks : List Nat) : (s.queueMaps ks).dist = s.dist :=
  foldl_dist (fun _ _ => foldl_dist (fun _ _ => join_dist _ _) _ _) _ _

theorem entered_hasChannel {l : Nat} (h : l ∈ r.profile.languages) : (s.entered a r c w).hasChannel ⟨a, l⟩ = true := by
  rw [entered, hasChannel_of_dist (queueMaps_dist _)]
  exact hasChannel_makeChannels (.inl (List.mem_map.2 ⟨l, h, rfl⟩))

/-- What follows the channels made changes none. -/
theorem enterSession_dist (hr : s.room a = some r) : (s.enterSession a c w).dist = (s.entered a r c w).dist := by
  have seated : (s.seated a r c w).dist = (s.entered a r c w).dist := (Sheds.reformAll _).dist
  have room : (s.seated a r c w).room a = some (sessionRoom r) := (seated_room hr).trans (if_pos rfl)
  have taken := (Sits.takeUp_parts (r := sessionRoom r) room).1
  exact ((Sits.after_takeUp hr).dist.trans taken).trans seated

/-! ## Chairs that hold PRIORITY (R101) -/

/-- No listed seat is a chair of these segments that holds PRIORITY: what `State.chairsHolding` says of the list itself. -/
theorem chairsHolding_eq_nil {segments : List Nat} : s.chairsHolding segments = [] ↔ ∀ x ∈ s.floor.seats,
    ¬ (x.2.fixed.installed = true ∧ x.2.fixed.cls = .chair ∧ x.2.fixed.segment ∈ segments ∧
      (s.unit (seatBus x.1) (seatAddress x.1)).held = true) := by
  simp only [chairsHolding, tkeys, List.map_eq_nil_iff, List.filter_eq_nil_iff, Bool.and_eq_true, decide_eq_true_eq,
    List.contains_iff_mem, and_assoc, Seat.fixed]

/-- From `s` to `t` every seat listed has the installation of one listed before, or of none, and units keep their records. -/
structure Installs (s t : State) : Prop where
  seats : ∀ x ∈ t.floor.seats, (∃ y ∈ s.floor.seats, x.1 = y.1 ∧ x.2.fixed = y.2.fixed) ∨ x.2.fixed = Seat.initial.fixed
  units : ∀ i b, t.unit i b = s.unit i b

namespace Installs

theorem of_same (seats : t.floor.seats = s.floor.seats) (queues : s.QueuesOnly t) : s.Installs t :=
  ⟨fun x hx => .inl ⟨x, seats ▸ hx, rfl, rfl⟩, fun i b => by unfold unit; rw [queues i]⟩

theorem refl (s : State) : s.Installs s := of_same rfl (.refl s)

theorem trans {u : State} (h : s.Installs t) (k : t.Installs u) : s.Installs u where
  seats x hx := by
    rcases k.seats x hx with ⟨y, hy, number, same⟩ | initial
    · rcases h.seats y hy with ⟨z, hz, number', same'⟩ | initial
      · exact .inl ⟨z, hz, number.trans number', same.trans same'⟩
      · exact .inr (same.trans initial)
    · exact .inr initial
  units i b := (k.units i b).trans (h.units i b)

theorem fold {α : Type} {f : State → α → State} (hf : ∀ (v : State) x, v.Installs (f v x)) (xs : List α) (s : State) :
    s.Installs (xs.foldl f s) := by
  induction xs generalizing s with
  | nil => exact refl s
  | cons x xs ih => exact (hf s x).trans (ih _)

theorem setSeat {x : Seat} (hx : x.fixed = (s.seat n).fixed) : s.Installs (s.setSeat n x) where
  seats y hy := by
    rcases mem_of_mem_tset hy with rfl | before
    · by_cases initial : s.seat n = Seat.initial
      · exact .inr (hx.trans (by rw [initial]))
      · exact .inl ⟨(n, s.seat n), Kept.mem_of_tget initial rfl, rfl, hx⟩
    · exact .inl ⟨y, before, rfl, rfl⟩
  units _ _ := rfl

theorem reseat (n : Nat) : s.Installs (s.reseat n) :=
  (setSeat (x := { s.seat n with indication := s.indicationOf n }) rfl).trans
    (of_same (congrArg FloorUnit.seats reseat_floor) (check_queuesOnly _ _))

theorem reform (n : Nat) : s.Installs (s.reform n) := by
  unfold State.reform
  split
  · exact refl s
  · exact reseat n

theorem reformAll (ns : List Nat) : s.Installs (s.reformAll ns) := fold (fun _ n => reform n) ns s

/-- Where no chair held PRIORITY none holds it. -/
theorem chairsHolding (h : s.Installs t) {segments : List Nat} (none : s.chairsHolding segments = []) :
    t.chairsHolding segments = [] := by
  rw [chairsHolding_eq_nil] at none ⊢
  intro x hx holds
  rw [h.units] at holds
  rcases h.seats x hx with ⟨y, hy, number, same⟩ | initial
  · rw [number, same] at holds
    exact none y hy holds
  · rw [initial] at holds
    exact Bool.noConfusion holds.1

end Installs

/-! ## Work on channels alone -/

/-- From `s` to `t` channels, pending queues and notices have changed, and nothing else. -/
structure OnDist (s t : State) : Prop where
  eq : t = { s with dist := t.dist, buses := t.buses, link := t.link }
  queues : s.QueuesOnly t

namespace OnDist

theorem refl (s : State) : s.OnDist s := ⟨rfl, .refl s⟩

theorem trans {u : State} (h : s.OnDist t) (k : t.OnDist u) : s.OnDist u :=
  ⟨by rw [k.eq, h.eq], h.queues.trans k.queues⟩

theorem fold {α : Type} {f : State → α → State} (hf : ∀ (v : State) x, v.OnDist (f v x)) (xs : List α) (s : State) :
    s.OnDist (xs.foldl f s) := by
  induction xs generalizing s with
  | nil => exact refl s
  | cons x xs ih => exact (hf s x).trans (ih _)

theorem note (x : Notice) : s.OnDist (s.note x) := ⟨rfl, .refl s⟩
theorem setSlot (k : Nat) (x : Option Key) : s.OnDist (s.setSlot k x) := ⟨rfl, .refl s⟩
theorem setUnserved (ks : List Key) : s.OnDist (s.setUnserved ks) := ⟨rfl, .refl s⟩
theorem join (i : Nat) (it : Item) : s.OnDist (s.join i it) := ⟨by rw [join_eq], join_queuesOnly i it⟩
theorem queueMaps (ks : List Nat) : s.OnDist (s.queueMaps ks) := fold (fun _ _ => fold (fun _ _ => join _ _) _ _) _ _

theorem queueRoomMaps (a : Nat) : s.OnDist (s.queueRoomMaps a) := by
  unfold State.queueRoomMaps
  split
  · exact refl s
  · exact queueMaps _

theorem makeChannel (key : Key) : s.OnDist (s.makeChannel key) := by
  unfold State.makeChannel
  split
  · exact refl s
  · split
    · exact (setSlot _ _).trans (queueRoomMaps _)
    · exact ((setUnserved _).trans (note _)).trans (queueRoomMaps _)

theorem makeChannels (ks : List Key) : s.OnDist (s.makeChannels ks) := fold (fun _ key => makeChannel key) _ _

theorem giveSlot (k : Nat) : s.OnDist (s.giveSlot k) := by
  unfold State.giveSlot
  split
  · exact setSlot k none
  · exact (((setSlot k _).trans (setUnserved _)).trans (note _)).trans (queueRoomMaps _)

theorem removeUnserved (key : Key) : s.OnDist (s.removeUnserved key) := by
  unfold State.removeUnserved
  split
  · exact refl s
  · exact ((setUnserved _).trans (note _)).trans (queueRoomMaps _)

theorem removeServed (key : Key) : s.OnDist (s.removeServed key) := by
  unfold State.removeServed
  split
  · exact refl s
  · exact (queueRoomMaps _).trans (giveSlot _)

theorem removeChannels (ks : List Key) : s.OnDist (s.removeChannels ks) :=
  (fold (fun _ key => removeUnserved key) _ _).trans (fold (fun _ key => removeServed key) _ _)

theorem rekey (old new : Key) : s.OnDist (s.rekey old new) := by
  unfold State.rekey
  split
  · exact refl s
  · split
    · exact setSlot _ _
    · exact setUnserved _

theorem hall (h : s.OnDist t) : t.hall = s.hall := (congrArg State.hall h.eq :)
theorem floor (h : s.OnDist t) : t.floor = s.floor := (congrArg State.floor h.eq :)
theorem booth (h : s.OnDist t) : t.booth = s.booth := (congrArg State.booth h.eq :)
theorem counts (h : s.OnDist t) : t.counts = s.counts := (congrArg State.counts h.eq :)

theorem room (h : s.OnDist t) (a : Nat) : t.room a = s.room a := by
  unfold State.room
  rw [h.hall]

theorem installs (h : s.OnDist t) : s.Installs t := .of_same (congrArg FloorUnit.seats h.floor) h.queues

end OnDist

/-! ## The entry into a session where nobody waits and no chair holds PRIORITY -/

theorem entered_onDist (hr : s.room a = some r) : (s.setRoom a (some (sessionRoom r))).OnDist (s.entered a r c w) := by
  unfold entered
  rw [modRoom_of_room hr]
  exact ((OnDist.note _).trans (.makeChannels _)).trans (.queueMaps _)

theorem seated_of_room (hr : s.room a = some r) :
    (s.setRoom a (some (sessionRoom r))).Shown (s.seated a r c w) ∧ (s.setRoom a (some (sessionRoom r))).Installs (s.seated a r c w) := by
  have made := entered_onDist (c := c) (w := w) hr
  have same : (s.setRoom a (some (sessionRoom r))).Shown (s.entered a r c w) := .of_same made.hall made.floor made.counts
  exact ⟨same.trans (.reformAll _), made.installs.trans (.reformAll _)⟩

theorem Shown.enterSession (off : s.CountersOff) (hr : s.room a = some r) (nobody : r.queue = [])
    (none : s.chairsHolding r.segments = []) : (s.setRoom a (some (sessionRoom r))).Shown (s.enterSession a c w) := by
  obtain ⟨shown, installs⟩ := seated_of_room (c := c) (w := w) hr
  have holding : (s.seated a r c w).chairsHolding r.segments = [] := installs.chairsHolding none
  have worked : (s.setRoom a (some (sessionRoom r))).Shown ((s.seated a r c w).boothWork a) :=
    shown.trans (.boothWork (shown.countersOff ⟨off.off, off.none, off.open_⟩) a)
  have room : ((s.seated a r c w).boothWork a).room a = some (sessionRoom r) := by
    rw [worked.room, setRoom_room, if_pos rfl]
  rw [enterSession_of_room hr, takeUp, if_pos holding, promote_of_no_queue room nobody]
  exact worked

end

end State

end Sys2Proof.Machine

open Sys2Proof Sys2Proof.Machine

/-- Settles O12. -/
theorem sessionOpenEntersTheSession : Obligations.SessionOpenEntersTheSession := by
  unfold Obligations.SessionOpenEntersTheSession
  intro s tag kb a r take run at_
  have phase : Allowed.run.permits s.link.phase = true := by simp [Allowed.permits, run]
  have read : handleSessionOpen [kb] s.popInput = if r.session = .dormant || r.session = .armed then
      (s.popInput.enterSession r.anchor .sessionOpen none, .ok (.room r.anchor)) else refuse s.popInput .wrongState :=
    (withBody_of_some rfl).trans (State.inRoom_of_roomAt at_ _)
  refine ⟨fun inside => ?_, fun outside => ?_⟩
  · refine congrArg Host.Outcome.next (State.request_of_refuse take phase (read.trans (if_neg ?_)))
    rcases inside with h | h <;> simp [h]
  · have handled := read.trans (if_pos (by simpa using outside))
    rw [at_.anchor] at handled
    obtain ⟨v, hv⟩ : ∃ v, v = s.popInput := ⟨_, rfl⟩
    rw [← hv] at handled
    have room : v.room a = some r := by rw [hv]; exact at_.room
    obtain ⟨x, hx, sits⟩ := State.enterSession_room room .sessionOpen none
    have runs : exec (.sessionOpen tag [kb]) s = .next ((v.enterSession a .sessionOpen none).reply ⟨0x0C, tag, .ok (.room a)⟩) :=
      congrArg Host.Outcome.next (State.request_of_handled take phase (hv ▸ handled))
    have parts := fun {β : Type} (f : Room → β) => congrArg f sits
    refine ⟨_, x, runs, hx, parts Room.session, parts Room.wake, parts Room.timer, parts Room.profile, parts Room.segments,
      fun l hl => ?_, fun nobody none off => ?_⟩
    · refine (State.hasChannel_of_dist (State.enterSession_dist room) ⟨a, l⟩).trans ?_
      exact State.entered_hasChannel hl
    · have offv : v.CountersOff := by rw [hv]; exact ⟨off.off, off.none, off.open_⟩
      have shown := State.Shown.enterSession (c := .sessionOpen) (w := Option.none) offv room nobody (by rw [hv]; exact none)
      generalize v.enterSession a .sessionOpen Option.none = t at shown
      subst hv
      exact ⟨shown.hall, shown.mic⟩

end

section
/-! SUPPORT. The end of a session (O14). -/

namespace Sys2Proof.Machine

theorem State.Shed.slot {x y : Seat} (h : State.Shed x y) : y.slot = x.slot := by
  rcases h with h | h <;> rw [h]

theorem State.Shed.off_floor {x y : Seat} (h : State.Shed x y) (off : x.mic ≠ .opening ∧ x.mic ≠ .live) : y.mic ≠ .opening ∧ y.mic ≠ .live := by
  rcases h with h | h
  · rw [h]
    exact off
  · rw [h]
    exact ⟨Mic.noConfusion, Mic.noConfusion⟩

namespace State

section
variable {s t u : State} {a b n : Nat} {r : Room} {cause : BoothCause}

/-- From `s` to `t` rooms have kept all but what has been dropped from their queues, and seats all but their indications and what
a drop does to them. -/
structure Wanes (s t : State) : Prop where
  room : ∀ b r, s.room b = some r → ∃ q, t.room b = some { r with queue := q } ∧ q.Sublist r.queue
  seat : ∀ m, Shed (s.seat m) (t.seat m)

namespace Wanes

theorem refl (s : State) : s.Wanes s := ⟨fun _ r hr => ⟨r.queue, hr, .refl _⟩, fun _ => .refl _⟩

theorem trans (h : s.Wanes t) (k : t.Wanes u) : s.Wanes u where
  room b r hr := by
    obtain ⟨q, hq, sub⟩ := h.room b r hr
    obtain ⟨p, hp, sub'⟩ := k.room b _ hq
    exact ⟨p, hp, sub'.trans sub⟩
  seat m := (h.seat m).trans (k.seat m)

theorem fold {α : Type} {f : State → α → State} (hf : ∀ (v : State) x, v.Wanes (f v x)) (xs : List α) (s : State) :
    s.Wanes (xs.foldl f s) := by
  induction xs generalizing s with
  | nil => exact refl s
  | cons x xs ih => exact (hf s x).trans (ih _)

theorem of_sheds (h : s.Sheds t) : s.Wanes t where
  room b r hr := by
    obtain ⟨q, hq, sub, -⟩ := h.room b r hr
    exact ⟨q, hq, sub⟩
  seat := h.seat

theorem of_shown (h : s.Shown t) : s.Wanes t where
  room b r hr := ⟨r.queue, (h.room b).trans hr, .refl _⟩
  seat m := .inl (h.seats m)

theorem relisten (b : Nat) : s.Wanes (s.relisten b) := by
  unfold State.relisten
  dsimp only
  split
  · exact refl s
  · split
    · exact (of_shown (.setBooth b _)).trans (of_sheds (((Sheds.note _).trans (.raiseBooth _ b)).trans .settleCounts))
    · exact of_shown ((Shown.setBooth b _).trans (.note _))
    · exact of_shown (.setBooth b _)

theorem boothWork (a : Nat) : s.Wanes (s.boothWork a) :=
  (fold (fun _ b => relisten b) _ _).trans (of_shown (.reconsoleIn _))

/-- A room whose queue is empty stays as it is. -/
theorem room_of_empty (h : s.Wanes t) (hr : s.room b = some r) (nobody : r.queue = []) : t.room b = some r := by
  obtain ⟨q, hq, sub⟩ := h.room b r hr
  rw [nobody, List.sublist_nil] at sub
  rw [hq, sub, ← nobody]

end Wanes

/-! ## The steps of SESSION_END (R34) -/

/-- The session is ending. -/
def ending (s : State) (a : Nat) (r : Room) : State :=
  (s.setRoom a (some { r with session := .ending })).note (.sessionState a r.session .ending .sessionEnd none none)

/-- The queue has been emptied. -/
def cleared (s : State) (a : Nat) (r : Room) : State := (s.ending a r).emptyQueue a .sessionEnd

/-- The priority is over. -/
def calmed (s : State) (a : Nat) (r : Room) : State :=
  if r.priority then (s.cleared a r).endPriority a else s.cleared a r

/-- The floor is closing. -/
def closedFloor (s : State) (a : Nat) (r : Room) : State := (s.calmed a r).closeSession a

/-- The channels have no owner. -/
def disowned (s : State) (a : Nat) (r : Room) : State :=
  ((s.closedFloor a r).ownersIn a).foldl (fun y c => y.release c .sessionEnd none) (s.closedFloor a r)

theorem endSession_of_room (hr : s.room a = some r) : s.endSession a = ((s.disowned a r).boothWork a).passIfEmpty a := by
  unfold endSession
  rw [hr]
  dsimp only
  rw [modRoom_of_room hr]
  rfl

/-- The room that has ended its session, before it passes to DORMANT. -/
def endedRoom (r : Room) : Room := { r with session := .ending, queue := [], priority := false }

/-- A seat is unmuted. -/
def unmute (s : State) (n : Nat) : State := (s.setSeat n { s.seat n with muted := false }).noteMic n .live .priorityEnd

theorem unmute_seat (n m : Nat) : (s.unmute n).seat m = if m = n then { s.seat n with muted := false } else s.seat m :=
  setSeat_seat ..

theorem unmuteAll_of_room (hr : s.room a = some r) :
    s.unmuteAll a = (r.live.filter (fun n => (s.seat n).muted)).foldl unmute s := by
  unfold unmuteAll
  rw [hr]
  rfl

theorem unmuteAll_hall (a : Nat) : (s.unmuteAll a).hall = s.hall := by
  cases hr : s.room a with
  | none =>
    unfold unmuteAll
    rw [hr]
  | some r =>
    rw [unmuteAll_of_room hr]
    exact foldl_hall (f := unmute) (fun _ _ => rfl) _ _

theorem foldl_unmute_seat (ns : List Nat) (s : State) (m : Nat) :
    (ns.foldl unmute s).seat m = { s.seat m with muted := (s.seat m).muted && decide (m ∉ ns) } := by
  induction ns generalizing s with
  | nil => simp
  | cons n ns ih =>
    rw [List.foldl_cons, ih, unmute_seat]
    by_cases here : m = n
    · subst here
      simp
    · simp [here]

theorem unmuteAll_seat (a m : Nat) : (s.unmuteAll a).seat m = { s.seat m with muted := ((s.unmuteAll a).seat m).muted } := by
  cases hr : s.room a with
  | none =>
    unfold unmuteAll
    rw [hr]
  | some r => rw [unmuteAll_of_room hr, foldl_unmute_seat]

/-- The seats of a list have gone to CLOSING. -/
theorem foldl_enterClosing (ns : List Nat) (c : MicCause) (s : State) :
    (ns.foldl (fun t n => t.enterClosing n c) s).hall = s.hall ∧
      ∀ m, ((ns.foldl (fun t n => t.enterClosing n c) s).seat m).slot = (s.seat m).slot ∧
        (m ∈ ns ∨ (s.seat m).mic = .closing → ((ns.foldl (fun t n => t.enterClosing n c) s).seat m).mic = .closing) ∧
        (m ∉ ns → (ns.foldl (fun t n => t.enterClosing n c) s).seat m = s.seat m) := by
  induction ns generalizing s with
  | nil => exact ⟨rfl, fun m => ⟨rfl, fun h => h.resolve_left List.not_mem_nil, fun _ => rfl⟩⟩
  | cons n ns ih =>
    obtain ⟨hall, seats⟩ := ih (s.enterClosing n c)
    rw [List.foldl_cons]
    refine ⟨hall.trans enterClosing_hall, fun m => ?_⟩
    obtain ⟨slot, closing, still⟩ := seats m
    have first := enterClosing_seat (s := s) (n := n) (m := m) (c := c)
    by_cases here : m = n
    · subst here
      rw [if_pos rfl] at first
      refine ⟨slot.trans (by rw [first]; rfl), fun _ => closing (.inr (by rw [first]; rfl)), fun out => absurd List.mem_cons_self out⟩
    · rw [if_neg here] at first
      rw [first] at slot closing still
      refine ⟨slot, fun h => closing (h.imp_left fun l => (List.mem_cons.1 l).resolve_left here), fun out => ?_⟩
      exact still fun l => out (List.mem_cons_of_mem n l)

theorem closeSession_parts (hr : s.room a = some r) : (s.closeSession a).hall = s.hall ∧
    (∀ m, ((s.closeSession a).seat m).slot = (s.seat m).slot) ∧
      ∀ m ∈ r.live, ((s.closeSession a).seat m).mic ≠ .opening ∧ ((s.closeSession a).seat m).mic ≠ .live := by
  unfold closeSession
  rw [hr]
  dsimp only
  obtain ⟨hall, seats⟩ := foldl_enterClosing (r.live.filter (fun n => (s.seat n).mic.onFloor)) .sessionEnd s
  refine ⟨hall, fun m => (seats m).1, fun m hm => ?_⟩
  obtain ⟨-, closing, still⟩ := seats m
  by_cases floor : (s.seat m).mic.onFloor = true
  · rw [closing (.inl (List.mem_filter.2 ⟨hm, floor⟩))]
    exact ⟨Mic.noConfusion, Mic.noConfusion⟩
  · rw [still fun l => floor (List.mem_filter.1 l).2]
    constructor
    all_goals
      intro e
      rw [e] at floor
      exact floor rfl

theorem passToDormant_parts (hr : s.room a = some r) (nobody : r.queue = []) :
    (s.passToDormant a).room a = some (dormantRoom r) ∧ ∀ m, ((s.passToDormant a).seat m).slot = (s.seat m).slot := by
  have wanes : (s.silenced a r).Wanes (s.passToDormant a) := by
    rw [passToDormant_eq hr]
    exact (Wanes.of_sheds (.reformAll _)).trans (.boothWork a)
  refine ⟨wanes.room_of_empty (silenced_room.trans (if_pos rfl)) nobody, fun m => ?_⟩
  rw [(wanes.seat m).slot]
  exact (undistributed_shown (s := s) (a := a) (r := r)).slot m

section
variable (right : ∀ e ∈ r.queue, s.seatAnchor e.seat = some a)

theorem cleared_slot (m : Nat) : ((s.cleared a r).seat m).slot = (s.seat m).slot :=
  ((Sheds.emptyQueue (s := s.ending a r) a .sessionEnd).seat m).slot

theorem calmed_slot (m : Nat) : ((s.calmed a r).seat m).slot = (s.seat m).slot := by
  refine Eq.trans ?_ (cleared_slot (a := a) (r := r) m)
  unfold calmed endPriority
  split
  · rw [unmuteAll_seat, modRoom_seat]
  · rfl

include right

theorem cleared_room : (s.cleared a r).room a = some { r with session := .ending, queue := [] } :=
  emptyQueue_room (s := s.ending a r) (r := { r with session := .ending }) ((setRoom_room ..).trans (if_pos rfl)) right

theorem calmed_room : (s.calmed a r).room a = some (endedRoom r) := by
  have room := cleared_room right
  unfold calmed endPriority
  split
  · rw [State.room, unmuteAll_hall]
    show (State.modRoom _ a _).room a = _
    rw [modRoom_of_room room, setRoom_room, if_pos rfl]
    rfl
  · next quiet =>
    rw [room, endedRoom, ← Bool.eq_false_iff.2 quiet]

/-- What the steps up to the release of the channels leave. -/
theorem disowned_parts : (s.disowned a r).room a = some (endedRoom r) ∧ (∀ m, ((s.disowned a r).seat m).slot = (s.seat m).slot) ∧
    ∀ m ∈ r.live, ((s.disowned a r).seat m).mic ≠ .opening ∧ ((s.disowned a r).seat m).mic ≠ .live := by
  obtain ⟨hall, slot, off⟩ := closeSession_parts (calmed_room right)
  have released : (s.closedFloor a r).Shown (s.disowned a r) := .fold (fun _ c => .release c _ _) _ _
  refine ⟨?_, fun m => ?_, fun m hm => ?_⟩
  · rw [released.room, State.room, closedFloor, hall]
    exact calmed_room right
  · rw [released.slot, closedFloor, slot, calmed_slot]
  · rw [released.mic]
    exact off m hm

/-- What SESSION_END leaves of its room and of the seats. -/
theorem endSession_parts (hr : s.room a = some r) : (s.endSession a).room a =
      some (if r.live = [] then dormantRoom (endedRoom r) else endedRoom r) ∧
    (∀ m, ((s.endSession a).seat m).slot = (s.seat m).slot) ∧
    ∀ m ∈ r.live, ((s.endSession a).seat m).mic ≠ .opening ∧ ((s.endSession a).seat m).mic ≠ .live := by
  obtain ⟨room, slot, off⟩ := disowned_parts right
  have wanes : (s.disowned a r).Wanes ((s.disowned a r).boothWork a) := .boothWork a
  have here := wanes.room_of_empty room rfl
  rw [endSession_of_room hr]
  generalize (s.disowned a r).boothWork a = v at wanes here
  unfold passIfEmpty
  rw [here]
  dsimp only
  by_cases empty : r.live = []
  · obtain ⟨passed, kept⟩ := passToDormant_parts here rfl
    rw [if_pos (by simp [endedRoom, empty]), if_pos empty]
    refine ⟨passed, fun m => by rw [kept, (wanes.seat m).slot, slot], fun m hm => ?_⟩
    rw [empty] at hm
    cases hm
  · rw [if_neg (by simp [endedRoom, empty]), if_neg empty]
    exact ⟨here, fun m => by rw [(wanes.seat m).slot, slot], fun m hm => (wanes.seat m).off_floor (off m hm)⟩

omit right in
theorem OnFloor.endPriority (a : Nat) : s.OnFloor (s.endPriority a) := by
  refine (OnFloor.modRoom a fun r => { r with priority := false }).trans ?_
  unfold State.endPriority unmuteAll
  split
  · exact .refl _
  · exact .fold (fun _ n => (OnFloor.setSeat n _).trans (.noteMic n _ _)) _ _

omit right in
theorem OnFloor.closeSession (a : Nat) : s.OnFloor (s.closeSession a) := by
  unfold State.closeSession
  split
  · exact .refl s
  · exact .fold (fun _ n => .enterClosing n _) _ _

/-- With no counter enabled SESSION_END changes no other room. -/
theorem endSession_room_other (off : s.CountersOff) (hr : s.room a = some r) (hb : b ≠ a) :
    (s.endSession a).room b = s.room b := by
  obtain ⟨onFloor, rooms, -⟩ := emptyQueue_of_off (s := s.ending a r) (c := .sessionEnd) (r := { r with session := .ending })
    ⟨off.off, off.none, off.open_⟩ ((setRoom_room ..).trans (if_pos rfl)) right
  have cleared : (s.cleared a r).room b = s.room b := (rooms b hb).trans ((setRoom_room ..).trans (if_neg hb))
  have calmed : (s.calmed a r).room b = s.room b ∧ (s.ending a r).OnFloor (s.calmed a r) := by
    unfold State.calmed
    split
    · refine ⟨?_, onFloor.trans (.endPriority a)⟩
      unfold endPriority
      rw [State.room, unmuteAll_hall]
      show (State.modRoom _ a _).room b = _
      rw [modRoom_of_room (cleared_room right), setRoom_room, if_neg hb]
      exact cleared
    · exact ⟨cleared, onFloor⟩
  obtain ⟨hall, -, -⟩ := closeSession_parts (calmed_room right)
  have closed : (s.ending a r).OnFloor (s.closedFloor a r) := calmed.2.trans (.closeSession a)
  have released : (s.closedFloor a r).Shown (s.disowned a r) := .fold (fun _ c => .release c _ _) _ _
  have offd : (s.disowned a r).CountersOff := released.countersOff (closed.countersOff ⟨off.off, off.none, off.open_⟩)
  have worked : (s.disowned a r).Shown ((s.disowned a r).boothWork a) := .boothWork offd a
  have other : ((s.disowned a r).boothWork a).room b = s.room b := by
    rw [worked.room, released.room, State.room, closedFloor, hall]
    exact calmed.1
  have here : ((s.disowned a r).boothWork a).room a = some (endedRoom r) := by
    rw [worked.room]
    exact (disowned_parts right).1
  rw [endSession_of_room hr]
  unfold passIfEmpty
  rw [here]
  dsimp only
  split
  · rw [(passToDormant_of_off (worked.countersOff offd) here).1 b, if_neg hb]
    exact other
  · exact other

end

end

end State

end Sys2Proof.Machine

open Sys2Proof Sys2Proof.Machine

/-- Settles O14. -/
theorem sessionEndLeavesTheSession : Obligations.SessionEndLeavesTheSession := by
  unfold Obligations.SessionEndLeavesTheSession
  intro s tag kb a r take run at_
  have phase : Allowed.run.permits s.link.phase = true := by simp [Allowed.permits, run]
  have read : handleSessionEnd [kb] s.popInput = if r.session = .inSession then
      (s.popInput.endSession r.anchor,
        .ok (.session r.anchor (((s.popInput.endSession r.anchor).session r.anchor).getD .dormant)))
      else refuse s.popInput .wrongState := (withBody_of_some rfl).trans (State.inRoom_of_roomAt at_ _)
  refine ⟨fun outside => ?_, fun inside right => ?_⟩
  · exact congrArg Host.Outcome.next (State.request_of_refuse take phase (read.trans (if_neg outside)))
  · have handled := read.trans (if_pos inside)
    rw [at_.anchor] at handled
    obtain ⟨v, hv⟩ : ∃ v, v = s.popInput := ⟨_, rfl⟩
    rw [← hv] at handled
    have before : v.room a = some r := by rw [hv]; exact at_.room
    have rightv : ∀ e ∈ r.queue, v.seatAnchor e.seat = some a := by rw [hv]; exact right
    obtain ⟨room, slot, off⟩ := State.endSession_parts rightv before
    have works := State.Works.endSession (s := v) a
    have others := fun h hb => State.endSession_room_other (b := hb) rightv h before
    obtain ⟨answer, ha⟩ : ∃ answer : Answer, answer = .ok (.session a (((v.endSession a).session a).getD .dormant)) := ⟨_, rfl⟩
    rw [← ha] at handled
    have runs : exec (.sessionEnd tag [kb]) s = .next ((v.endSession a).reply ⟨0x0F, tag, answer⟩) :=
      congrArg Host.Outcome.next (State.request_of_handled take phase (hv ▸ handled))
    clear ha handled
    generalize v.endSession a = t at runs room slot off works others
    subst hv
    refine ⟨_, _, runs, room, ?_, ?_, ?_, ?_, ?_, ?_, ?_, off, slot, works.hall, fun counters b hb => ?_⟩
    case refine_2.refine_8 => exact others ⟨counters.off, counters.none, counters.open_⟩ b hb
    all_goals split <;> rfl

end

section
/-! SUPPORT. What wakes an ARMED room, and the press that is then handled; presses out of session (O27). -/

namespace Sys2Proof.Machine

namespace State

section
variable {s t u : State} {n m a b c i k : Nat} {r : Room} {cause : SessionCause} {w : Waker} {key : Key}

/-! ## A press in session keeps sessions, channels and owners -/

namespace Sits

theorem withdraw (n : Nat) (c : MicCause) : s.Sits (s.withdraw n c) :=
  (((unqueue n).trans (setSeat n _)).trans (noteMic n _ c)).trans (reseat n)

theorem joinQueue (n : Nat) (c : MicCause) : s.Sits (s.joinQueue n c) :=
  have counted : ∀ v : State, v.Sits v.countStamp := fun _ => of_same rfl rfl rfl
  ((((((modSeatRoom n _ fun _ => by rfl).trans (setSeat n _)).trans (counted _)).trans (noteMic n _ c)).trans (reseat n)).trans
    (raise _)).trans settleCounts

theorem ask (n a : Nat) (r : Room) : s.Sits (s.ask n a r) := by
  unfold State.ask
  split
  · exact refusePress n _
  · exact (joinQueue n _).trans (promote a)

theorem pressIdleDelegate (n a : Nat) (r : Room) : s.Sits (s.pressIdleDelegate n a r) := by
  rw [pressIdleDelegate_eq]
  split
  · exact refusePress n _
  · split
    · split
      · exact enterOpening n _ none
      · split
        · exact ask n a r
        · exact refusePress n _
    · exact ask n a r

theorem closeByPress (n a : Nat) : s.Sits ((s.enterClosing n .press).promote a) := (enterClosing n _).trans (promote a)

theorem pressDelegate (n a : Nat) (r : Room) : s.Sits (s.pressDelegate n a r) := by
  unfold State.pressDelegate
  split
  · exact pressIdleDelegate n a r
  · split
    · exact withdraw n _
    · exact refl s
  · split
    · exact closeByPress n a
    · exact refl s
  · split
    · exact closeByPress n a
    · exact refl s
  · exact refl s

theorem pressChair (n a : Nat) : s.Sits (s.pressChair n a) := by
  unfold State.pressChair
  split
  · exact openChair n _
  · exact closeByPress n a
  · exact closeByPress n a
  · exact refl s

theorem handlePress (n : Nat) : s.Sits (s.handlePress n) := by
  unfold State.handlePress
  split
  · exact setSeat n _
  · split
    · exact refl s
    · split
      · exact refl s
      · split
        · split
          · exact pressDelegate n _ _
          · exact pressChair n _
        · exact refl s

theorem check (i a : Nat) : s.Sits (s.check i a) := of_same (check_hall ..) check_dist (by rw [check_booth])

end Sits

/-- From `s` to `t` rooms keep all but their lists and their pointer, and channels stay: a press of ON-AIR does no more. -/
def Lasts (s t : State) : Prop := (∀ b, (t.room b).map Room.sitting = (s.room b).map Room.sitting) ∧ t.dist = s.dist

namespace Lasts

theorem trans (h : s.Lasts t) (k : t.Lasts u) : s.Lasts u := ⟨fun b => (k.1 b).trans (h.1 b), k.2.trans h.2⟩

theorem of_sits (h : s.Sits t) : s.Lasts t := ⟨h.rooms, h.dist⟩

theorem of_booths (h : s.OnBooths t) : s.Lasts t := ⟨fun b => by rw [h.shown.room], h.dist⟩

theorem consoleWork (c : Nat) : s.Lasts (s.consoleWork c) := by
  unfold State.consoleWork
  split
  · exact of_sits (.reconsole c)
  · exact of_sits (.boothWork _)

theorem pressReady (c : Nat) : s.Lasts (s.pressReady c) := by
  unfold State.pressReady
  split
  · exact of_booths (.noteConsole c _ _ _)
  · dsimp only
    split
    · exact of_booths (.noteConsole c _ _ _)
    · split
      · exact of_booths (.noteConsole c _ _ _)
      · split
        · exact of_booths (.takeChannel c _)
        · split
          · exact of_booths (.noteConsole c _ _ _)
          · exact (of_booths ((OnBooths.release _ _ _).trans (.takeChannel c _))).trans (of_sits ((Sits.raise _).trans .settleCounts))

theorem handleOnAir (c : Nat) : s.Lasts (s.handleOnAir c) := by
  unfold State.handleOnAir
  split
  · exact (pressReady c).trans (consoleWork c)
  · exact (of_booths (.release c _ _)).trans (consoleWork c)
  · exact (of_booths (.release c _ _)).trans (consoleWork c)
  · exact of_sits (.refl s)

end Lasts

/-! ## The entry into a session keeps what counters and channels need -/

/-- An entry into a session leaves the owners of channels. -/
theorem enterSession_free (hr : s.room a = some r) {x : Option Waker} (free : s.ownerOf key = none) :
    (s.enterSession a cause x).ownerOf key = none := by
  have made := entered_onDist (c := cause) (w := x) hr
  have consoles : (s.seated a r cause x).booth.consoles = s.booth.consoles := by
    have formed : (s.entered a r cause x).Sheds (s.seated a r cause x) := .reformAll _
    rw [formed.booth, made.booth]
    rfl
  obtain ⟨-, -, taken⟩ := Sits.takeUp_parts (s := s.seated a r cause x) (r := sessionRoom r) ((seated_room hr).trans (if_pos rfl))
  exact (Sits.after_takeUp hr).free key (taken key ((ownerOf_of_consoles consoles key).trans free))

theorem enterSession_console (hr : s.room a = some r) {x : Option Waker} : s.OnlyShows (s.enterSession a cause x) := by
  have made := entered_onDist (c := cause) (w := x) hr
  have consoles : (s.seated a r cause x).booth.consoles = s.booth.consoles := by
    have formed : (s.entered a r cause x).Sheds (s.seated a r cause x) := .reformAll _
    rw [formed.booth, made.booth]
    rfl
  obtain ⟨-, taken, -⟩ := Sits.takeUp_parts (s := s.seated a r cause x) (r := sessionRoom r) ((seated_room hr).trans (if_pos rfl))
  exact ((OnlyShows.of_consoles consoles).trans taken).trans (Sits.after_takeUp hr).consoles

/-! ## A room that is woken (R30, R32) -/

theorem wake_of_armed {holds : Wake → Bool} {x : Option Waker} (hr : s.room a = some r) (armed : r.session = .armed)
    (h : holds r.wake = true) : s.wake a holds cause x = s.enterSession a cause x := by
  unfold wake
  rw [hr]
  dsimp only
  rw [if_pos (by simp [armed, h])]

theorem micPress_of_woken (ha : s.seatAnchor n = some a) (hr : s.room a = some r) (armed : r.session = .armed)
    (h : (s.seat n).cls = .delegate ∧ r.wake.delegatePress = true ∧ cause = .delegatePress ∨
      (s.seat n).cls = .chair ∧ r.wake.chairPress = true ∧ cause = .chairPress) :
    s.micPress n = (s.enterSession a cause (some (.seat n))).handlePress n := by
  unfold micPress
  rw [ha]
  dsimp only
  rcases h with ⟨cls, holds, rfl⟩ | ⟨cls, holds, rfl⟩
  · rw [cls]
    dsimp only
    rw [wake_of_armed hr armed holds]
  · rw [cls]
    dsimp only
    rw [wake_of_armed hr armed holds]

/-- The notice of the entry comes first, and the rest of its work only adds to it. -/
theorem enterSession_notice (hr : s.room a = some r) {x : Option Waker} :
    ∃ ns : List Notice, (s.enterSession a cause x).link =
      (Notice.sessionState a r.session .inSession cause x none :: ns).foldl LinkUnit.raise s.link := by
  obtain ⟨v, hv⟩ : ∃ v, v = (s.modRoom a sessionRoom).note (.sessionState a r.session .inSession cause x none) := ⟨_, rfl⟩
  have seated : s.seated a r cause x = ((v.makeChannels (r.profile.languages.map (fun c => ⟨a, c⟩))).queueMaps r.segments).reformAll
      (((v.makeChannels (r.profile.languages.map (fun c => ⟨a, c⟩))).queueMaps r.segments).presentIn r.segments) := by
    rw [hv]
    rfl
  have kept : Kept v (s.enterSession a cause x) := by
    rw [enterSession_of_room hr, seated, takeUp]
    refine Kept.promote (Kept.boothWork ?_ _) _
    have formed := Kept.reformAll (Kept.queueMaps (Kept.makeChannels (Kept.refl v) (r.profile.languages.map (fun c => ⟨a, c⟩)))
      r.segments) (((v.makeChannels (r.profile.languages.map (fun c => ⟨a, c⟩))).queueMaps r.segments).presentIn r.segments)
    split
    · exact formed
    · exact formed.activate _ _
  obtain ⟨ns, link⟩ := kept.link
  refine ⟨ns, link.trans ?_⟩
  rw [hv, modRoom_of_room hr]
  rfl

theorem enterSession_woken (hr : s.room a = some r) (armed : r.session = .armed) :
    s.Woken (s.enterSession a cause (some w)) a r cause w where
  room := by
    obtain ⟨x, hx, sits⟩ := enterSession_room hr cause (some w)
    have parts := fun {β : Type} (f : Room → β) => congrArg f sits
    exact ⟨x, hx, parts Room.session, parts Room.wake, parts Room.timer, parts Room.profile, parts Room.segments⟩
  channels l hl := (hasChannel_of_dist (enterSession_dist hr) ⟨a, l⟩).trans (entered_hasChannel hl)
  notice := armed ▸ enterSession_notice hr

/-- What follows the entry keeps the room awake. -/
theorem Woken.later (h : s.Woken t a r cause w) (lasts : t.Lasts u) (kept : Kept t u) : s.Woken u a r cause w where
  room := by
    obtain ⟨x, hx, session, wake, timer, profile, segments⟩ := h.room
    have rooms := lasts.1 a
    rw [hx, Option.map_some] at rooms
    obtain ⟨y, hy, sits⟩ := Option.map_eq_some_iff.1 rooms
    have parts := fun {β : Type} (f : Room → β) => congrArg f sits
    exact ⟨y, hy, (parts Room.session :).trans session, (parts Room.wake :).trans wake, (parts Room.timer :).trans timer,
      (parts Room.profile :).trans profile, (parts Room.segments :).trans segments⟩
  channels l hl := (hasChannel_of_dist lasts.2 _).trans (h.channels l hl)
  notice := by
    obtain ⟨ns, link⟩ := h.notice
    obtain ⟨ms, more⟩ := kept.link
    exact ⟨ns ++ ms, by rw [more, link, ← List.cons_append, List.foldl_append]⟩

/-! ## The press that is handled in the woken room -/

theorem reform_freeSlot (i : Nat) : (s.reform n).freeSlot i = s.freeSlot i := by
  unfold State.reform
  split
  · rfl
  · next present =>
    rw [freeSlot_of_seats (s := s.setSeat n { s.seat n with indication := s.indicationOf n })
      (congrArg FloorUnit.seats reseat_floor)]
    have there : (s.seat n).mic ≠ .absent ∧ (s.seat n).indication ≠ s.indicationOf n := by simpa using present
    exact freeSlot_setSeat (x := { s.seat n with indication := s.indicationOf n }) rfl (ne_initial_of_mic there.1) i

theorem reformAll_freeSlot (ns : List Nat) (i : Nat) : (s.reformAll ns).freeSlot i = s.freeSlot i := by
  unfold State.reformAll
  induction ns generalizing s with
  | nil => rfl
  | cons n ns ih => exact ih.trans (reform_freeSlot i)

/-- Where nobody waits and no chair holds PRIORITY an entry into a session leaves the free slots. -/
theorem enterSession_freeSlot (off : s.CountersOff) (hr : s.room a = some r) (nobody : r.queue = [])
    (none : s.chairsHolding r.segments = []) {x : Option Waker} (i : Nat) : (s.enterSession a cause x).freeSlot i = s.freeSlot i := by
  obtain ⟨shown, installs⟩ := seated_of_room (c := cause) (w := x) hr
  have made := entered_onDist (c := cause) (w := x) hr
  have offSeated := shown.countersOff ⟨off.off, off.none, off.open_⟩
  have worked := OnBooths.boothWork offSeated a
  have room : ((s.seated a r cause x).boothWork a).room a = some (sessionRoom r) := by
    rw [worked.shown.room, shown.room, setRoom_room, if_pos rfl]
  rw [enterSession_of_room hr, takeUp, if_pos (installs.chairsHolding none), promote_of_no_queue room nobody,
    freeSlot_of_seats (congrArg FloorUnit.seats worked.seats)]
  exact (reformAll_freeSlot _ i).trans (freeSlot_of_seats (congrArg FloorUnit.seats made.floor) i)

/-- The same entry leaves a seat that could have opened in a room in session able to open. -/
theorem enterSession_openTest (off : s.CountersOff) (ha : s.seatAnchor n = some a) (hr : s.room a = some r) (nobody : r.queue = [])
    (none : s.chairsHolding r.segments = []) {x : Option Waker}
    (place : (s.seat n).cls = .delegate ∧ r.closing = false ∧ s.delegateCount r < r.profile.openLimit ∨
      (s.seat n).cls = .chair ∧ s.chairCount r < r.profile.chairLimit)
    (slot : s.freeSlot (seatBus n) = some k) (opening : s.floor.openingCount ≠ 4294967295) :
    (s.enterSession a cause x).openTest n = Option.none := by
  have shown := Shown.enterSession (c := cause) (w := x) off hr nobody none
  have free := enterSession_freeSlot (cause := cause) (x := x) off hr nobody none (seatBus n)
  generalize s.enterSession a cause x = v at shown free
  have room : v.room a = some (sessionRoom r) := by rw [shown.room, setRoom_room, if_pos rfl]
  have anchor : v.seatAnchor n = some a := (shown.seatAnchor n).trans ha
  have cls : ∀ m, (v.seat m).cls = (s.seat m).cls := fun m => by rw [shown.seats]; rfl
  have mic : ∀ m, (v.seat m).mic = (s.seat m).mic := shown.mic
  refine (openTest_eq_none_iff (seatRoom_of_room anchor room)).2 ⟨rfl, ⟨fun delegate => ?_, fun chair => ?_⟩, ?_, ?_⟩
  · rw [cls] at delegate
    rcases place with ⟨-, closing, count⟩ | ⟨chair, -⟩
    · refine ⟨closing, lt_of_eq_of_lt ?_ count⟩
      unfold delegateCount
      simp only [cls, mic]
      rfl
    · rw [chair] at delegate
      cases delegate
  · rw [cls] at chair
    rcases place with ⟨delegate, -⟩ | ⟨-, count⟩
    · rw [delegate] at chair
      cases chair
    · refine lt_of_eq_of_lt ?_ count
      unfold chairCount
      simp only [cls, mic]
      rfl
  · rw [free, slot]
    exact Option.some_ne_none k
  · rw [shown.floor]
    exact opening

/-! ## Answers that bring nothing (R33, R68) -/

theorem heard_chairsHolding (segments : List Nat) (x : Exchange) (d : UnitClass) :
    (s.heard i x d).chairsHolding segments = s.chairsHolding segments := by
  have held : ∀ j b, ((s.heard i x d).unit j b).held = (s.unit j b).held := fun j b => by
    rw [heardAs_unit]
    split
    · next h =>
      obtain ⟨rfl, rfl⟩ := h
      rfl
    · rfl
  unfold chairsHolding
  simp only [held]
  rfl

theorem AwaitsSeat.seatBus_eq {bus : BusId} {x : Exchange} (h : s.AwaitsSeat bus i n a x r) : seatBus n = i := by
  have small := h.small
  have number := h.number
  unfold seatBus
  omega

theorem AwaitsSeat.seatAddress_eq {bus : BusId} {x : Exchange} (h : s.AwaitsSeat bus i n a x r) : seatAddress n = x.address := by
  have small := h.small
  have number := h.number
  unfold seatAddress
  omega

/-- A held state that no work takes up is recorded, and that is all. -/
theorem AwaitsSeat.exec_unheeded {bus : BusId} {x : Exchange} (h : s.AwaitsSeat bus i n a x r) (poll : x.command = .poll)
    (d : UnitClass) {held : Bool} (unheeded : ∀ v : State, v.hall = s.hall → v.floor = s.floor →
      (s.unit i x.address).held ≠ held → v.heldChanged i x.address held = v) :
    ∃ t, exec (.unitReplyStatus bus 0 held d) s = .next t ∧
      s.Heard t i x { s.unit i x.address with misses := 0, reported := some d, held := held } ∧
      t = { s with buses := t.buses } := by
  by_cases change : (s.unit i x.address).held = held
  · have nothing : (s.heard i x d).recordHeld i x.address held = s.heard i x d :=
      recordHeld_of_same ((heard_held i).trans change)
    have exec : exec (.unitReplyStatus bus 0 held d) s = .next ((s.heard i x d).check i x.address) := by
      rw [h.exec_status, show (0 : BitVec 2).toNat = 0 from rfl, h.answered_poll h.present poll]
      exact congrArg (fun z => Host.Outcome.next (State.check z i x.address)) nothing
    refine ⟨_, exec, ?_, check_of_link⟩
    rw [← change]
    exact (Works.refl _).heard
  · have exec := h.exec_held (held := held) poll d change
    have same := unheeded ((s.heard i x d).setUnit i x.address { s.unit i x.address with
      misses := 0, reported := some d, held := held }) rfl rfl change
    rw [same] at exec
    refine ⟨_, exec, heard_heardAs.setUnit.queues (Works.check i x.address).queues, ?_⟩
    conv_lhs => rw [check_eq]
    rfl

/-- A chair in the table of seats that holds PRIORITY is listed. -/
theorem chairsHolding_ne_nil {segments : List Nat} (installed : (s.seat n).installed = true) (cls : (s.seat n).cls = .chair)
    (inside : (s.seat n).segment ∈ segments) (held : (s.unit (seatBus n) (seatAddress n)).held = true) :
    s.chairsHolding segments ≠ [] := fun none =>
  chairsHolding_eq_nil.1 none (n, s.seat n) (Kept.mem_of_tget (fun e => by rw [e] at installed; cases installed) rfl)
    ⟨installed, cls, inside, held⟩

/-- An entry into a session takes PRIORITY up where a chair of the room holds it. -/
theorem enterSession_priority (hr : s.room a = some r) {x : Option Waker} (installed : (s.seat n).installed = true)
    (cls : (s.seat n).cls = .chair) (inside : (s.seat n).segment ∈ r.segments)
    (held : (s.unit (seatBus n) (seatAddress n)).held = true) :
    ∃ y, (s.enterSession a cause x).room a = some y ∧ y.priority = true := by
  obtain ⟨y, hy, sits⟩ := enterSession_room hr cause x
  have seated : s.Works (s.seated a r cause x) := by
    unfold seated entered
    exact ((((Works.modRoom a sessionRoom fun _ => by rfl).trans (.note _)).trans (.makeChannels _)).trans (.queueMaps _)).trans
      (.reformAll _)
  have fixed := fun {β : Type} (f : Seat → β) => congrArg f (seated.seats n)
  have holding : (s.seated a r cause x).chairsHolding r.segments ≠ [] :=
    chairsHolding_ne_nil ((fixed Seat.installed :).trans installed) ((fixed Seat.cls :).trans cls)
      ((seated.seat_segment n).symm ▸ inside) (by rw [seated.unit, held])
  refine ⟨y, hy, (congrArg Room.priority sits :).trans ?_⟩
  rw [decide_eq_true holding, Bool.or_true]

end

end State

end Sys2Proof.Machine

open Sys2Proof.Machine

/-- Settles O27. -/
theorem pressesOutOfSession : Obligations.PressesOutOfSession := by
  unfold Obligations.PressesOutOfSession
  refine ⟨fun s bus i n a k x c r cause awaits poll armed wakes => ?_, fun s bus i n a x c r awaits poll armed cls holds low _ inside => ?_,
    fun s x cls a c r key awaits poll armed holds hc hkey => ?_, fun s bus i n a x c r awaits poll out delegate chair => ⟨?_, ?_⟩,
    fun s bus i n a x c r held awaits poll cls => ?_⟩
  · have anchor : (s.heard i x c).seatAnchor n = some a := awaits.seat.map
    have room : (s.heard i x c).room a = some r := awaits.seat.room
    have exec := awaits.exec_press poll c
    rw [State.micPress_of_woken anchor room armed wakes] at exec
    obtain ⟨e, he⟩ : ∃ e, e = (s.heard i x c).enterSession a cause (some (.seat n)) := ⟨_, rfl⟩
    rw [← he] at exec
    have works : (s.heard i x c).Works (e.handlePress n) := he ▸ (State.Works.enterSession a cause _).trans (.handlePress n)
    have woken : (s.heard i x c).Woken e a r cause (.seat n) := he ▸ State.enterSession_woken room armed
    have later : (s.heard i x c).Woken ((e.handlePress n).check i x.address) a r cause (.seat n) := woken.later
      (.of_sits ((State.Sits.handlePress n).trans (.check i x.address))) (((Kept.refl e).handlePress n).check i x.address)
    refine ⟨_, exec, works.heard, ⟨later.room, later.channels, later.notice⟩, fun idle nobody none place slot opening => ?_⟩
    have off : (s.heard i x c).CountersOff := awaits.counters.heardAs
    have quiet : (s.heard i x c).chairsHolding r.segments = [] := (State.heard_chairsHolding ..).trans none
    have test : e.openTest n = .none := he ▸ State.enterSession_openTest off anchor room nobody quiet
      (place.imp (fun ⟨cls, _, _, closing, count⟩ => ⟨cls, closing, count⟩) id) slot opening
    have free : e.freeSlot (seatBus n) = some k := he ▸ (State.enterSession_freeSlot off room nobody quiet _).trans slot
    have shown := he ▸ State.Shown.enterSession (c := cause) (w := some (.seat n)) off room nobody quiet
    have seat : ∀ m, e.seat m = { s.seat m with indication := (e.seat m).indication } := shown.seats
    have here : e.room a = some (State.sessionRoom r) := by rw [shown.room, State.setRoom_room, if_pos rfl]
    have there : e.seatAnchor n = some a := (shown.seatAnchor n).trans anchor
    have blocked : e.blocked n = s.blocked n := by
      unfold State.blocked State.memberOf State.group
      rw [shown.floor]
      rfl
    have opens := State.handlePress_of_opens there here rfl ((shown.mic n).trans idle) test fun cls => by
      rw [seat] at cls
      rcases place with ⟨_, unblocked, mode, _⟩ | ⟨chair, _⟩
      · exact ⟨blocked.trans unblocked, mode⟩
      · exact SeatClass.noConfusion (cls.symm.trans chair)
    obtain ⟨seats, rooms, -⟩ := State.enterOpening_eq (c := .press) (g := .none) there here rfl
    rw [opens]
    refine ⟨?_, _, State.check_room.trans ((rooms a).trans (if_pos rfl)), rfl⟩
    rw [State.check_seat, seats, if_pos rfl, State.openedSeat, free, shown.mic n, seat, shown.floor, if_neg]
    · rfl
    · exact fun queued => Mic.noConfusion (idle.symm.trans queued)
  · obtain ⟨v, hv⟩ : ∃ v, v = (s.heard i x c).setUnit i x.address
      { s.unit i x.address with misses := 0, reported := some c, held := true } := ⟨_, rfl⟩
    have exec := awaits.exec_held (held := true) poll c (by rw [low]; decide)
    rw [← hv] at exec
    have same : v.floor = s.floor ∧ v.hall = s.hall ∧ v.link = s.link := by
      rw [hv]
      exact ⟨rfl, rfl, rfl⟩
    obtain ⟨floor, hall, link⟩ := same
    have room : v.room a = some r := by
      unfold State.room
      rw [hall]
      exact awaits.seat.room
    have seat : v.seat n = s.seat n := by
      unfold State.seat
      rw [floor]
    have anchor : v.seatAnchor n = some a := by
      unfold State.seatAnchor State.anchorOf
      rw [seat, hall]
      exact awaits.seat.map
    have hears : s.Heard v i x { s.unit i x.address with misses := 0, reported := some c, held := true } :=
      hv ▸ State.heard_heardAs.setUnit
    have entered : v.heldChanged i x.address true = v.enterSession a .chairPress (some (.seat n)) := by
      have session : v.session a = some .armed := by
        unfold State.session
        rw [room, Option.map_some, armed]
      unfold State.heldChanged
      rw [if_pos awaits.small.1, awaits.seatAt_eq, seat, cls]
      show v.chairHeld n true = _
      unfold State.chairHeld
      rw [anchor]
      dsimp only
      rw [if_pos rfl, session]
      exact State.wake_of_armed room armed holds
    rw [entered] at exec
    have works : v.Works (v.enterSession a .chairPress (some (.seat n))) := .enterSession ..
    have woken := (State.enterSession_woken (cause := .chairPress) (w := .seat n) room armed).later
      (.of_sits (.check i x.address)) ((Kept.refl _).check i x.address)
    refine ⟨_, exec, (hears.queues works.queues).queues (State.Works.check i x.address).queues,
      ⟨woken.room, woken.channels, link ▸ woken.notice⟩, ?_⟩
    obtain ⟨y, hy, priority⟩ := State.enterSession_priority (n := n) (cause := .chairPress) (x := some (.seat n)) room
      (by rw [seat]; exact awaits.seat.installed) (by rw [seat]; exact cls) (by rw [seat]; exact inside) (by
        rw [awaits.seatBus_eq, awaits.seatAddress_eq, hears.record])
    exact ⟨y, State.check_room.trans hy, priority⟩
  · subst hc
    have map : (s.heard 4 x cls).boothAnchor (consoleBooth x.address) = some a := awaits.map
    have room : (s.heard 4 x cls).room a = some r := awaits.room
    have exec := awaits.exec_press poll cls
    obtain ⟨e, he⟩ : ∃ e, e = (s.heard 4 x cls).enterSession a .consolePress (some (.console x.address)) := ⟨_, rfl⟩
    have pressed : (s.heard 4 x cls).onAirPress x.address = e.handleOnAir x.address := by
      unfold State.onAirPress
      rw [map, he]
      dsimp only
      rw [State.wake_of_armed room armed holds]
    rw [pressed] at exec
    have works : (s.heard 4 x cls).Works e := he ▸ .enterSession a _ _
    have woken : (s.heard 4 x cls).Woken e a r .consolePress (.console x.address) := he ▸ State.enterSession_woken room armed
    have later : (s.heard 4 x cls).Woken ((e.handleOnAir x.address).check 4 x.address) a r .consolePress (.console x.address) :=
      woken.later ((State.Lasts.handleOnAir x.address).trans (.of_sits (.check 4 x.address)))
        (((Kept.refl e).handleOnAir x.address).check 4 x.address)
    refine ⟨_, exec, (works.trans (.handleOnAir x.address)).heard, ⟨later.room, later.channels, later.notice⟩, fun ready held free => ?_⟩
    have shows : (s.heard 4 x cls).OnlyShows e := he ▸ State.enterSession_console room
    obtain ⟨y, hy, sits⟩ := State.enterSession_room room .consolePress (some (.console x.address))
    rw [← he] at hy
    have parts := fun {β : Type} (f : Room → β) => congrArg f sits
    have profile : y.profile = r.profile := parts Room.profile
    have numbered : y.anchor = a := (parts Room.anchor :).trans awaits.anchor
    have language : (e.boothAt (consoleBooth x.address)).language = (s.boothAt (consoleBooth x.address)).language := by
      rw [works.booths]
      rfl
    have unowned : e.ownerOf key = .none := he ▸ State.enterSession_free room free
    subst hkey
    have taken : (e.handleOnAir x.address) = (e.takeChannel x.address ⟨a, (s.boothAt (consoleBooth x.address)).language⟩).consoleWork
        x.address := by
      rw [State.handleOnAir_of_ready ((shows.state _).trans ready), State.pressReady_of_free
        (State.boothRoom_of_room ((works.boothAnchor _).trans map) hy) (parts Room.session) (by rw [language, profile]; exact held)
        (by rw [language, numbered]; exact unowned), language, numbered]
    obtain ⟨state, owned, only⟩ := State.taken_console taken
    refine ⟨by rw [State.check_console, state], by rw [State.check_console, owned], fun d hd => ?_, fun b => ?_⟩
    · rw [State.check_console, only.1 d hd, shows d]
      rfl
    · unfold State.boothAt
      rw [State.check_booth]
      have both : (e.handleOnAir x.address).boothAt b = { s.boothAt b with listen := ((e.handleOnAir x.address).boothAt b).listen } := by
        rw [only.2 b, works.booths b]
        rfl
      exact both
  · have anchor : (s.heard i x c).seatAnchor n = some a := awaits.seat.map
    have room : (s.heard i x c).room a = some r := awaits.seat.room
    have exec := awaits.exec_press poll c
    have pressed : (s.heard i x c).micPress n = (s.heard i x c).handlePress n := by
      refine State.micPress_of_not_woken anchor room ?_
      by_cases armed : r.session = .armed
      · exact .inr ⟨fun cls => delegate cls armed, fun cls => chair cls armed⟩
      · exact .inl armed
    refine ⟨_, exec, (State.Works.micPress n).heard, fun closing holdOff => ?_, fun pending => ⟨?_, fun m hm => ?_, ?_⟩⟩
    · rw [pressed, State.handlePress_of_out (s := s.heard i x c) anchor room ⟨closing, holdOff⟩ out]
      exact State.check_of_link
    · rw [pressed, State.handlePress_of_pending (s := s.heard i x c) pending, State.check_seat, State.togglePending,
        State.setSeat_seat_same]
      rfl
    · rw [pressed, State.handlePress_of_pending (s := s.heard i x c) pending, State.check_seat, State.togglePending,
        State.setSeat_seat, if_neg hm]
      rfl
    · rw [pressed, State.handlePress_of_pending (s := s.heard i x c) pending]
      exact (State.OnFloor.setSeat n _).checked_of_hall rfl rfl rfl rfl rfl
  · intro cls low
    refine awaits.exec_unheeded poll c fun v hall floor _ => ?_
    have seat : v.seat n = s.seat n := by
      unfold State.seat
      rw [floor]
    have anchor : v.seatAnchor n = some a := by
      unfold State.seatAnchor State.anchorOf
      rw [seat, hall]
      exact awaits.seat.map
    have room : v.room a = some r := by
      unfold State.room
      rw [hall]
      exact awaits.seat.room
    have session : v.session a = some r.session := by
      unfold State.session
      rw [room, Option.map_some]
    unfold State.heldChanged
    rw [if_pos awaits.small.1, awaits.seatAt_eq, seat, cls]
    show v.chairHeld n true = v
    unfold State.chairHeld
    rw [anchor]
    dsimp only
    rw [if_pos rfl, session]
    cases now : r.session with
    | inSession => exact absurd now out
    | armed => exact State.wake_of_not_held room (chair cls now)
    | dormant => rfl
    | ending => rfl
  · refine awaits.exec_unheeded poll c fun v _ floor _ => ?_
    have seat : v.seat n = s.seat n := by
      unfold State.seat
      rw [floor]
    unfold State.heldChanged
    rw [if_pos awaits.small.1, awaits.seatAt_eq, seat, cls]

end

section
/-! SUPPORT. An occurrence that is raised once in the work of a command: the counters that have taken it when the command is done. -/

namespace Sys2Proof.Machine

namespace State

section
variable {s t u : State} {n m a b c d i g k : Nat} {r : Room} {o : Occurrence}

/-! ## Work that raises nothing -/

/-- From `s` to `t` no counter has changed and no occurrence waits that did not wait, and what decides scopes is as it was. -/
structure Uncounted (s t : State) : Prop where
  counters : ∀ c, t.counter c = s.counter c
  raised : t.counts.raised = s.counts.raised
  deferring : t.counts.deferring = s.counts.deferring
  map : t.hall.segmentMap = s.hall.segmentMap
  groups : t.floor.groups = s.floor.groups

namespace Uncounted

theorem refl (s : State) : s.Uncounted s := ⟨fun _ => rfl, rfl, rfl, rfl, rfl⟩

theorem trans (h : s.Uncounted t) (k : t.Uncounted u) : s.Uncounted u where
  counters c := (k.counters c).trans (h.counters c)
  raised := k.raised.trans h.raised
  deferring := k.deferring.trans h.deferring
  map := k.map.trans h.map
  groups := k.groups.trans h.groups

theorem fold {α : Type} {f : State → α → State} {xs : List α} (hf : ∀ v : State, ∀ x ∈ xs, v.Uncounted (f v x)) (s : State) :
    s.Uncounted (xs.foldl f s) := by
  induction xs generalizing s with
  | nil => exact refl s
  | cons x xs ih => exact (hf s x List.mem_cons_self).trans (ih (fun v y hy => hf v y (List.mem_cons_of_mem x hy)) _)

theorem of_counts (hc : t.counts = s.counts) (hm : t.hall.segmentMap = s.hall.segmentMap) (hg : t.floor.groups = s.floor.groups) :
    s.Uncounted t where
  counters c := by
    unfold State.counter
    rw [hc]
  raised := by rw [hc]
  deferring := by rw [hc]
  map := hm
  groups := hg

theorem of_floor (h : s.OnFloor t) : s.Uncounted t := of_counts h.counts (by rw [h.hall]) h.groups

theorem of_shown (h : s.Shown t) : s.Uncounted t := of_counts h.counts (by rw [h.hall]) (by rw [h.floor])

theorem inScope (h : s.Uncounted t) (p : Scope) : t.InScope o p ↔ s.InScope o p := by
  unfold InScope anchorOf group
  rw [h.map, h.groups]

theorem ready (h : s.Uncounted t) (ready : s.CountersReady) : t.CountersReady where
  none := h.raised.trans ready.none
  open_ := h.deferring.trans ready.open_
  below c hc := by rw [h.counters c]; exact ready.below c hc

theorem promoteAfterSlot (n : Nat) : s.Uncounted (s.promoteAfterSlot n) := by
  refine trans ?_ (fold (fun _ a _ => of_floor (.promote a)) _)
  unfold promoteSeat
  split
  · exact refl s
  · exact of_floor (.promote _)

theorem promoteSeat (n : Nat) : s.Uncounted (s.promoteSeat n) := by
  unfold State.promoteSeat
  split
  · exact refl s
  · exact of_floor (.promote _)

theorem priorityReleased (a : Nat) : s.Uncounted (s.priorityReleased a) := by
  unfold State.priorityReleased
  split
  · exact refl s
  · split
    · exact of_floor ((OnFloor.endPriority a).trans (.promote a))
    · exact refl s

/-- A held state that ends raises nothing. -/
theorem recordHeld_false (i b : Nat) : s.Uncounted (s.recordHeld i b false) := by
  unfold recordHeld
  split
  · exact refl s
  · have written : s.Uncounted (s.setUnit i b { s.unit i b with held := false }) := of_counts rfl rfl rfl
    refine written.trans ?_
    unfold heldChanged
    split
    · split
      · unfold chairHeld
        split
        · exact refl _
        · exact priorityReleased _
      · exact refl _
    · unfold coughHeld
      dsimp only
      split
      · exact of_counts rfl rfl rfl
      · exact of_counts rfl rfl rfl

/-- A booth that relays nothing raises nothing. -/
theorem relisten (floor : (s.boothAt b).source = .floor) : s.Uncounted (s.relisten b) := by
  unfold State.relisten
  dsimp only
  rw [floor]
  split
  · exact refl s
  · exact of_counts rfl rfl rfl

theorem reconsole (c : Nat) : s.Uncounted (s.reconsole c) := of_shown (.reconsole c)

end Uncounted

/-- What the counters have taken stays taken in work that raises nothing, before and after. -/
theorem Counted.between (h : t.Counted u o) (before : s.Uncounted t) {v : State} (after : u.Uncounted v) : s.Counted v o := by
  intro c x takes hx iff
  have scope : v.InScope o x.scope ↔ u.InScope o x.scope := after.inScope _
  have here := h c x takes (hx.trans (before.counters c).symm) (by rw [iff, scope])
  rw [after.counters c]
  exact here

/-- An occurrence that is raised between work that raises nothing is what the counters have taken at its end. -/
theorem CountersReady.counted_between (ready : s.CountersReady) (before : s.Uncounted u)
    (after : (u.raise o).settleCounts.Uncounted t) : s.Counted t o := (before.ready ready).counted.1.between before after

/-! ## Occurrences of seats and of booths -/

/-- The same for an occurrence of a seat. -/
theorem CountersReady.counted_seat (ready : s.CountersReady) {e : CountEvent} (before : s.Uncounted u)
    (segment : (u.seat n).segment = (s.seat n).segment) (after : (u.raiseSeat e n).settleCounts.Uncounted t) :
    s.Counted t ⟨e, (s.seat n).segment, some (seatBus n), some n⟩ :=
  ready.counted_between before (by rwa [raiseSeat, segment] at after)

/-- The same for an occurrence of a booth. -/
theorem CountersReady.counted_booth (ready : s.CountersReady) {e : CountEvent} (before : s.Uncounted u)
    (home : (u.boothAt b).home = (s.boothAt b).home) (after : (u.raiseBooth e b).settleCounts.Uncounted t) :
    s.Counted t ⟨e, (s.boothAt b).home, some 4, .none⟩ :=
  ready.counted_between before (by rwa [raiseBooth, home] at after)

/-- A room that is not ENDING does not pass to DORMANT. -/
theorem passSeatRoom_of_not_ending (h : ∀ a r, s.seatAnchor n = some a → s.room a = some r → r.session ≠ .ending) :
    s.passSeatRoom n = s := by
  unfold passSeatRoom
  split
  · rfl
  · next a ha =>
    unfold passIfEmpty
    split
    · rfl
    · next r hr => exact if_neg (by simp [h a r ha hr])

/-! ## Booths that listen anew -/

theorem relisten_source (b d : Nat) : ((s.relisten b).boothAt d).source = (s.boothAt d).source := by
  rw [(Works.relisten b).booths]

/-- Booths that relay nothing raise nothing. -/
theorem Uncounted.relistenAll {bs : List Nat} (floor : ∀ b ∈ bs, (s.boothAt b).source = .floor) : s.Uncounted (bs.foldl State.relisten s) := by
  induction bs generalizing s with
  | nil => exact refl s
  | cons b bs ih =>
    exact (relisten (floor b List.mem_cons_self)).trans (ih fun d hd =>
      (relisten_source b d).trans (floor d (List.mem_cons_of_mem b hd)))

theorem Uncounted.boothWork (floor : ∀ b, (s.boothAt b).source = .floor) (a : Nat) : s.Uncounted (s.boothWork a) :=
  (relistenAll fun b _ => floor b).trans (fold (fun _ c _ => reconsole c) _)

theorem Uncounted.consoleWork (floor : ∀ b, (s.boothAt b).source = .floor) (c : Nat) : s.Uncounted (s.consoleWork c) := by
  unfold State.consoleWork
  split
  · exact reconsole c
  · exact boothWork floor _

theorem relistenAll_booth {bs : List Nat} (away : b ∉ bs) : (bs.foldl relisten s).boothAt b = s.boothAt b := by
  induction bs generalizing s with
  | nil => rfl
  | cons d bs ih =>
    rw [List.foldl_cons, ih fun h => away (List.mem_cons_of_mem d h), relisten_boothAt, if_neg]
    rintro rfl
    exact away List.mem_cons_self

theorem relistenAll_listenOf (bs : List Nat) : (bs.foldl relisten s).listenOf b = s.listenOf b := by
  induction bs generalizing s with
  | nil => rfl
  | cons d bs ih => exact ih.trans (relisten_listenOf d b)

/-- A relay without an owner falls back. -/
theorem listenOf_of_unowned (source : (s.boothAt b).source = .relay k) (hr : s.boothRoom b = some r)
    (unowned : s.ownerOf ⟨r.anchor, k⟩ = none) : s.listenOf b = .fallback := by
  unfold listenOf
  rw [source]
  dsimp only
  rw [hr]
  dsimp only
  split
  · rw [unowned]
  · rfl

/-- The one booth that relays, and falls back, raises the one occurrence as the booths of its room listen anew. -/
theorem CountersReady.counted_fallback (ready : s.CountersReady) {segments : List Nat}
    (canonical : twf Booth.initial s.booth.booths = true) (installed : (s.boothAt b).installed = true)
    (inside : (s.boothAt b).home ∈ segments) (source : (s.boothAt b).source = .relay k) (direct : (s.boothAt b).listen = .direct)
    (falls : s.listenOf b = .fallback) (floor : ∀ d, d ≠ b → (s.boothAt d).source = .floor) :
    s.Counted (s.relistenIn segments) ⟨.relayFallback, (s.boothAt b).home, some 4, .none⟩ := by
  obtain ⟨before, after, split⟩ := List.append_of_mem (mem_boothsIn installed inside)
  have apart : (before ++ b :: after).Pairwise (· < ·) := split ▸ tkeys_pairwise canonical _
  have ahead : b ∉ before := fun h => absurd ((List.pairwise_append.1 apart).2.2 b h b List.mem_cons_self) (lt_irrefl b)
  have behind : b ∉ after := fun h => absurd ((List.pairwise_cons.1 (List.pairwise_append.1 apart).2.1).1 b h) (lt_irrefl b)
  obtain ⟨v, hv⟩ : ∃ v, v = before.foldl relisten s := ⟨_, rfl⟩
  have whole : s.relistenIn segments = after.foldl relisten (v.relisten b) := by
    unfold relistenIn
    rw [split, List.foldl_append, ← hv, List.foldl_cons]
  have quiet : s.Uncounted v := hv ▸ .relistenAll fun d hd => floor d (by rintro rfl; exact ahead hd)
  have works : s.Works v := hv ▸ .fold (fun _ d => .relisten d) _ _
  have booth : v.boothAt b = s.boothAt b := hv ▸ relistenAll_booth ahead
  have listens : v.listenOf b = .fallback := hv ▸ (relistenAll_listenOf _).trans falls
  obtain ⟨w, hw⟩ : ∃ w, w = (v.setBooth b { v.boothAt b with listen := .fallback }).note
      (.relayFallback b (v.boothAnchor b) k .direct .fallback) := ⟨_, rfl⟩
  have fallen : v.relisten b = (w.raiseBooth .relayFallback b).settleCounts := by
    unfold relisten
    dsimp only
    rw [listens, booth, direct, if_neg (by decide), hw, booth]
    simp only [source]
  have written : v.Uncounted w := hw ▸ .of_counts rfl rfl rfl
  have worked : v.Works w := hw ▸ (Works.setListen b _).trans (.note _)
  rw [whole]
  refine ready.counted_booth (quiet.trans written) (by rw [(works.trans worked).booths]) ?_
  rw [← fallen]
  refine .relistenAll fun d hd => ?_
  rw [relisten_source, works.booths d]
  exact floor d (by rintro rfl; exact behind hd)

end

end State

end Sys2Proof.Machine
end

section
/-! SUPPORT. Each event raises its occurrence, and the counters in scope have taken it when the command is done (O43). -/

namespace Sys2Proof.Machine

namespace State

section
variable {s t u : State} {bus : BusId} {n m a b c i k limit : Nat} {r : Room} {x : Exchange} {d : UnitClass}

theorem uncounted_heardAs {v : UnitRecord} : s.Uncounted (s.heardAs i x v) := .of_counts rfl rfl rfl

/-- An answer whose work raises one occurrence of a seat, once its unit has been checked. -/
theorem AwaitsCounted.counted (h : s.AwaitsCounted bus i n a x r) {e : CountEvent} {o : CountEvent → Occurrence}
    (ho : ∀ v, o v = ⟨v, (s.seat n).segment, some i, some n⟩) {v : UnitRecord} (before : (s.heardAs i x v).Uncounted u)
    (segment : (u.seat n).segment = (s.seat n).segment) (after : (u.raiseSeat e n).settleCounts.Uncounted t) :
    s.Counted (t.check i x.address) (o e) := by
  have at_ : seatBus n = i := by
    have small := h.small
    have number := h.number
    unfold seatBus
    omega
  have counted := (uncounted_heardAs.ready h.counters).counted_seat before segment
    (after.trans (.of_shown (.check i x.address)))
  have raised : o e = ⟨e, (s.seat n).segment, some (seatBus n), some n⟩ := by rw [ho, at_]
  rw [raised]
  exact counted

theorem AwaitsCounted.seatAt_eq (h : s.AwaitsCounted bus i n a x r) : seatAt i x.address = n := h.number.symm

section
variable (h : s.AwaitsCounted bus i n a x r)
include h

theorem AwaitsCounted.exec_opened (command : x.command = .open_ k) (d : UnitClass) :
    exec (.unitReplyAck bus .ofOpen 0 (s.unit i x.address).held d) s = .next (((s.heard i x d).seatOpened n).check i x.address) := by
  have acked : (s.heard i x d).acknowledge i x.address .ofOpen = (s.heard i x d).seatOpened n := by
    rw [← h.seatAt_eq]
    exact if_pos h.small.1
  rw [h.exec_ack, show (0 : BitVec 2).toNat = 0 from rfl, h.answered_opened h.present command, acked]
  exact congrArg (fun z => Host.Outcome.next (State.check z i x.address)) (Works.recordHeld (.seatOpened n))

theorem AwaitsCounted.exec_closed (command : x.command = .close) (d : UnitClass) :
    exec (.unitReplyAck bus .ofClose 0 (s.unit i x.address).held d) s = .next (((s.heard i x d).seatClosed n).check i x.address) := by
  have acked : (s.heard i x d).acknowledge i x.address .ofClose = (s.heard i x d).seatClosed n := by
    rw [← h.seatAt_eq]
    exact if_pos h.small.1
  rw [h.exec_ack, show (0 : BitVec 2).toNat = 0 from rfl, h.answered_closed h.present command, acked]
  exact congrArg (fun z => Host.Outcome.next (State.check z i x.address)) (Works.recordHeld (.seatClosed n))

theorem AwaitsCounted.exec_press (poll : x.command = .poll) (d : UnitClass) :
    exec (.unitReplyStatus bus 1 (s.unit i x.address).held d) s = .next (((s.heard i x d).micPress n).check i x.address) := by
  rw [h.exec_status, show (1 : BitVec 2).toNat = 1 from rfl, h.answered_poll h.present poll, presses_one h.small.1, h.seatAt_eq,
    Works.recordHeld (.micPress n)]

end

/-! ## Seats that open and close (R93, R94) -/

/-- A seat that has been opened, before MIC_OPENED. -/
theorem seatOpened_raises (mic : (s.seat n).mic = .opening) :
    ∃ u, s.OnFloor u ∧ s.Works u ∧ s.seatOpened n = (u.raiseSeat .micOpened n).settleCounts := by
  unfold seatOpened
  dsimp only
  rw [if_pos mic]
  exact ⟨_, (((OnFloor.setSeat n _).trans .countLive).trans (.noteMic n _ _)).trans (.reseat n),
    (((Works.setSeat n _ (by rfl)).trans .countLive).trans (.noteMic n _ _)).trans (.reseat n), rfl⟩

theorem seatClosed_eq (mic : (s.seat n).mic = .closing) :
    s.seatClosed n = ((((s.slotReturned n).raiseSeat .micClosed n).settleCounts).passSeatRoom n).promoteAfterSlot n := by
  unfold seatClosed
  dsimp only
  rw [if_pos mic]
  rfl

theorem Works.slotReturned (n : Nat) : s.Works (s.slotReturned n) :=
  (((Works.setSeat n _ (by rfl)).trans (.modSeatRoom n _ fun _ => by rfl)).trans (.noteMic n _ _)).trans (.reseat n)

theorem Sits.slotReturned (n : Nat) : s.Sits (s.slotReturned n) :=
  (((Sits.setSeat n _).trans (.modSeatRoom n _ fun _ => by rfl)).trans (.noteMic n _ _)).trans (.reseat n)

/-- The room of a seat that is not ENDING stays as it is after work that keeps sessions. -/
theorem passSeatRoom_of_kept (works : s.Works t) (sessions : (t.room a).map Room.session = (s.room a).map Room.session)
    (ha : s.seatAnchor n = some a) (hr : s.room a = some r) (session : r.session ≠ .ending) : t.passSeatRoom n = t := by
  refine passSeatRoom_of_not_ending fun b q hb hq => ?_
  obtain rfl : b = a := Option.some.inj (hb.symm.trans ((works.seatAnchor n).trans ha))
  rw [hq, hr, Option.map_some, Option.map_some] at sessions
  rw [Option.some.inj sessions]
  exact session

theorem Sits.sessions (h : s.Sits t) (a : Nat) : (t.room a).map Room.session = (s.room a).map Room.session := by
  have rooms := congrArg (Option.map Room.session) (h.rooms a)
  rwa [Option.map_map, Option.map_map] at rooms

theorem leftSeat_onFloor (n : Nat) : s.OnFloor (s.leftSeat n) := by
  unfold leftSeat
  dsimp only
  refine (((OnFloor.trans ?_ (.setSeat n _)).trans (.modSeatRoom n _)).trans (.noteMic n _ _)).trans (.reseat n)
  split
  · exact .unqueue n
  · exact .refl s

theorem Sits.leftSeat (n : Nat) : s.Sits (s.leftSeat n) := by
  unfold State.leftSeat
  dsimp only
  refine (((Sits.trans ?_ (setSeat n _)).trans (modSeatRoom n _ fun _ => by rfl)).trans (noteMic n _ _)).trans (reseat n)
  split
  · exact unqueue n
  · exact refl s

/-! ## A unit that is lost (R77) -/

theorem uncounted_departed (i b : Nat) : s.Uncounted (s.departed i b) := .of_counts rfl rfl rfl

theorem uncounted_missed : s.Uncounted (s.missed i x) := by
  rw [missed_eq]
  exact .of_counts rfl rfl rfl

/-- PRIORITY that ends with its unit leaves every session. -/
theorem recordHeld_false_sessions (i b a : Nat) : ((s.recordHeld i b false).room a).map Room.session = (s.room a).map Room.session := by
  have unmuted : ∀ (v : State) (c : Nat), (v.priorityReleased c |>.room a).map Room.session = (v.room a).map Room.session := by
    intro v c
    unfold priorityReleased
    split
    · rfl
    · next r hr =>
      split
      · refine ((Sits.promote c).sessions a).trans ?_
        unfold endPriority room
        rw [unmuteAll_hall]
        show Option.map Room.session (State.room (v.modRoom c _) a) = _
        rw [modRoom_of_room hr, setRoom_room]
        split
        · subst_vars
          exact (congrArg (Option.map Room.session) hr).symm
        · rfl
      · rfl
  unfold recordHeld
  split
  · rfl
  · unfold heldChanged
    split
    · split
      · unfold chairHeld
        split
        · rfl
        · exact unmuted _ _
      · rfl
    · unfold coughHeld
      dsimp only
      split
      · rfl
      · rfl

/-- The third miss of a PRESENT unit of a seat. -/
theorem AwaitsCounted.counted_lost (h : s.AwaitsCounted bus i n a x r) (third : (s.unit i x.address).misses = 2)
    (session : r.session ≠ .ending) : ∃ t, exec (.exchangeMissed bus) s = .next t ∧
      s.Counted t ⟨.unitLost, (s.seat n).segment, some (seatBus n), some n⟩ := by
  have exec := h.exec_missed
  obtain ⟨z, hz⟩ : ∃ z, z = s.missed i x := ⟨_, rfl⟩
  have unit : z.unit i x.address = { s.unit i x.address with misses := 3 } := by
    rw [hz, missed_unit, if_pos rfl, third]
    rfl
  have present : (z.unit i x.address).presence = .present := by
    rw [unit]
    exact h.present
  have same : z = { s with buses := z.buses } := hz ▸ missed_eq
  rw [h.missExchange_eq, ← hz, absentIfThird_of_third (by rw [unit]) (by rw [present]; decide), becomeAbsent_of_seat h.small.1 present,
    h.seatAt_eq] at exec
  obtain ⟨y, hy⟩ : ∃ y, y = (z.departed i x.address).setSeat n { z.seat n with slot := none } := ⟨_, rfl⟩
  have gone : z.departedSeat i x.address = y.recordHeld i x.address false := by
    rw [hy, ← h.seatAt_eq]
    rfl
  obtain ⟨w, hw⟩ : ∃ w, w = y.recordHeld i x.address false := ⟨_, rfl⟩
  rw [gone, ← hw, seatLost_eq] at exec
  have quiet : s.Uncounted w := by
    have written : (z.departed i x.address).Uncounted y := hy ▸ .of_counts rfl rfl rfl
    have missed : s.Uncounted z := hz ▸ uncounted_missed
    exact hw ▸ ((missed.trans (uncounted_departed i x.address)).trans written).trans (.recordHeld_false i x.address)
  have sessions : (w.room a).map Room.session = (s.room a).map Room.session := by
    have before : y.room a = s.room a := by rw [hy, same]; rfl
    rw [hw, recordHeld_false_sessions, before]
  have segment : (w.seat n).segment = (s.seat n).segment := by
    have before : (y.seat n).segment = (s.seat n).segment := by
      rw [hy, setSeat_seat_same, same]
      rfl
    have held := congrArg Seat.segment (recordHeld_fixed (s := y) (i := i) (a := x.address) n (held := false))
    rw [hw]
    exact (held :).trans before
  have anchor : w.seatAnchor n = some a := by
    unfold seatAnchor anchorOf
    rw [segment, quiet.map]
    exact h.seat.map
  obtain ⟨q, hq, same⟩ : ∃ q, w.room a = some q ∧ q.session = r.session := by
    rw [h.seat.room, Option.map_some] at sessions
    exact Option.map_eq_some_iff.1 sessions
  obtain ⟨v, hv⟩ : ∃ v, v = ((w.leftSeat n).raiseSeat .unitLost n).settleCounts := ⟨_, rfl⟩
  have stays : v.passSeatRoom n = v := hv ▸ passSeatRoom_of_kept (((Works.leftSeat n).trans (.raiseSeat _ n)).trans .settleCounts)
    ((((Sits.leftSeat n).trans (.raise _)).trans .settleCounts).sessions a) anchor hq (same ▸ session)
  rw [← hv, stays] at exec
  have left : s.Uncounted (w.leftSeat n) := quiet.trans (.of_floor (leftSeat_onFloor n))
  have kept : ((w.leftSeat n).seat n).segment = (s.seat n).segment := ((Works.leftSeat n).seat_segment n).trans segment
  refine ⟨_, exec, h.counters.counted_seat left kept ?_⟩
  rw [← hv]
  split
  · exact .promoteAfterSlot n
  · exact .promoteSeat n

/-! ## Requests to speak (R114 to R116) -/

theorem CountersReady.counted_joined (ready : s.CountersReady) (c : MicCause) (a : Nat) :
    s.Counted ((s.joinQueue n c).promote a) ⟨.requestJoined, (s.seat n).segment, some (seatBus n), some n⟩ := by
  obtain ⟨v, hv⟩ : ∃ v, v = (((s.modSeatRoom n (fun r =>
      { r with queue := r.queue ++ [{ seat := n, stamp := s.floor.stampCount, segment := (s.seat n).segment }] })).setSeat n
        { (s.modSeatRoom n (fun r => { r with
            queue := r.queue ++ [{ seat := n, stamp := s.floor.stampCount, segment := (s.seat n).segment }] })).seat n with
          mic := .queued, stamp := some s.floor.stampCount }).countStamp.noteMic n .idle c).reseat n := ⟨_, rfl⟩
  have joined : s.joinQueue n c = (v.raiseSeat .requestJoined n).settleCounts := by
    rw [hv]
    rfl
  have works : s.Works v := hv ▸ ((((Works.modSeatRoom n _ fun _ => by rfl).trans (.setSeat n _ (by rfl))).trans .countStamp).trans
    (.noteMic n _ c)).trans (.reseat n)
  have onFloor : s.OnFloor v := hv ▸ ((((OnFloor.modSeatRoom n _).trans (.setSeat n _)).trans .countStamp).trans (.noteMic n _ c)).trans
    (.reseat n)
  refine ready.counted_seat (.of_floor onFloor) (works.seat_segment n) ?_
  rw [← joined]
  exact .of_floor (.promote a)

theorem dropNow_eq {c : DropCause} : s.dropNow n c = (((s.unqueued n c).reseat n).raise
    ⟨.requestDropped, ((s.unqueued n c).seat n).segment, some (seatBus n), some n⟩).settleCounts := by
  unfold dropNow
  rw [drop_eq_raise, raiseSeat, reseat_raise]

theorem CountersReady.counted_dropped (ready : s.CountersReady) {c : DropCause} {e : Entry} (hr : s.room a = some r)
    (single : r.queue = [e]) :
    s.Counted (s.emptyQueue a c) ⟨.requestDropped, (s.seat e.seat).segment, some (seatBus e.seat), some e.seat⟩ := by
  have dropped : s.emptyQueue a c = s.dropNow e.seat c := by
    unfold emptyQueue
    rw [hr]
    dsimp only
    rw [single]
    show dropQueue 1 a c s = _
    unfold dropQueue
    rw [hr]
    dsimp only
    rw [single]
    rfl
  have works : s.Works (s.unqueued e.seat c) := ((Works.unqueue _).trans (.setSeat _ _ (by rfl))).trans (.note _)
  have segment := works.seat_segment e.seat
  rw [dropped, dropNow_eq, segment]
  exact ready.counted_between (.of_floor (OnFloor.unqueued.trans (.reseat _))) (.refl _)

/-! ## The speaking limit (R108) -/

theorem OnFloor.warnIfDue {seconds : Nat} : s.OnFloor (s.warnIfDue n seconds limit r) := by
  rw [warnIfDue_eq]
  split
  · exact OnFloor.rewrite.trans (.note _)
  · exact .refl s

theorem warnIfDue_segment {seconds : Nat} : ((s.warnIfDue n seconds limit r).seat n).segment = (s.seat n).segment := by
  rw [warnIfDue_eq]
  split
  · show ((s.rewrite n _).seat n).segment = _
    rw [rewrite_seat, if_pos rfl]
  · rfl

theorem CountersReady.counted_limit (ready : s.CountersReady) {seconds : Nat} (late : limit ≤ seconds)
    (action : r.profile.limitAction = .close) :
    s.Counted (((s.unmarked n).warnIfDue n seconds limit r).limitIfDue n seconds limit r)
      ⟨.limitClose, (s.seat n).segment, some (seatBus n), some n⟩ := by
  rw [limitIfDue_of_close late action]
  have onFloor : s.OnFloor (((s.unmarked n).warnIfDue n seconds limit r).enterClosing n .limit) :=
    ((OnFloor.setSeat n _).trans .warnIfDue).trans (.enterClosing n _)
  have segment : ((((s.unmarked n).warnIfDue n seconds limit r).enterClosing n .limit).seat n).segment = (s.seat n).segment :=
    (Works.enterClosing n _).seat_segment n |>.trans (warnIfDue_segment.trans (congrArg Seat.segment (setSeat_seat_same s n _) :))
  exact ready.counted_seat (.of_floor onFloor) segment (.of_floor (.promote _))

/-! ## Consoles and booths (R135, R138, R145) -/

/-- A takeover raises BOOTH_TAKEOVER when the console has the channel. -/
theorem CountersReady.counted_takeover (ready : s.CountersReady) {o : Nat} (floor : ∀ b, (s.boothAt b).source = .floor)
    (hr : s.boothRoom (consoleBooth c) = some r) (hs : r.session = .inSession)
    (hl : (s.boothAt (consoleBooth c)).language ∈ r.profile.languages)
    (owner : s.ownerOf ⟨r.anchor, (s.boothAt (consoleBooth c)).language⟩ = some o) (takeover : r.profile.contention = .takeover) :
    s.Counted ((s.pressReady c).consoleWork c) ⟨.boothTakeover, (s.boothAt (consoleBooth c)).home, some 4, Option.none⟩ := by
  obtain ⟨v, hv⟩ : ∃ v, v = (s.release o .takeover (some c)).takeChannel c ⟨r.anchor, (s.boothAt (consoleBooth c)).language⟩ := ⟨_, rfl⟩
  have taken : s.pressReady c = (v.raiseBooth .boothTakeover (consoleBooth c)).settleCounts := by
    unfold pressReady
    rw [hr]
    dsimp only
    rw [if_neg (by simp [hs]), if_neg (by simpa using hl), owner, takeover, hv]
  have worked : s.OnBooths v := hv ▸ (OnBooths.release o _ _).trans (.takeChannel c _)
  have works : s.Works ((v.raiseBooth .boothTakeover (consoleBooth c)).settleCounts) :=
    (worked.works.trans (.raiseBooth _ _)).trans .settleCounts
  refine ready.counted_booth (.of_shown worked.shown) (by rw [worked.works.booths]) ?_
  rw [taken]
  exact .consoleWork (fun b => by rw [works.booths, floor]) c

theorem CountersReady.counted_consoleLost (ready : s.CountersReady) (floor : ∀ b, (s.boothAt b).source = .floor) :
    s.Counted (s.consoleLost c) ⟨.unitLost, (s.boothAt (consoleBooth c)).home, some 4, Option.none⟩ := by
  have left : s.OnBooths (s.leftConsole c) := (OnBooths.moveConsole c _ _).trans (.noteConsole c _ _ _)
  have works : s.Works (((s.leftConsole c).raiseBooth .unitLost (consoleBooth c)).settleCounts) :=
    (left.works.trans (.raiseBooth _ _)).trans .settleCounts
  refine ready.counted_booth (.of_shown left.shown) (by rw [left.works.booths]) ?_
  rw [consoleLost_eq]
  exact .consoleWork (fun b => by rw [works.booths, floor]) c

/-! ## Floors that clip (R178) -/

theorem mem_blockFrames {f : Nat} : f ∈ blockFrames ↔ f < 48 := by
  unfold blockFrames
  exact List.mem_range

theorem floorClips_iff {p : Plan} {audio : List Upstream} : floorClips p audio a = true ↔
    ∃ f, f < 48 ∧ (floorSum p audio a f < -8388608 ∨ 8388607 < floorSum p audio a f) := by
  simp only [floorClips, List.any_eq_true, mem_blockFrames, decide_eq_true_eq]
  refine exists_congr fun f => and_congr_right fun _ => ?_
  rw [limit24_eq]
  split
  · omega
  · split
    · omega
    · omega

/-- Only a room with a microphone route clips. -/
theorem mem_voices_of_clips {p : Plan} {audio : List Upstream} (low : 1 ≤ a) (high : a ≤ 12) (clips : floorClips p audio a = true) :
    a ∈ p.voices := by
  refine mem_voices.2 ⟨⟨low, high⟩, ?_⟩
  by_contra nobody
  obtain ⟨f, -, beyond⟩ := floorClips_iff.1 clips
  have silent : p.mics.filter (fun m => decide (m.anchor = a)) = [] :=
    List.filter_eq_nil_iff.2 fun m hm here => nobody ⟨m, hm, by simpa using here⟩
  have zero : floorSum p audio a f = 0 := by
    unfold floorSum
    rw [silent]
    rfl
  omega

/-- One room that clips raises one occurrence. -/
theorem clipping_of_one {p : Plan} {audio : List Upstream} (low : 1 ≤ a) (high : a ≤ 12)
    (one : ∀ b, 1 ≤ b → b ≤ 12 → (floorClips p audio b = true ↔ b = a)) : p.voices.filter (floorClips p audio) = [a] := by
  have listed : a ∈ p.voices := mem_voices_of_clips low high ((one a low high).2 rfl)
  have alone : p.voices.filter (floorClips p audio) = p.voices.filter (fun b => b == a) := by
    refine List.filter_congr fun b hb => ?_
    obtain ⟨⟨low, high⟩, -⟩ := mem_voices.1 hb
    rw [Bool.eq_iff_iff, one b low high, beq_iff_eq]
  have once : p.voices.Nodup := List.Nodup.filter _ (by decide)
  rw [alone, List.filter_beq, List.count_eq_one_of_mem once listed]
  rfl

theorem tick_counters (x : CounterUnit) : x.tick.counters = x.counters ∧ x.tick.raised = x.raised ∧ x.tick.deferring = x.deferring := by
  unfold CounterUnit.tick
  split
  · exact ⟨rfl, rfl, rfl⟩
  · split
    · exact ⟨rfl, rfl, rfl⟩
    · exact ⟨rfl, rfl, rfl⟩

/-- What follows at a calm boundary in RUN raises nothing. -/
theorem uncounted_tickRun : s.Uncounted s.tickRun where
  counters c := by
    rw [tickRun_parts]
    exact congrArg (fun tb => tget Counter.initial tb c) (tick_counters s.counts).1
  raised := by
    rw [tickRun_parts]
    exact (tick_counters s.counts).2.1
  deferring := by
    rw [tickRun_parts]
    exact (tick_counters s.counts).2.2
  map := by rw [tickRun_parts]; rfl
  groups := by rw [tickRun_parts]

theorem uncounted_sampleInputs {sense : BitVec 16} : s.Uncounted (s.sampleInputs sense) := by
  rw [sampleInputs_eq]
  exact .of_counts rfl rfl rfl

theorem Calm.counted_clip (calm : s.Calm) (ready : s.CountersReady) (run : s.link.phase = .run) {sense : BitVec 16}
    {audio : List Upstream} (one : s.mix.plan.voices.filter (floorClips s.mix.plan audio) = [a]) :
    s.Counted (s.boundary sense audio) (clipOf a) := by
  obtain ⟨v, hv⟩ : ∃ v, v = (((s.heardBlock audio).raise (clipOf a)).settleCounts).sampleInputs sense := ⟨_, rfl⟩
  have settled : ((s.heardBlock audio).raise (clipOf a)).settleCounts.link = s.link := by
    have heard : (s.heardBlock audio).CountersReady := ⟨ready.none, ready.open_, ready.below⟩
    obtain ⟨-, only⟩ := heard.counted (o := clipOf a)
    rw [only]
    rfl
  have link : v.link = s.link := by rw [hv, sampleInputs_eq, ← settled]
  have still : v.tickFrame = v := by
    unfold tickFrame
    rw [link, calm.hunting]
  have boundary : s.boundary sense audio = v.tickRun := by
    unfold State.boundary
    dsimp only
    rw [finishDue_of_calm calm, closeBlock_of_run run, one]
    have closed : (([a].map clipOf).foldl raise (s.heardBlock audio)).settleCounts.sampleInputs sense = v := hv.symm
    rw [closed, still, link, run]
  rw [boundary]
  refine ready.counted_between (u := s.heardBlock audio) (.of_counts rfl rfl rfl) ?_
  exact (hv ▸ uncounted_sampleInputs).trans uncounted_tickRun

end

end State

end Sys2Proof.Machine

open Sys2Proof.Machine

/-- Settles O43, event by event in the order of the statement. -/
theorem eventsRaiseTheirOccurrences : Obligations.EventsRaiseTheirOccurrences := by
  unfold Obligations.EventsRaiseTheirOccurrences
  refine ⟨fun s bus i n a k x c r o awaits ho => ⟨fun command mic => ?_, fun command mic session => ?_,
      fun poll mic cls session blocked => ?_, fun third session => ?_⟩,
    fun s tag b0 b1 n a r take ready run hn at_ cls session mic free room stamps => ?_,
    fun s tag kb a r e take ready run at_ single _ => ?_,
    fun s n a limit ns r c up done ready due clock at_ live grant late action => ?_,
    fun s x cls a c r o awaits ready hc present map room anchor floor ho => ⟨fun d poll session takeover idle held owner => ?_,
      fun third => ?_⟩,
    fun s tag bb rb a r take ready run b1 b2 installed at_ inside r1 r2 other direct floor canonical unowned => ?_,
    fun s sense audio a total calm ready run low high sums one => ?_⟩
  · have opening : ((s.heard i x c).seat n).mic = .opening := mic
    obtain ⟨u, onFloor, works, raises⟩ := State.seatOpened_raises opening
    refine ⟨_, awaits.exec_opened command c, awaits.counted ho (.of_floor onFloor) (works.seat_segment n) ?_⟩
    rw [raises]
    exact .refl _
  · have closing : ((s.heard i x c).seat n).mic = .closing := mic
    have works : (s.heard i x c).Works ((s.heard i x c).slotReturned n) := .slotReturned n
    have stays : (((((s.heard i x c).slotReturned n).raiseSeat .micClosed n).settleCounts).passSeatRoom n) =
        (((s.heard i x c).slotReturned n).raiseSeat .micClosed n).settleCounts :=
      State.passSeatRoom_of_kept ((works.trans (.raiseSeat _ n)).trans .settleCounts)
        ((((State.Sits.slotReturned n).trans (.raise _)).trans .settleCounts).sessions a) awaits.seat.map awaits.seat.room session
    refine ⟨_, awaits.exec_closed command c, awaits.counted ho (.of_floor .slotReturned) (works.seat_segment n) ?_⟩
    rw [State.seatClosed_eq closing, stays]
    exact .promoteAfterSlot n
  · have anchor : (s.heard i x c).seatAnchor n = some a := awaits.seat.map
    have room : (s.heard i x c).room a = some r := awaits.seat.room
    have refused : (s.heard i x c).micPress n = (s.heard i x c).refusePress n .blocked := by
      rw [State.micPress_of_not_woken anchor room (.inl (by rw [session]; decide)),
        State.handlePress_of_idle_delegate anchor room session cls mic]
      exact if_pos blocked
    refine ⟨_, awaits.exec_press poll c, ?_⟩
    rw [refused]
    exact awaits.counted ho (.of_floor (.note (.requestRefused n ((s.heard i x c).seatAnchor n) .blocked))) rfl (.refl _)
  · obtain ⟨t, exec, counted⟩ := awaits.counted_lost third session
    have bus : seatBus n = i := by
      have small := awaits.small
      have number := awaits.number
      unfold seatBus
      omega
    rw [bus, ← ho] at counted
    exact ⟨t, exec, counted⟩
  · subst hn
    have handled := State.handleRequestAdd_of_idle at_ cls session mic free room stamps
    have popped : s.popInput.CountersReady := ⟨ready.none, ready.open_, ready.below⟩
    refine ⟨_, congrArg Host.Outcome.next (State.request_of_handled take (by simp [Allowed.permits, run]) handled), ?_⟩
    exact popped.counted_joined .host a
  · have handled : handleQueueClear [kb] s.popInput =
        (s.popInput.emptyQueue a .queueClear, .ok (.cleared a r.queue.length)) := by
      obtain rfl := at_.anchor
      exact State.inRoom_of_roomAt at_ _
    have popped : s.popInput.CountersReady := ⟨ready.none, ready.open_, ready.below⟩
    refine ⟨_, congrArg Host.Outcome.next (State.request_of_handled take (by simp [Allowed.permits, run]) handled), ?_⟩
    exact popped.counted_dropped (c := .queueClear) (show s.popInput.room a = some r from at_.room) single
  · have runs : exec .speakingClockSecond s =
        .next (((s.unmarked n).warnIfDue n c.seconds limit r).limitIfDue n c.seconds limit r) := by
      refine congrArg Host.Outcome.next ((State.whenDue_of_done up done _).trans ?_)
      rw [State.nextClock_of_due due, State.clockSecond_of_limit clock (State.seatRoom_of_room at_.map at_.room)
        (State.applicableLimit_of (.inl grant))]
    exact ⟨_, runs, ready.counted_limit late action⟩
  · subst hc
    have heard : (s.heard 4 x cls).CountersReady := State.uncounted_heardAs.ready ready
    have boothRoom : (s.heard 4 x cls).boothRoom (consoleBooth x.address) = some r := State.boothRoom_of_room map room
    have pressed : (s.heard 4 x cls).onAirPress x.address = ((s.heard 4 x cls).pressReady x.address).consoleWork x.address := by
      rw [State.onAirPress_of_not_woken (s := s.heard 4 x cls) map room (by rw [session]; exact fun e => nomatch e),
        State.handleOnAir_of_ready (s := s.heard 4 x cls) idle]
    have runs : exec (.unitReplyStatus .b 1 (s.unit 4 x.address).held cls) s =
        .next (((s.heard 4 x cls).onAirPress x.address).check 4 x.address) := by
      rw [awaits.exec_status, show (1 : BitVec 2).toNat = 1 from rfl, awaits.answered_poll present poll, State.presses_one_console,
        State.Works.recordHeld (.onAirPress x.address)]
    have counted := heard.counted_takeover (c := x.address) floor boothRoom session held (by rw [anchor]; exact owner) takeover
    refine ⟨_, runs, ?_⟩
    rw [pressed, ho]
    exact counted.between State.uncounted_heardAs (.of_shown (.check 4 x.address))
  · subst hc
    obtain ⟨z, hz⟩ : ∃ z, z = s.missed 4 x := ⟨_, rfl⟩
    have unit : z.unit 4 x.address = { s.unit 4 x.address with misses := 3 } := by
      rw [hz, State.missed_unit, if_pos rfl, third]
      rfl
    have here : (z.unit 4 x.address).presence = .present := by
      rw [unit]
      exact present
    have same : z = { s with buses := z.buses } := hz ▸ State.missed_eq
    have exec := awaits.exec_missed
    rw [awaits.missExchange_eq, ← hz, State.absentIfThird_of_third (by rw [unit]) (by rw [here]; decide),
      State.becomeAbsent_of_console (by decide) here] at exec
    obtain ⟨y, hy⟩ : ∃ y, y = (z.departed 4 x.address).recordHeld 4 x.address false := ⟨_, rfl⟩
    rw [← hy] at exec
    have booths : ∀ b, (y.boothAt b).source = (s.boothAt b).source ∧ (y.boothAt b).home = (s.boothAt b).home := fun b => by
      rw [hy, State.recordHeld_booths, same]
      exact ⟨rfl, rfl⟩
    have quiet : s.Uncounted y :=
      hy ▸ ((hz ▸ State.uncounted_missed : s.Uncounted z).trans (State.uncounted_departed 4 x.address)).trans (.recordHeld_false 4 _)
    have counted := (quiet.ready ready).counted_consoleLost (c := x.address) fun b => by rw [(booths b).1, floor]
    rw [(booths _).2] at counted
    refine ⟨_, exec, ?_⟩
    rw [ho]
    exact counted.between quiet (.refl _)
  · have coded : byteAt [bb, 1, rb] 1 < 2 := Nat.one_lt_two
    have range : ¬ (byteAt [bb, 1, rb] 1 = 1 ∧ (byteAt [bb, 1, rb] 2 < 1 ∨ 63 < byteAt [bb, 1, rb] 2)) :=
      fun h => by
        have beyond : rb.toNat < 1 ∨ 63 < rb.toNat := h.2
        omega
    obtain ⟨answer, handled⟩ : ∃ answer, handleBoothSource [bb, 1, rb] s.popInput =
        (s.popInput.resource bb.toNat (.relay rb.toNat), answer) := by
      rw [handleBoothSource_eq rfl coded, if_neg range]
      refine ⟨_, (State.onBooth_of_installed (s := s) b1 b2 installed _).trans (if_neg ?_)⟩
      have differs : ¬ (Source.relay rb.toNat).relays (s.boothAt bb.toNat).language = true := by simpa [Source.relays] using other
      exact differs
    rw [State.resource_eq (s := s.popInput) at_.map at_.room] at handled
    obtain ⟨v, hv⟩ : ∃ v, v = s.popInput.setBooth bb.toNat { s.popInput.boothAt bb.toNat with source := .relay rb.toNat } := ⟨_, rfl⟩
    rw [← hv] at handled
    have booth : ∀ b, v.boothAt b = if b = bb.toNat then { s.boothAt bb.toNat with source := .relay rb.toNat } else s.boothAt b :=
      fun b => hv ▸ State.setBooth_boothAt ..
    have relays : v.boothAt bb.toNat = { s.boothAt bb.toNat with source := .relay rb.toNat } := (booth _).trans (if_pos rfl)
    have quiet : s.Uncounted v := hv ▸ .of_counts rfl rfl rfl
    have anchor : v.boothAnchor bb.toNat = some a := by
      unfold State.boothAnchor
      rw [relays, hv]
      exact at_.map
    have room : v.boothRoom bb.toNat = some r := State.boothRoom_of_room anchor (hv ▸ at_.room)
    have free : v.ownerOf ⟨r.anchor, rb.toNat⟩ = none := by
      rw [at_.anchor, ← unowned, hv]
      rfl
    have source : (v.boothAt bb.toNat).source = .relay rb.toNat := by rw [relays]
    have counted := (quiet.ready ready).counted_fallback (segments := r.segments) (hv ▸ twf_tset _ _ _ _ canonical)
      (by rw [relays]; exact installed) (by rw [relays]; exact inside) source (by rw [relays]; exact direct)
      (State.listenOf_of_unowned source room free) fun b hb => by rw [booth, if_neg hb, floor b hb]
    rw [relays] at counted
    refine ⟨_, congrArg Host.Outcome.next (State.request_of_handled take (by simp [Allowed.permits, run]) handled), ?_⟩
    exact counted.between quiet (.of_counts rfl rfl rfl)
  · have clips : ∀ b, 1 ≤ b → b ≤ 12 → (floorClips s.mix.plan audio b = true ↔ b = a) := fun b low high => by
      rw [State.floorClips_iff, ← one b low high]
      simp only [sums]
      rfl
    exact ⟨_, State.exec_boundary calm.up, calm.counted_clip ready run (State.clipping_of_one low high clips)⟩

end

section
/-! SUPPORT. An occurrence at which a counter passes its top: the wrap, the blocking of a group, and the drop that is counted after it
(R188 to R190). -/

namespace Sys2Proof.Machine

/-- A list in which one element alone brings something, once. -/
theorem flatMap_of_one {α : Type} {ks : List Nat} {a : Nat} {x : α} (nodup : ks.Nodup) (listed : a ∈ ks) :
    ks.flatMap (fun b => if b = a then [x] else []) = [x] := by
  obtain ⟨before, after, rfl⟩ := List.append_of_mem listed
  have nothing : ∀ bs : List Nat, a ∉ bs → bs.flatMap (fun b => if b = a then [x] else []) = [] := fun bs away =>
    List.flatMap_eq_nil_iff.2 fun b hb => if_neg (by rintro rfl; exact away hb)
  have ahead : a ∉ before := fun h => (List.disjoint_of_nodup_append nodup) h List.mem_cons_self
  have behind : a ∉ after := (List.nodup_cons.1 (List.nodup_append.1 nodup).2.1).1
  rw [List.flatMap_append, List.flatMap_cons, nothing before ahead, nothing after behind, if_pos rfl]
  rfl

namespace State

section
variable {s t u v : State} {c d g n m a : Nat} {x : Counter} {o : Occurrence} {r : Room} {e : Entry}

/-! ## One occurrence that one counter takes -/

theorem takeOccurrence_of_not (h : s.countedBy o (s.counter d) = false) : s.takeOccurrence o d = s := if_neg (Bool.eq_false_iff.1 h)

/-- Where no other counter takes the occurrence, what the one counter makes of it is all. -/
theorem foldl_takeOccurrence_of_one (number : c ∈ counterNumbers)
    (others : ∀ d ∈ counterNumbers, d ≠ c → (s.counter d).enabled = false ∨ (s.counter d).event ≠ o.event)
    (hv : v = s.takeOccurrence o c) (kept : ∀ d, d ≠ c → v.counter d = s.counter d) :
    counterNumbers.foldl (fun t c => t.takeOccurrence o c) s = v := by
  obtain ⟨before, after, split⟩ := List.append_of_mem number
  have nodup : (before ++ c :: after).Nodup := split ▸ (by decide : counterNumbers.Nodup)
  have listed : ∀ d, d ∈ before ∨ d ∈ after → d ∈ counterNumbers ∧ d ≠ c := fun d hd => by
    refine ⟨split ▸ ?_, ?_⟩
    · rcases hd with hd | hd
      · exact List.mem_append_left _ hd
      · exact List.mem_append_right _ (List.mem_cons_of_mem c hd)
    · rintro rfl
      rcases hd with hd | hd
      · exact (List.disjoint_of_nodup_append nodup) hd List.mem_cons_self
      · exact (List.nodup_cons.1 (List.nodup_append.1 nodup).2.1).1 hd
  have idle : ∀ (w : State) (ds : List Nat), (∀ d ∈ ds, d ∈ counterNumbers ∧ d ≠ c) → (∀ d, d ≠ c → w.counter d = s.counter d) →
      ds.foldl (fun t c => t.takeOccurrence o c) w = w := fun w ds apart same => by
    refine foldl_of_fixed _ _ fun d hd => takeOccurrence_of_not ?_
    obtain ⟨number, other⟩ := apart d hd
    rw [countedBy, same d other]
    rcases others d number other with off | event
    · rw [off]
      rfl
    · rw [decide_eq_false event, Bool.and_false]
      rfl
  rw [split, List.foldl_append, idle s before (fun d hd => listed d (.inl hd)) fun _ _ => rfl, List.foldl_cons, ← hv,
    idle v after (fun d hd => listed d (.inr hd)) kept]

/-- A COUNT counter at its top takes an occurrence. -/
theorem takeOccurrence_of_top (takes : s.countedBy o (s.counter c) = true) (mode : (s.counter c).mode = .count)
    (top : (s.counter c).value = 4294967295) : s.takeOccurrence o c = (s.wrapped c 1).overflowed (s.counter c) := by
  have added : s.takeOccurrence o c = s.addCounter c 1 := by
    refine (if_pos takes).trans ?_
    rw [mode]
  rw [added, addCounter_of_overflow (by omega)]

theorem wrapped_of_top (hx : x = s.counter c) (mode : x.mode = .count) (top : x.value = 4294967295) :
    s.wrapped c 1 = (s.setCounter c { x with value := 0 }).note (.counterOverflow c x.event x.scope .count 0 x.action) := by
  subst hx
  have zero : (s.counter c).value + 1 - 4294967296 = 0 := by omega
  unfold wrapped
  rw [zero]
  exact congrArg (fun z => State.note (s.setCounter c { s.counter c with value := 0 })
    (.counterOverflow c (s.counter c).event (s.counter c).scope z 0 (s.counter c).action)) mode

/-! ## The drop that the blocking of a group brings -/

/-- Where just one entry of one room is a member of the group that becomes blocked, its seat is the one that is dropped. -/
theorem queuedAmong_barred (number : 1 ≤ g ∧ g ≤ 16) (seats : twf Seat.initial s.floor.seats = true)
    (rooms : twf none s.hall.rooms = true) (installed : (s.group g).installed = true) (hr : s.room a = some r)
    (one : r.queue.filter (fun f => groupTakes (s.group g) f.seat) = [e]) (seat : (s.seat e.seat).installed = true)
    (others : ∀ b q, b ≠ a → s.room b = some q → ∀ f ∈ q.queue, groupTakes (s.group g) f.seat = false)
    (free : s.blocked e.seat = false) : (s.barred g).queuedAmong (s.barredSeats g) = [e.seat] := by
  have member : e ∈ r.queue.filter (fun f => groupTakes (s.group g) f.seat) := by rw [one]; exact List.mem_cons_self
  obtain ⟨-, takes⟩ := List.mem_filter.1 member
  have blocks : e.seat ∈ s.barredSeats g := by
    refine (mem_newlyBlocked (t := s.setGroup g { s.group g with blocked := true }) seats).2 ⟨seat, ?_, free⟩
    exact (setGroup_blocked_iff number).2 (.inl ⟨takes, by simp [Group.inForce, installed]⟩)
  have here : (r.queue.map Entry.seat).filter (fun n => (s.barredSeats g).contains n) = [e.seat] := by
    rw [List.filter_map]
    have same : r.queue.filter ((fun n => (s.barredSeats g).contains n) ∘ Entry.seat) =
        r.queue.filter (fun f => groupTakes (s.group g) f.seat) := by
      refine List.filter_congr fun f hf => ?_
      show (s.barredSeats g).contains f.seat = _
      rw [Bool.eq_iff_iff, List.contains_iff_mem]
      refine ⟨barredSeats_takes, fun taken => ?_⟩
      have listed : f ∈ r.queue.filter (fun f => groupTakes (s.group g) f.seat) := List.mem_filter.2 ⟨hf, taken⟩
      rw [one, List.mem_singleton] at listed
      rw [listed]
      exact blocks
    rw [same, one]
    rfl
  have once : (s.barred g).anchors.Nodup := (tkeys_pairwise (tb := s.hall.rooms) rooms _).imp fun h => Nat.ne_of_lt h
  unfold queuedAmong
  refine (List.flatMap_congr fun b _ => ?_).trans (flatMap_of_one once (mem_anchors hr))
  have room : (s.barred g).room b = s.room b := rfl
  rw [room]
  by_cases same : b = a
  · rw [same, hr, if_pos rfl]
    exact here
  · rw [if_neg same]
    cases hq : s.room b with
    | none => rfl
    | some q =>
      refine List.filter_eq_nil_iff.2 fun n hn listed => ?_
      obtain ⟨f, hf, rfl⟩ := List.mem_map.1 hn
      have out := others b q same hq f hf
      rw [barredSeats_takes (List.contains_iff_mem.1 listed)] at out
      cases out

/-- What blocks the group leaves in the room, the seat, the notices and the occurrences when one entry is dropped. -/
theorem counterBlocks_of_one (number : 1 ≤ g ∧ g ≤ 16) (seats : twf Seat.initial s.floor.seats = true)
    (rooms : twf none s.hall.rooms = true) (installed : (s.group g).installed = true) (unblocked : (s.group g).blocked = false)
    (hp : s.link.phase = .run) (hr : s.room a = some r) (one : r.queue.filter (fun f => groupTakes (s.group g) f.seat) = [e])
    (at_ : s.SeatAt e.seat a r)
    (others : ∀ b q, b ≠ a → s.room b = some q → ∀ f ∈ q.queue, groupTakes (s.group g) f.seat = false)
    (free : s.blocked e.seat = false) :
    (s.counterBlocks g).counts = { s.counts with
      raised := s.counts.raised ++ [⟨.requestDropped, (s.seat e.seat).segment, some (seatBus e.seat), some e.seat⟩] } ∧
    (s.counterBlocks g).group g = { s.group g with blocked := true } ∧ ((s.counterBlocks g).seat e.seat).mic = .idle ∧
    ((s.counterBlocks g).seat e.seat).stamp = none ∧
    (s.counterBlocks g).room a = some { r with queue := r.queue.filter (fun f => decide (f.seat ≠ e.seat)) } ∧
    (s.counterBlocks g).link = (s.link.raise (.groupBlocked g true .counter (s.memberCount g))).raise
      (.requestDropped e.seat (some a) (s.seat e.seat).stamp .blocked) := by
  obtain ⟨y, hy⟩ : ∃ y, y = s.barred g := ⟨_, rfl⟩
  have drops : s.counterBlocks g = (y.drop e.seat .blocked).reformAll (s.barredSeats g) := by
    rw [counterBlocks_of_run unblocked installed hp, barredDrops,
      queuedAmong_barred number seats rooms installed hr one at_.installed others free, hy]
    rfl
  have seat : y.seat e.seat = s.seat e.seat := by rw [hy]; rfl
  have anchor : y.seatAnchor e.seat = some a := by rw [hy]; exact at_.map
  have room : y.room a = some r := by rw [hy]; exact hr
  have dropped := unqueued_seat (s := y) (n := e.seat) (m := e.seat) (c := .blocked)
  rw [if_pos rfl, seat] at dropped
  have count : (s.setGroup g { s.group g with blocked := true }).memberCount g = s.memberCount g := by
    unfold memberCount
    rw [setGroup_group, if_pos rfl]
    rfl
  have noticed : y.link = s.link.raise (.groupBlocked g true .counter (s.memberCount g)) := by
    rw [hy, ← count]
    rfl
  have kept : (y.drop e.seat .blocked).Shown (s.counterBlocks g) := drops ▸ .reformAll _
  have written : (y.drop e.seat .blocked).counts = { y.counts with
      raised := y.counts.raised ++ [⟨.requestDropped, (s.seat e.seat).segment, some (seatBus e.seat), some e.seat⟩] } := by
    have counts : (y.unqueued e.seat .blocked).counts = y.counts := OnFloor.unqueued.counts
    rw [drop_eq_raise, raiseSeat, dropped]
    exact congrArg (fun z : CounterUnit => { z with
      raised := z.raised ++ [(⟨.requestDropped, (s.seat e.seat).segment, some (seatBus e.seat), some e.seat⟩ : Occurrence)] }) counts
  have same : (y.drop e.seat .blocked).seat e.seat = { s.seat e.seat with mic := .idle, stamp := none } := dropped
  refine ⟨?_, ?_, ?_, ?_, ?_, ?_⟩
  · rw [kept.counts, written, hy]
    rfl
  · have group : (y.drop e.seat .blocked).group g = y.group g := (Drops.drop e.seat .blocked).group g
    have here : (s.counterBlocks g).group g = (y.drop e.seat .blocked).group g := by
      unfold State.group
      rw [kept.floor]
    rw [here, group, hy]
    exact (setGroup_group ..).trans (if_pos rfl)
  · rw [kept.mic, same]
  · rw [kept.seats, same]
  · rw [kept.room]
    show (y.unqueue e.seat).room a = _
    rw [unqueue_room_of_some room, if_pos anchor]
  · rw [drops, reformAll_link]
    have homed : ((y.unqueue e.seat).setSeat e.seat { (y.unqueue e.seat).seat e.seat with mic := .idle }).seatAnchor e.seat = some a :=
      (((Works.unqueue e.seat).trans (.setSeat e.seat _ (by rfl))).seatAnchor e.seat).trans anchor
    have raised : (y.drop e.seat .blocked).link = (y.unqueue e.seat).link.raise (.requestDropped e.seat
      (((y.unqueue e.seat).setSeat e.seat { (y.unqueue e.seat).seat e.seat with mic := .idle }).seatAnchor e.seat)
        (y.seat e.seat).stamp .blocked) := rfl
    rw [raised, homed, unqueue_link anchor room, noticed, seat]

theorem entryCount_pos (hr : s.room a = some r) (waiting : r.queue ≠ []) : 1 ≤ s.entryCount := by
  have listed : (a, some r) ∈ s.hall.rooms := Kept.mem_of_tget (by simp) hr
  unfold entryCount
  refine Nat.le_trans (m := r.queue.length) (List.length_pos_iff.2 waiting) ?_
  exact List.single_le_sum (fun _ _ => Nat.zero_le _) _ (List.mem_map.2 ⟨(a, some r), listed, rfl⟩)

/-- What waits alone is counted, and nothing more. -/
theorem addOccurrences_of_single {fuel : Nat} (positive : 1 ≤ fuel) (raised : s.counts.raised = [o])
    (room : ∀ c ∈ counterNumbers, s.countedBy o (s.counter c) = true → (s.counter c).mode = .count → (s.counter c).value < 4294967295) :
    ({ s with counts := { s.counts with raised := [] } } : State).CountersOnly (addOccurrences fuel s) ∧
      ∀ c, (addOccurrences fuel s).counter c =
        if c ∈ counterNumbers then if s.countedBy o (s.counter c) then (s.counter c).took else s.counter c else s.counter c := by
  obtain ⟨k, rfl⟩ : ∃ k, fuel = k + 1 := ⟨fuel - 1, by omega⟩
  obtain ⟨only, values⟩ := foldl_takeOccurrence (s := { s with counts := { s.counts with raised := [] } }) (o := o) room
  have added : addOccurrences (k + 1) s = counterNumbers.foldl (fun t c => t.takeOccurrence o c)
      { s with counts := { s.counts with raised := [] } } := by
    refine (addOccurrences.eq_2 ..).trans ?_
    rw [raised]
    exact addOccurrences_of_none only.raised k
  rw [added]
  exact ⟨only, values⟩

end

/-! ## An occurrence at a counter's top (R188, R189) -/

section
variable {s t : State} {c d g m a : Nat} {x y : Counter} {o : Occurrence} {n : Notice} {r : Room} {e : Entry}
  (none : s.counts.raised = []) (open_ : s.counts.deferring = false) (number : c ∈ counterNumbers) (hx : x = s.counter c)
  (enabled : x.enabled = true) (event : x.event = o.event) (mode : x.mode = .count) (scope : s.InScope o x.scope)
  (top : x.value = 4294967295) (hn : n = .counterOverflow c x.event x.scope .count 0 x.action)
include none open_ number hx enabled event mode scope top hn

/-- The occurrence wraps the counter with its notice; the action of the overflow follows, and then what it raises is counted. -/
theorem settleCounts_raise_of_top
    (others : ∀ d ∈ counterNumbers, d ≠ c → (s.counter d).enabled = false ∨ (s.counter d).event ≠ o.event)
    {w : State} (hw : w = (s.setCounter c { x with value := 0 }).note n)
    (kept : ∀ d, d ≠ c → (w.overflowed x).counter d = s.counter d) :
    (s.raise o).settleCounts = addOccurrences s.entryCount (w.overflowed x) := by
  have takes : s.countedBy o (s.counter c) = true := countedBy_iff.2 (hx ▸ ⟨enabled, event, scope⟩)
  have wrapped : w = s.wrapped c 1 := by rw [hw, hn, wrapped_of_top hx mode top]
  have taken : w.overflowed x = s.takeOccurrence o c := by
    rw [takeOccurrence_of_top takes (hx ▸ mode) (hx ▸ top), wrapped, hx]
  have raised : (s.raise o).counts.raised = [o] := by rw [State.raise_counts_raised, none]; rfl
  have emptied : { s.raise o with counts := { (s.raise o).counts with raised := [] } } = s := by
    rw [← none]
    rfl
  rw [settleCounts_of_cons raised open_, emptied, foldl_takeOccurrence_of_one number others taken kept, List.length_nil, Nat.zero_add]
  rfl

/-- With the action NOTICE the wrap and its notice are all. -/
theorem settleCounts_of_notice (action : x.action = .notice)
    (others : ∀ d ∈ counterNumbers, d ≠ c → (s.counter d).enabled = false) :
    (s.raise o).settleCounts = (s.setCounter c { x with value := 0 }).note n := by
  have same := overflowed_of_notice (s := (s.setCounter c { x with value := 0 }).note n) action
  rw [settleCounts_raise_of_top none open_ number hx enabled event mode scope top hn (fun d hd h => .inl (others d hd h)) rfl
    (fun d hd => by rw [same]; exact (setCounter_counter ..).trans (if_neg hd)), same]
  exact addOccurrences_of_none (s := (s.setCounter c { x with value := 0 }).note n) none _

/-- With NOTICE + BLOCK the group of the scope is blocked, and the drop of its one waiting member is counted after that. -/
theorem settleCounts_of_block (action : x.action = .noticeAndBlock) (hs : x.scope = .group g) (hp : s.link.phase = .run)
    (unblocked : (s.group g).blocked = false) (other : o.event ≠ .requestDropped)
    (others : ∀ b ∈ counterNumbers, b ≠ c → b ≠ d → (s.counter b).enabled = false) (hd : d ∈ counterNumbers) (apart : d ≠ c)
    (hy : y = s.counter d) (counts : y.enabled = true) (drops : y.event = .requestDropped) (all : y.scope = .all)
    (count : y.mode = .count) (below : y.value < 4294967295) (seats : twf Seat.initial s.floor.seats = true)
    (rooms : twf Option.none s.hall.rooms = true) (hr : s.room a = some r)
    (one : r.queue.filter (fun f => groupTakes (s.group g) f.seat) = [e])
    (out : ∀ b q, b ≠ a → s.room b = some q → ∀ f ∈ q.queue, groupTakes (s.group g) f.seat = false) (at_ : s.SeatAt e.seat a r)
    (range : 1 ≤ g ∧ g ≤ 16) (free : s.blocked e.seat = false) (ht : t = (s.raise o).settleCounts) :
    t.counter c = { x with value := 0 } ∧ t.counter d = { y with value := y.value + 1 } ∧
      t.group g = { s.group g with blocked := true } ∧ (t.seat e.seat).mic = .idle ∧ (t.seat e.seat).stamp = Option.none ∧
      t.room a = some { r with queue := r.queue.filter (fun f => decide (f.seat ≠ e.seat)) } ∧
      t.link = ((s.link.raise n).raise (.groupBlocked g true .counter (s.memberCount g))).raise
        (.requestDropped e.seat (some a) (s.seat e.seat).stamp .blocked) := by
  obtain ⟨w, hw⟩ : ∃ w, w = (s.setCounter c { x with value := 0 }).note n := ⟨_, rfl⟩
  have installed : (s.group g).installed = true := by
    rw [hs] at scope
    obtain ⟨_, _, installed, _⟩ := scope
    exact installed
  have waiting : r.queue ≠ [] := by
    rintro empty
    rw [empty] at one
    cases one
  have counter : ∀ b, w.counter b = if b = c then { x with value := 0 } else s.counter b := fun b => hw ▸ setCounter_counter ..
  obtain ⟨written, group, mic, stamp, room, link⟩ := counterBlocks_of_one (s := w) (g := g) (a := a) (r := r) (e := e) range
    (hw ▸ seats) (hw ▸ rooms) (hw ▸ installed) (hw ▸ unblocked) (hw ▸ (LinkUnit.raise_phase _ _).trans hp) (hw ▸ hr) (hw ▸ one)
    (hw ▸ ⟨at_.number, at_.installed, at_.map, at_.room, at_.anchor⟩) (hw ▸ out) (hw ▸ free)
  obtain ⟨v, hv⟩ : ∃ v, v = w.counterBlocks g := ⟨_, rfl⟩
  rw [← hv] at written group mic stamp room link
  have same : ∀ b, v.counter b = w.counter b := fun b => by
    unfold State.counter
    rw [written]
  have blocks : w.overflowed x = v := (overflowed_of_block action hs).trans hv.symm
  have only : ∀ b ∈ counterNumbers, b ≠ c → (s.counter b).enabled = false ∨ (s.counter b).event = .requestDropped := fun b hb hc => by
    by_cases here : b = d
    · rw [here, ← hy]
      exact .inr drops
    · exact .inl (others b hb hc here)
  have settled := settleCounts_raise_of_top none open_ number hx enabled event mode scope top hn
    (fun b hb hc => (only b hb hc).imp_right fun h e => other (e ▸ h)) hw
    fun b hb => by rw [blocks, same, counter, if_neg hb]
  rw [blocks] at settled
  have raised : v.counts.raised = [⟨.requestDropped, (w.seat e.seat).segment, some (seatBus e.seat), some e.seat⟩] := by
    rw [written, hw]
    show s.counts.raised ++ _ = _
    rw [none]
    rfl
  obtain ⟨rest, values⟩ := addOccurrences_of_single (s := v) (entryCount_pos hr waiting) raised fun b hb takes _ => by
    obtain ⟨on, event', -⟩ := countedBy_iff.1 takes
    rw [same, counter] at on event' ⊢
    split at event'
    · exact absurd (event.symm.trans event') other
    · next hc =>
      rw [if_neg hc] at on ⊢
      have here : b = d := by
        by_contra hd
        rw [others b hb hc hd] at on
        cases on
      rw [here, ← hy]
      exact below
  rw [← settled, ← ht] at rest values
  have counterC : v.counter c = { x with value := 0 } := by rw [same, counter, if_pos rfl]
  have counterD : v.counter d = y := by rw [same, counter, if_neg apart, hy]
  unfold CountersOnly at rest
  refine ⟨?_, ?_, ?_, ?_, ?_, ?_, ?_⟩
  · rw [values, if_pos number, if_neg, counterC]
    rw [counterC, countedBy_iff]
    exact fun h => other (event.symm.trans h.2.1)
  · rw [values, if_pos hd, if_pos, counterD, Counter.took, if_pos count]
    rw [counterD, countedBy_iff]
    refine ⟨counts, drops, ?_⟩
    rw [all]
    trivial
  · rw [rest]
    exact group.trans (hw ▸ rfl)
  · rw [rest]
    exact mic
  · rw [rest]
    exact stamp
  · rw [rest]
    exact room
  · rw [rest]
    exact link.trans (hw ▸ rfl)

end

end State

end Sys2Proof.Machine
end

section
/-! SUPPORT. Lists that a merge joins, and the rooms that a merge or a split has formed: what the rest of the procedure leaves of them
(R39 to R57). -/

namespace Sys2Proof.Machine

/-! ## Joined lists -/

theorem mergeBy_perm {α : Type} (f : α → Nat) (xs ys : List α) : (mergeBy f xs ys).Perm (xs ++ ys) := by
  induction xs generalizing ys with
  | nil => exact .refl _
  | cons x xs ih =>
    have split := List.takeWhile_append_dropWhile (p := fun y => decide (f y < f x)) (l := ys)
    rw [mergeBy]
    generalize ys.takeWhile (fun y => decide (f y < f x)) = before at split
    generalize ys.dropWhile (fun y => decide (f y < f x)) = after at split
    rw [← split]
    refine List.perm_middle.trans (.cons x ((List.Perm.append_left before (ih after)).trans ?_))
    show (before ++ (xs ++ after)).Perm (xs ++ (before ++ after))
    rw [← List.append_assoc, ← List.append_assoc]
    exact List.perm_append_comm.append_right _

/-- There is one way to join two ascending lists. -/
theorem mergeBy_eq_of_joined {α : Type} {f : α → Nat} {xs ys l : List α} (joined : JoinedBy f xs ys l)
    (hx : xs.Pairwise (fun x y => f x < f y)) (hy : ys.Pairwise (fun x y => f x < f y)) : mergeBy f xs ys = l := by
  obtain ⟨perm, rising⟩ := joined
  have values : ((xs ++ ys).map f).Nodup :=
    (perm.map f).nodup_iff.1 (List.pairwise_map.2 (rising.imp fun h => Nat.ne_of_lt h))
  have apart : ∀ x ∈ xs, ∀ y ∈ ys, f x ≠ f y := fun x hx y hy e => by
    rw [List.map_append] at values
    exact List.disjoint_of_nodup_append values (List.mem_map_of_mem hx) (e ▸ List.mem_map_of_mem hy)
  refine List.Perm.eq_of_pairwise (le := fun x y => f x < f y) (fun x y _ _ h k => absurd k (by omega))
    (mergeBy_rising hx hy apart) rising ((mergeBy_perm f xs ys).trans perm.symm)

theorem joinedBy_mergeBy {α : Type} {f : α → Nat} {xs ys : List α} (hx : xs.Pairwise (fun x y => f x < f y))
    (hy : ys.Pairwise (fun x y => f x < f y)) (apart : ∀ x ∈ xs, ∀ y ∈ ys, f x ≠ f y) : JoinedBy f xs ys (mergeBy f xs ys) :=
  ⟨mergeBy_perm f xs ys, mergeBy_rising hx hy apart⟩

/-! ## Rooms that only grow -/

/-- A room context without the lists, the pointer and the priority, which the work of the floor alters. -/
def Room.steady (r : Room) : Room := { r with live := [], queue := [], rotation := none, priority := false }

namespace State

section
variable {s t u : State} {n a b : Nat} {r : Room}

/-- From `s` to `t` no segment has changed its room and no room has come; every room is as it was, but for its queue, its pointer and
its priority, and seats that have joined the tail of its live list. -/
structure Extends (s t : State) : Prop where
  map : t.hall.segmentMap = s.hall.segmentMap
  none : ∀ b, s.room b = none → t.room b = none
  rooms : ∀ b r, s.room b = some r → ∃ x, t.room b = some x ∧ x.steady = r.steady ∧ ∃ more, x.live = r.live ++ more

namespace Extends

theorem of_hall (h : t.hall = s.hall) : s.Extends t where
  map := by rw [h]
  none b hb := by
    unfold State.room
    rwa [h]
  rooms b r hb := by
    refine ⟨r, ?_, rfl, [], (List.append_nil _).symm⟩
    unfold State.room
    rwa [h]

theorem refl (s : State) : s.Extends s := of_hall rfl

theorem trans (h : s.Extends t) (k : t.Extends u) : s.Extends u where
  map := k.map.trans h.map
  none b hb := k.none b (h.none b hb)
  rooms b r hb := by
    obtain ⟨x, hx, same, more, live⟩ := h.rooms b r hb
    obtain ⟨y, hy, same', more', live'⟩ := k.rooms b x hx
    exact ⟨y, hy, same'.trans same, more ++ more', by rw [live', live, List.append_assoc]⟩

theorem fold {α : Type} {f : State → α → State} (hf : ∀ (v : State) x, v.Extends (f v x)) (xs : List α) (s : State) :
    s.Extends (xs.foldl f s) := by
  induction xs generalizing s with
  | nil => exact refl s
  | cons x xs ih => exact (hf s x).trans (ih _)

theorem of_sheds (h : s.Sheds t) : s.Extends t where
  map := by rw [h.hall]
  none := h.noRoom
  rooms b r hb := by
    obtain ⟨q, hq, -⟩ := h.room b r hb
    exact ⟨_, hq, rfl, [], (List.append_nil _).symm⟩

theorem anchorOf (h : s.Extends t) (k : Nat) : t.anchorOf k = s.anchorOf k := by
  unfold State.anchorOf
  rw [h.map]

/-- A room's lists, pointer or priority are written, and its live list at most grows. -/
theorem modRoom (a : Nat) {f : Room → Room} (hf : ∀ r : Room, (f r).steady = r.steady ∧ ∃ more, (f r).live = r.live ++ more) :
    s.Extends (s.modRoom a f) := by
  cases hr : s.room a with
  | none => rw [modRoom_of_none hr f]; exact refl s
  | some r =>
    rw [modRoom_of_room hr]
    refine ⟨rfl, fun b hb => ?_, fun b q hb => ?_⟩
    · rw [setRoom_room, if_neg, hb]
      rintro rfl
      rw [hr] at hb
      cases hb
    · rw [setRoom_room]
      split
      · subst_vars
        obtain rfl : q = r := Option.some.inj (hb.symm.trans hr)
        exact ⟨_, rfl, hf q⟩
      · exact ⟨q, hb, rfl, [], (List.append_nil _).symm⟩

theorem modSeatRoom (n : Nat) {f : Room → Room} (hf : ∀ r : Room, (f r).steady = r.steady ∧ ∃ more, (f r).live = r.live ++ more) :
    s.Extends (s.modSeatRoom n f) := by
  unfold State.modSeatRoom
  split
  · exact refl s
  · exact modRoom _ hf

theorem note (x : Notice) : s.Extends (s.note x) := of_hall rfl
theorem setSeat (n : Nat) (x : Seat) : s.Extends (s.setSeat n x) := of_hall rfl
theorem raise (o : Occurrence) : s.Extends (s.raise o) := of_hall rfl
theorem settleCounts : s.Extends s.settleCounts := of_sheds .settleCounts

theorem unqueue (n : Nat) : s.Extends (s.unqueue n) :=
  (modSeatRoom n (f := fun r => { r with queue := r.queue.filter (fun e => e.seat ≠ n) })
    fun _ => ⟨rfl, [], (List.append_nil _).symm⟩).trans (setSeat n _)

theorem enterOpening (n : Nat) (c : MicCause) (g : Option Nat) : s.Extends (s.enterOpening n c g) := by
  have counted : ∀ u : State, u.Extends u.countOpening := fun u => of_hall rfl
  unfold State.enterOpening
  dsimp only
  refine .trans (.trans (.trans (.trans (.trans ?_ (setSeat n _)) (counted _)) (modSeatRoom n (f := fun r => { r with live := r.live ++ [n] }) fun r => ⟨rfl, [n], rfl⟩)) (note _))
    (of_sheds (.reseat n))
  split
  · exact unqueue n
  · exact refl s

theorem takeCandidate (a : Nat) (e : Entry) (c : MicCause) : s.Extends (s.takeCandidate a e c) :=
  (enterOpening _ c .none).trans (modRoom a (f := fun r => { r with rotation := some e.segment }) fun _ => ⟨rfl, [], (List.append_nil _).symm⟩)

theorem promoteRun (fuel a : Nat) (s : State) : s.Extends (Machine.promoteRun fuel a s) := by
  induction fuel generalizing s with
  | zero => exact refl s
  | succ fuel ih =>
    unfold Machine.promoteRun
    split
    · exact refl s
    · split
      · split
        · exact refl s
        · split
          · exact refl s
          · exact (takeCandidate a _ _).trans (ih _)
      · exact refl s

theorem promote (a : Nat) : s.Extends (s.promote a) := by
  unfold State.promote
  split
  · exact refl s
  · exact promoteRun _ a s

theorem mute (n : Nat) : s.Extends (s.mute n) := (setSeat n _).trans (note _)

theorem enterClosing (n : Nat) (c : MicCause) : s.Extends (s.enterClosing n c) :=
  ((setSeat n _).trans (note _)).trans (of_sheds (.reseat n))

theorem refusePress (n : Nat) (c : RefusedCause) : s.Extends (s.refusePress n c) := ((note _).trans (raise _)).trans settleCounts

theorem muteAll (a : Nat) : s.Extends (s.muteAll a) := by
  unfold State.muteAll
  split
  · exact refl s
  · exact fold (fun _ n => mute n) _ _

theorem closeAll (a : Nat) : s.Extends (s.closeAll a) := by
  unfold State.closeAll
  split
  · exact refl s
  · exact fold (fun _ n => enterClosing n _) _ _

theorem act (a : Nat) : s.Extends (s.act a) := by
  unfold State.act
  split
  · exact refl s
  · split
    · exact muteAll a
    · exact closeAll a
    · exact (closeAll a).trans (of_sheds (.emptyQueue a _))

theorem openChair (n : Nat) (c : MicCause) : s.Extends (s.openChair n c) := by
  unfold State.openChair
  split
  · split
    · exact enterOpening n c .none
    · exact refusePress n _
  · exact refl s

theorem activate (a : Nat) (chairs : List Nat) : s.Extends (s.activate a chairs) := by
  unfold State.activate
  split
  · exact refl s
  · refine .trans ?_ (fold (fun _ n => openChair n _) _ _)
    split
    · exact refl s
    · exact (modRoom a (f := fun r => { r with priority := true }) fun _ => ⟨rfl, [], (List.append_nil _).symm⟩).trans (act a)

theorem setBooth (b : Nat) (x : Booth) : s.Extends (s.setBooth b x) := of_hall rfl

theorem relisten (b : Nat) : s.Extends (s.relisten b) := by
  unfold State.relisten
  dsimp only
  split
  · exact refl s
  · split
    · exact (((setBooth b _).trans (note _)).trans (raise _)).trans settleCounts
    · exact (setBooth b _).trans (note _)
    · exact setBooth b _

theorem reconsole (c : Nat) : s.Extends (s.reconsole c) := of_hall (Shown.reconsole c).hall

theorem relistenIn (segments : List Nat) : s.Extends (s.relistenIn segments) := fold (fun _ b => relisten b) _ _

theorem reconsoleIn (segments : List Nat) : s.Extends (s.reconsoleIn segments) := fold (fun _ c => reconsole c) _ _

theorem boothWork (a : Nat) : s.Extends (s.boothWork a) := (relistenIn _).trans (reconsoleIn _)

theorem queueMaps (ks : List Nat) : s.Extends (s.queueMaps ks) := of_hall (OnDist.queueMaps ks).hall

theorem trimQueue (cut : List Entry) : s.Extends (s.trimQueue cut) := by
  unfold State.trimQueue
  exact fold (f := fun (v : State) (e : Entry) => v.dropNow e.seat .mergeOverflow) (fun v e => of_sheds (Sheds.dropNow (s := v) e.seat .mergeOverflow)) cut s

theorem releaseCounts : s.Extends s.releaseCounts := by
  unfold State.releaseCounts
  exact trans (t := { s with counts := { s.counts with deferring := false } }) (of_hall rfl) settleCounts

end Extends

end

end State

end Sys2Proof.Machine
end

section
/-! SUPPORT. The steps of a merge or a split, in which the occurrences are held back (R190): what each of them leaves. -/

namespace Sys2Proof.Machine

namespace State

section
variable {s t u : State} {n m a b c : Nat} {r : Room}

theorem settleCounts_of_deferring (h : s.counts.deferring = true) : s.settleCounts = s := if_pos h

/-- With no counter enabled nothing is counted at the end of the procedure either. -/
theorem releaseCounts_of_off (off : ∀ c ∈ counterNumbers, (s.counter c).enabled = false) :
    s.releaseCounts = { s with counts := { s.counts with deferring := false, raised := [] } } :=
  addOccurrences_of_off (s := { s with counts := { s.counts with deferring := false } }) (os := s.counts.raised) off _

/-! ## Work beside the hall and the floor -/

/-- From `s` to `t` neither hall nor floor nor counter nor unit has changed; occurrences may have been raised. -/
structure Aside (s t : State) : Prop where
  hall : t.hall = s.hall
  floor : t.floor = s.floor
  counts : t.counts = { s.counts with raised := t.counts.raised }
  queues : s.QueuesOnly t

namespace Aside

theorem refl (s : State) : s.Aside s := ⟨rfl, rfl, rfl, .refl s⟩

theorem trans (h : s.Aside t) (k : t.Aside u) : s.Aside u :=
  ⟨k.hall.trans h.hall, k.floor.trans h.floor, by rw [k.counts, h.counts], h.queues.trans k.queues⟩

theorem deferring (h : s.Aside t) : t.counts.deferring = s.counts.deferring := by rw [h.counts]

theorem counter (h : s.Aside t) (c : Nat) : t.counter c = s.counter c := by
  unfold State.counter
  rw [h.counts]

theorem room (h : s.Aside t) (a : Nat) : t.room a = s.room a := by
  unfold State.room
  rw [h.hall]

theorem seat (h : s.Aside t) (n : Nat) : t.seat n = s.seat n := by
  unfold State.seat
  rw [h.floor]

theorem fold {α : Type} {f : State → α → State} (hf : ∀ (v : State) x, v.counts.deferring = true → v.Aside (f v x)) (xs : List α)
    (held : s.counts.deferring = true) : s.Aside (xs.foldl f s) := by
  induction xs generalizing s with
  | nil => exact refl s
  | cons x xs ih => exact (hf s x held).trans (ih ((hf s x held).deferring.trans held))

theorem of_onDist (h : s.OnDist t) : s.Aside t := ⟨h.hall, h.floor, by rw [h.counts], h.queues⟩

theorem of_onBooths (h : s.OnBooths t) : s.Aside t := ⟨h.shown.hall, h.seats, by rw [h.shown.counts], h.works.queues⟩

/-- A booth that falls back raises an occurrence, which waits. -/
theorem relisten (held : s.counts.deferring = true) (b : Nat) : s.Aside (s.relisten b) := by
  have raised : ∀ (v : State) (o : Occurrence), v.counts.deferring = true → v.Aside (v.raise o).settleCounts := fun v o hv => by
    rw [settleCounts_of_deferring (s := v.raise o) hv]
    exact ⟨rfl, rfl, rfl, .refl v⟩
  have listens : ∀ x : Listen, s.Aside (s.setBooth b { s.boothAt b with listen := x }) := fun x => of_onBooths (.setListen b x)
  have noted : ∀ (v : State) (x : Notice), v.Aside (v.note x) := fun v x => of_onDist (.note x)
  unfold State.relisten
  dsimp only
  split
  · exact refl s
  · split
    · exact ((listens _).trans (noted _ _)).trans (raised _ _ held)
    · exact (listens _).trans (noted _ _)
    · exact listens _

theorem relistenIn (held : s.counts.deferring = true) (segments : List Nat) : s.Aside (s.relistenIn segments) :=
  fold (fun _ b hv => relisten hv b) _ held

theorem reconsoleIn (segments : List Nat) : s.Aside (s.reconsoleIn segments) :=
  of_onBooths (.fold (fun _ c => .reconsole c) _ _)

theorem boothWork (held : s.counts.deferring = true) (a : Nat) : s.Aside (s.boothWork a) :=
  (relistenIn held _).trans (reconsoleIn _)

theorem rekeyOwner (c : Nat) (key : Key) : s.OnBooths (s.rekeyOwner c key) := by
  unfold State.rekeyOwner
  split
  · exact .setConsole c _
  · exact .refl s

theorem displace (c : Nat) (k : DisplacedCause) (a : Nat) (key : Key) : s.OnBooths (s.displace c k a key) :=
  (OnBooths.moveConsole c _ _).trans (.note _)

theorem mergeChannels (p q : Room) (codes cut : List Nat) : s.OnDist (s.mergeChannels p q codes cut) :=
  ((OnDist.fold (fun _ _ => .rekey _ _) _ _).trans (.removeChannels _)).trans (.makeChannels _)

theorem mergeOwners (p q : Room) (codes cut kept : List Nat) : s.OnBooths (s.mergeOwners p q codes cut kept) := by
  unfold State.mergeOwners
  refine ((OnBooths.fold (fun v x => ?_) _ _).trans (OnBooths.fold (fun v x => ?_) _ _)).trans (OnBooths.fold (fun v x => ?_) _ _)
  · split
    · exact .refl v
    · exact displace _ _ _ _
  · split
    · exact .refl v
    · exact rekeyOwner _ _
  · split
    · exact .refl v
    · exact displace _ _ _ _

theorem mergeLanguages (p q m : Room) (kept : List Nat) : s.Shown (s.mergeLanguages p q m kept) ∧ s.Aside (s.mergeLanguages p q m kept) := by
  unfold State.mergeLanguages
  dsimp only
  split
  · have channels := mergeChannels (s := s) p q m.profile.languages (mergedLanguages p.profile.languages q.profile.languages).2
    generalize s.mergeChannels p q m.profile.languages (mergedLanguages p.profile.languages q.profile.languages).2 = v at channels
    have owners := mergeOwners (s := v) p q m.profile.languages (mergedLanguages p.profile.languages q.profile.languages).2 kept
    exact ⟨(Shown.of_same channels.hall channels.floor channels.counts).trans owners.shown,
      (of_onDist channels).trans (of_onBooths owners)⟩
  · exact ⟨.refl s, refl s⟩

theorem installs (h : s.Aside t) : s.Installs t := .of_same (congrArg FloorUnit.seats h.floor) h.queues

end Aside

/-! ## The entries that are cut (R44) -/

theorem unqueued_counts {c : DropCause} : (s.unqueued n c).counts = s.counts := OnFloor.unqueued.counts

theorem Installs.modSeatRoom (n : Nat) (f : Room → Room) : s.Installs (s.modSeatRoom n f) :=
  of_same (congrArg FloorUnit.seats (modSeatRoom_floor n f)) (OnFloor.modSeatRoom n f).queues

theorem Installs.unqueue (n : Nat) : s.Installs (s.unqueue n) := by
  have same : (s.modSeatRoom n (fun r => { r with queue := r.queue.filter (fun e => e.seat ≠ n) })).seat n = s.seat n := by
    unfold State.seat
    rw [modSeatRoom_floor]
  exact (modSeatRoom n _).trans (setSeat (congrArg Seat.fixed same.symm :))

theorem Installs.unqueued {c : DropCause} : s.Installs (s.unqueued n c) :=
  ((Installs.unqueue n).trans (Installs.setSeat (n := n) (x := { (s.unqueue n).seat n with mic := .idle }) rfl)).trans
    (.of_same rfl (.refl _))

theorem dropNow_of_deferring (held : s.counts.deferring = true) (c : DropCause) : s.dropNow n c =
    ((s.unqueued n c).reseat n).raise ⟨.requestDropped, (s.seat n).segment, some (seatBus n), some n⟩ := by
  have counts : ((s.unqueued n c).reseat n).counts = s.counts := (OnFloor.reseat n).counts.trans unqueued_counts
  have segment : ((s.unqueued n c).seat n).segment = (s.seat n).segment := by rw [unqueued_seat, if_pos rfl]
  rw [dropNow_eq, segment]
  exact settleCounts_of_deferring (by rw [raise_counts_deferring, counts, held])

/-- The seats of the entries that are cut are IDLE without a stamp, and no room loses anything where they wait in none. -/
theorem trimQueue_of_deferring (cut : List Entry) (held : s.counts.deferring = true)
    (out : ∀ e ∈ cut, ∀ b r, s.seatAnchor e.seat = some b → s.room b = some r → ∀ f ∈ r.queue, f.seat ≠ e.seat) :
    (∀ b, (s.trimQueue cut).room b = s.room b) ∧ (s.trimQueue cut).hall.segmentMap = s.hall.segmentMap ∧
      ∀ m, (s.trimQueue cut).seat m = if ∃ e ∈ cut, e.seat = m then
        { s.seat m with mic := .idle, stamp := none, indication := ((s.trimQueue cut).seat m).indication }
      else { s.seat m with indication := ((s.trimQueue cut).seat m).indication } := by
  induction cut generalizing s with
  | nil => exact ⟨fun _ => rfl, rfl, fun m => by rw [if_neg (by simp)]; rfl⟩
  | cons e cut ih =>
    obtain ⟨v, hv⟩ : ∃ v, v = s.dropNow e.seat .mergeOverflow := ⟨_, rfl⟩
    have dropped := dropNow_of_deferring (n := e.seat) held .mergeOverflow
    have floor : s.OnFloor ((s.unqueued e.seat .mergeOverflow).reseat e.seat) := OnFloor.unqueued.trans (.reseat _)
    have map : v.hall.segmentMap = s.hall.segmentMap := by
      rw [hv, dropped]
      exact (congrArg RoomUnit.segmentMap floor.hall :)
    have room : ∀ b, v.room b = s.room b := fun b => by
      have same : v.room b = (s.unqueue e.seat).room b := by
        rw [hv, dropped]
        show State.room (State.reseat _ _) b = _
        unfold State.room
        rw [reseat_hall]
        rfl
      rw [same]
      cases hr : s.room b with
      | none => exact unqueue_room_of_none hr
      | some r =>
        rw [unqueue_room_of_some hr]
        split
        · next here =>
          rw [List.filter_eq_self.2 fun f hf => decide_eq_true (out e List.mem_cons_self b r here hr f hf)]
        · rfl
    have seat : ∀ m, v.seat m = if m = e.seat then
        { s.seat m with mic := .idle, stamp := none, indication := (v.seat m).indication } else s.seat m := fun m => by
      have same : v.seat m = ((s.unqueued e.seat .mergeOverflow).reseat e.seat).seat m := by rw [hv, dropped]; rfl
      rw [same, reseat_seat]
      split
      · subst_vars
        rw [unqueued_seat, if_pos rfl]
      · rw [unqueued_seat, if_neg ‹_›]
    have anchor : ∀ m, v.seatAnchor m = s.seatAnchor m := fun m => by
      have segment : (v.seat m).segment = (s.seat m).segment := by
        rw [seat]
        split <;> rfl
      unfold seatAnchor anchorOf
      rw [segment, map]
    have counts : v.counts.deferring = true := by
      rw [hv, dropped, raise_counts_deferring, floor.counts, held]
    obtain ⟨rooms, maps, seats⟩ := ih counts fun f hf b r hb hr => by
      rw [anchor] at hb
      rw [room] at hr
      exact out f (List.mem_cons_of_mem e hf) b r hb hr
    have tail : s.trimQueue (e :: cut) = v.trimQueue cut := by rw [hv]; rfl
    rw [tail]
    refine ⟨fun b => (rooms b).trans (room b), maps.trans map, fun m => ?_⟩
    have now := seat m
    refine (seats m).trans ?_
    by_cases here : m = e.seat
    · rw [if_pos here] at now
      rw [if_pos (c := ∃ f ∈ e :: cut, f.seat = m) ⟨e, List.mem_cons_self, here.symm⟩]
      split <;> rw [now]
    · rw [if_neg here] at now
      rw [now]
      refine ite_congr (propext ?_) (fun _ => rfl) fun _ => rfl
      simp only [List.exists_mem_cons_iff, Ne.symm here, false_or]

theorem trimQueue_counts (cut : List Entry) (held : s.counts.deferring = true) :
    (s.trimQueue cut).counts = { s.counts with
      raised := s.counts.raised ++ (cut.map fun e =>
        ⟨.requestDropped, (s.seat e.seat).segment, some (seatBus e.seat), some e.seat⟩) } := by
  induction cut generalizing s with
  | nil => simp [trimQueue]
  | cons e cut ih =>
    have dropped := dropNow_of_deferring (n := e.seat) held .mergeOverflow
    have counts : ((s.unqueued e.seat .mergeOverflow).reseat e.seat).counts = s.counts :=
      (OnFloor.reseat _).counts.trans unqueued_counts
    have segment : ∀ m, ((s.dropNow e.seat .mergeOverflow).seat m).segment = (s.seat m).segment := fun m =>
      (Works.of_sheds (Sheds.dropNow (s := s) e.seat .mergeOverflow)).seat_segment m
    have tail : s.trimQueue (e :: cut) = (s.dropNow e.seat .mergeOverflow).trimQueue cut := rfl
    rw [tail, ih (by rw [dropped, raise_counts_deferring, counts, held])]
    simp only [segment]
    rw [dropped]
    simp [raise, counts]

/-! ## Mutes (R45, R102) -/

theorem mute_seat (n m : Nat) : (s.mute n).seat m = if m = n then { s.seat n with muted := true } else s.seat m := setSeat_seat ..

theorem foldl_mute_seat (ns : List Nat) (s : State) (m : Nat) :
    (ns.foldl mute s).seat m = { s.seat m with muted := (s.seat m).muted || decide (m ∈ ns) } := by
  induction ns generalizing s with
  | nil => simp
  | cons n ns ih =>
    rw [List.foldl_cons, ih, mute_seat]
    by_cases here : m = n
    · subst here
      simp
    · simp [here]

theorem muteAll_of_room (hr : s.room a = some r) : s.muteAll a =
    (r.live.filter (fun n => (s.seat n).cls = .delegate && (s.seat n).mic = .live && !(s.seat n).muted)).foldl mute s := by
  unfold muteAll
  rw [hr]

theorem muteAll_hall (a : Nat) : (s.muteAll a).hall = s.hall := by
  unfold muteAll
  split
  · rfl
  · exact foldl_hall (f := mute) (fun _ _ => rfl) _ _

theorem OnFloor.mute (n : Nat) : s.OnFloor (s.mute n) := (OnFloor.setSeat n _).trans (.note _)

theorem OnFloor.muteAll (a : Nat) : s.OnFloor (s.muteAll a) := by
  unfold State.muteAll
  split
  · exact refl s
  · exact fold (fun _ n => mute n) _ _

/-- The LIVE delegates of the live list are muted (R102). -/
theorem muteAll_seat (hr : s.room a = some r) (m : Nat) : (s.muteAll a).seat m = { s.seat m with
    muted := (s.seat m).muted || decide (m ∈ r.live ∧ (s.seat m).cls = .delegate ∧ (s.seat m).mic = .live) } := by
  rw [muteAll_of_room hr, foldl_mute_seat]
  cases muted : (s.seat m).muted <;> simp [muted]

/-! ## Chairs that hold PRIORITY keep doing so -/

namespace Installs

theorem noteMic (n : Nat) (old : Mic) (c : MicCause) : s.Installs (s.noteMic n old c) := of_same rfl (.refl _)

theorem mute (n : Nat) : s.Installs (s.mute n) := (setSeat (x := { s.seat n with muted := true }) rfl).trans (of_same rfl (.refl _))

theorem muteAll (a : Nat) : s.Installs (s.muteAll a) := by
  unfold State.muteAll
  split
  · exact refl s
  · exact fold (fun _ n => mute n) _ _

theorem dropNow (held : s.counts.deferring = true) (c : DropCause) : s.Installs (s.dropNow n c) := by
  rw [dropNow_of_deferring held]
  exact (unqueued.trans (reseat n)).trans (of_same rfl (.refl _))

theorem trimQueue (cut : List Entry) (held : s.counts.deferring = true) : s.Installs (s.trimQueue cut) := by
  induction cut generalizing s with
  | nil => exact refl s
  | cons e cut ih =>
    refine (dropNow held .mergeOverflow).trans (ih ?_)
    have counts := trimQueue_counts [e] held
    exact (congrArg CounterUnit.deferring counts :).trans held

theorem enterOpening (n : Nat) (c : MicCause) (g : Option Nat) : s.Installs (s.enterOpening n c g) := by
  rw [enterOpening_eq_openAs]
  have left : s.Installs (if (s.seat n).mic = .queued then s.unqueue n else s) := by
    split
    · exact unqueue n
    · exact refl s
  refine left.trans ?_
  generalize (if (s.seat n).mic = .queued then s.unqueue n else s) = v
  generalize (s.seat n).mic = old
  have counted : ∀ w : State, w.Installs w.countOpening := fun w => of_same rfl (.refl w)
  have placed : v.Installs (v.setSeat n { v.seat n with
      mic := .opening, slot := v.freeSlot (seatBus n), openingNumber := some v.floor.openingCount, grant := g }).countOpening := by
    refine trans ?_ (counted _)
    exact setSeat rfl
  unfold openAs
  refine placed.trans ?_
  generalize State.countOpening _ = w
  exact ((modSeatRoom (s := w) n _).trans (noteMic n old c)).trans (reseat n)

theorem modRoom (a : Nat) (f : Room → Room) : s.Installs (s.modRoom a f) :=
  of_same (congrArg FloorUnit.seats (modRoom_floor a f)) (OnFloor.modRoom a f).queues

theorem promoteRun (fuel a : Nat) (s : State) : s.Installs (Machine.promoteRun fuel a s) := by
  induction fuel generalizing s with
  | zero => exact refl s
  | succ fuel ih =>
    unfold Machine.promoteRun
    split
    · exact refl s
    · split
      · split
        · exact refl s
        · split
          · exact refl s
          · exact ((enterOpening _ _ .none).trans (modRoom a _)).trans (ih _)
      · exact refl s

theorem promote (a : Nat) : s.Installs (s.promote a) := by
  unfold State.promote
  split
  · exact refl s
  · exact promoteRun _ a s

end Installs

end

end State

end Sys2Proof.Machine
end

section
/-! SUPPORT. The merge (R39 to R49): the room it leaves, and its floor where nothing is promoted. -/

namespace Sys2Proof.Machine

namespace State

section
variable {s t u v : State} {n a b c : Nat} {p q r m : Room}

/-! ## The room table of a merge -/

/-- Steps 1 and 2 of a merge (R39, R40): Q's room is gone, P's is the merged one, and Q's segments map to it. -/
def oneRoom (s : State) (p q m : Room) : State :=
  (q.segments.foldl (fun v k => v.setAnchor k (some p.anchor))
    ((s.holdCounts.setRoom q.anchor none).setRoom p.anchor (some m))).keepAnchors

theorem oneRoom_room : (s.oneRoom p q m).room b = if b = p.anchor then some m else if b = q.anchor then none else s.room b := by
  obtain ⟨map, eq, -⟩ := foldl_setAnchor q.segments ((s.holdCounts.setRoom q.anchor none).setRoom p.anchor (some m)) (some p.anchor)
  unfold oneRoom
  rw [eq]
  show ((s.holdCounts.setRoom q.anchor none).setRoom p.anchor (some m)).room b = _
  rw [setRoom_room, setRoom_room]
  rfl

theorem oneRoom_anchorOf : (s.oneRoom p q m).anchorOf n = if n ∈ q.segments then some p.anchor else s.anchorOf n := by
  obtain ⟨map, eq, anchor⟩ := foldl_setAnchor q.segments ((s.holdCounts.setRoom q.anchor none).setRoom p.anchor (some m))
    (some p.anchor)
  unfold oneRoom
  rw [eq]
  exact anchor n

theorem oneRoom_rest : ∃ hall dist, s.oneRoom p q m = { s with hall := hall, dist := dist, counts := { s.counts with deferring := true } } := by
  obtain ⟨map, eq, -⟩ := foldl_setAnchor q.segments ((s.holdCounts.setRoom q.anchor none).setRoom p.anchor (some m)) (some p.anchor)
  unfold oneRoom
  rw [eq]
  exact ⟨_, _, rfl⟩

theorem oneRoom_floor : (s.oneRoom p q m).floor = s.floor := by
  obtain ⟨hall, dist, eq⟩ := s.oneRoom_rest (p := p) (q := q) (m := m)
  rw [eq]

theorem oneRoom_counts : (s.oneRoom p q m).counts = { s.counts with deferring := true } := by
  obtain ⟨hall, dist, eq⟩ := s.oneRoom_rest (p := p) (q := q) (m := m)
  rw [eq]

theorem oneRoom_buses : (s.oneRoom p q m).buses = s.buses := by
  obtain ⟨hall, dist, eq⟩ := s.oneRoom_rest (p := p) (q := q) (m := m)
  rw [eq]

theorem oneRoom_seat : (s.oneRoom p q m).seat n = s.seat n := by
  unfold State.seat
  rw [oneRoom_floor]

theorem OnDist.noteMergeStates (p q : Room) : s.OnDist (s.noteMergeStates p q) := by
  unfold State.noteMergeStates
  dsimp only
  split <;> split
  · exact refl s
  · exact note _
  · exact note _
  · exact (note _).trans (note _)

/-- The maps, the notices and the indications of steps 1 to 4. -/
theorem mergeRooms_shown : (s.oneRoom p q m).Shown (s.mergeRooms p q m) ∧ (s.oneRoom p q m).Installs (s.mergeRooms p q m) := by
  have eq : s.mergeRooms p q m = (((s.oneRoom p q m).queueMaps m.segments).noteMergeStates p q).reformAll
    (((s.oneRoom p q m).queueMaps m.segments).turnedSeats p m ++ ((s.oneRoom p q m).queueMaps m.segments).turnedSeats q m) := rfl
  rw [eq]
  generalize ((s.oneRoom p q m).queueMaps m.segments).turnedSeats p m ++ ((s.oneRoom p q m).queueMaps m.segments).turnedSeats q m = ns
  have noted := (OnDist.queueMaps (s := s.oneRoom p q m) m.segments).trans (.noteMergeStates p q)
  exact ⟨(Shown.of_same noted.hall noted.floor noted.counts).trans (.reformAll ns), noted.installs.trans (.reformAll ns)⟩

/-! ## What the rest of the merge leaves of the rooms -/

theorem Extends.mergePriority (a : Nat) (p q m : Room) : s.Extends (s.mergePriority a p q m) := by
  unfold State.mergePriority
  split
  · exact activate a _
  · exact refl s

theorem Extends.mergeInto : (s.oneRoom p q m).Extends (s.mergeInto p q m) := by
  have floor : ∀ (v : State) (cut : List Entry), v.Extends (v.mergeFloor p.anchor m cut) := fun v cut => by
    unfold State.mergeFloor
    split
    · exact (trimQueue cut).trans (muteAll p.anchor)
    · exact trimQueue cut
  have languages : ∀ (v : State) (kept : List Nat), v.Extends (v.mergeLanguages p q m kept) := fun v kept =>
    of_hall (Aside.mergeLanguages p q m kept).1.hall
  have ended : ∀ v : State, v.Extends (v.mergeEnd p.anchor m) := fun v =>
    (((queueMaps m.segments).trans (boothWork p.anchor)).trans (promote p.anchor)).trans releaseCounts
  exact ((((of_hall mergeRooms_shown.1.hall).trans (floor _ _)).trans (languages _ _)).trans (ended _)).trans
    (mergePriority p.anchor p q m)

/-! ## The merged room -/

theorem higher_eq (x y : Session) : x.higher y = x ∨ x.higher y = y := by
  unfold Session.higher
  split
  · exact .inr rfl
  · exact .inl rfl

theorem rank_le_higher (x y : Session) : x.rank ≤ (x.higher y).rank ∧ y.rank ≤ (x.higher y).rank := by
  unfold Session.higher
  split <;> omega

theorem shorterTimer_none_right (x : Option RoomTimer) : shorterTimer x none = x := by cases x <;> rfl

theorem shorterTimer_some (x y : RoomTimer) : shorterTimer (some x) (some y) = if y.left < x.left then some y else some x := rfl

/-! ## The parts of a merge -/

/-- Steps 1 to 6 (R39 to R45 (1)). -/
def mergedFloor (s : State) (p q m : Room) : State := (s.mergeRooms p q m).mergeFloor p.anchor m (cutEntries p q)

/-- Steps 1 to 8, with the maps and the work of the booth unit of step 9. -/
def mergedAll (s : State) (p q m : Room) : State :=
  (((s.mergedFloor p q m).mergeLanguages p q m
    (p.profile.languages.filter (fun c => s.hasChannel ⟨p.anchor, c⟩))).queueMaps m.segments).boothWork p.anchor

theorem mergeInto_eq : s.mergeInto p q m =
    (((s.mergedAll p q m).promote p.anchor).releaseCounts).mergePriority p.anchor p q m := rfl

theorem merge_of_rooms (hp : s.room a = some p) (hq : s.room b = some q) : s.merge a b = s.mergeInto p q (mergedRoom s p q) := by
  unfold merge
  rw [hp, hq]

theorem mergeRooms_counts : (s.mergeRooms p q m).counts = { s.counts with deferring := true } :=
  mergeRooms_shown.1.counts.trans oneRoom_counts

theorem mergeRooms_seat : (s.mergeRooms p q m).seat n = { s.seat n with indication := ((s.mergeRooms p q m).seat n).indication } := by
  rw [mergeRooms_shown.1.seats, oneRoom_seat]

theorem mergeRooms_deferring : (s.mergeRooms p q m).counts.deferring = true := by rw [mergeRooms_counts]

/-- The drops of the entries that are cut wait to be counted, and nothing else does. -/
theorem mergedFloor_counts : (s.mergedFloor p q m).counts = { s.counts with
    deferring := true
    raised := s.counts.raised ++ ((cutEntries p q).map fun e =>
      ⟨.requestDropped, (s.seat e.seat).segment, some (seatBus e.seat), some e.seat⟩) } := by
  have cut := trimQueue_counts (s := s.mergeRooms p q m) (cutEntries p q) mergeRooms_deferring
  have segment : ∀ n, ((s.mergeRooms p q m).seat n).segment = (s.seat n).segment := fun n => by rw [mergeRooms_seat]
  simp only [segment, mergeRooms_counts] at cut
  unfold mergedFloor mergeFloor
  split
  · rw [(OnFloor.muteAll p.anchor).counts, cut]
  · exact cut

theorem Installs.mergedFloor : s.Installs (s.mergedFloor p q m) := by
  have table : s.Installs (s.oneRoom p q m) := .of_same (congrArg FloorUnit.seats oneRoom_floor) (.of_buses oneRoom_buses)
  have cut := Installs.trimQueue (s := s.mergeRooms p q m) (cutEntries p q) mergeRooms_deferring
  refine (table.trans mergeRooms_shown.2).trans ?_
  unfold State.mergedFloor mergeFloor
  split
  · exact cut.trans (.muteAll _)
  · exact cut

theorem mergedAll_aside : (s.mergedFloor p q m).Aside (s.mergedAll p q m) := by
  have held : (s.mergedFloor p q m).counts.deferring = true := by rw [mergedFloor_counts]
  have channels := (Aside.mergeLanguages (s := s.mergedFloor p q m) p q m
    (p.profile.languages.filter (fun c => s.hasChannel ⟨p.anchor, c⟩))).2.trans (.of_onDist (.queueMaps m.segments))
  exact channels.trans (.boothWork (channels.deferring.trans held) p.anchor)

/-- No side brings priority where one side has it already, or where no chair holds PRIORITY. -/
theorem mergePriority_of_none (h : p.priority = true ∨ q.priority = true ∨ s.chairsHolding (p.segments ++ q.segments) = []) (a : Nat) :
    s.mergePriority a p q m = s := by
  unfold mergePriority
  refine if_neg fun brings => ?_
  simp only [Bool.and_eq_true, Bool.not_eq_true', Bool.or_eq_true, bringsPriority, decide_eq_true_eq] at brings
  obtain ⟨⟨⟨noP, noQ⟩, -⟩, side⟩ := brings
  rcases h with h | h | none
  · rw [h] at noP
    cases noP
  · rw [h] at noQ
    cases noQ
  · rw [chairsHolding_eq_nil] at none
    rcases side with ⟨-, some⟩ | ⟨-, some⟩
    · exact some (chairsHolding_eq_nil.2 fun x hx holds =>
        none x hx ⟨holds.1, holds.2.1, List.mem_append_left _ holds.2.2.1, holds.2.2.2⟩)
    · exact some (chairsHolding_eq_nil.2 fun x hx holds =>
        none x hx ⟨holds.1, holds.2.1, List.mem_append_right _ holds.2.2.1, holds.2.2.2⟩)

end

end State

end Sys2Proof.Machine
end

section
/-! SUPPORT. O16: a merge leaves one room. -/

namespace Sys2Proof.Machine

namespace State

section
variable {s t u v : State} {n a b c : Nat} {p q r m : Room}

/-! ## The floor of a merge (R43 to R45) -/

/-- The entries that are cut wait in no queue of a state that has the map and the rooms of the merge. -/
def CutOut (p q : Room) (v : State) : Prop :=
  ∀ e ∈ cutEntries p q, ∀ b r, v.seatAnchor e.seat = some b → v.room b = some r → ∀ f ∈ r.queue, f.seat ≠ e.seat

theorem mergeRooms_cutOut (rooms : s.RoomsOk) (right : s.EntriesRight) (hp : s.room a = some p) (hq : s.room b = some q)
    (pa : p.anchor = a) (distinct : (p.queue ++ q.queue).Pairwise (fun x y => x.seat ≠ y.seat)) :
    CutOut p q (s.mergeRooms p q (mergedRoom s p q)) := by
  intro e he c r anchor room f hf same
  have listed : e ∈ p.queue ∨ e ∈ q.queue := mem_mergeBy.1 (List.mem_of_mem_drop he)
  have here : (s.mergeRooms p q (mergedRoom s p q)).seatAnchor e.seat = some a := by
    have segment : ((s.mergeRooms p q (mergedRoom s p q)).seat e.seat).segment = (s.seat e.seat).segment := by rw [mergeRooms_seat]
    unfold seatAnchor
    rw [segment, mergeRooms_shown.1.anchorOf, oneRoom_anchorOf, pa]
    rcases listed with mine | other
    · rw [show s.anchorOf (s.seat e.seat).segment = some a from (right a p hp e mine).1, ite_self]
    · rw [if_pos ((rooms.map b q hq _).2 (right b q hq e other).1)]
  obtain rfl : c = a := Option.some.inj (anchor.symm.trans here)
  rw [mergeRooms_shown.1.room, oneRoom_room, if_pos pa.symm] at room
  obtain rfl := Option.some.inj room
  have seats : (mergeBy Entry.stamp p.queue q.queue).Pairwise (fun x y => x.seat ≠ y.seat) :=
    (List.Perm.pairwise_iff (fun h => Ne.symm h) (mergeBy_perm Entry.stamp p.queue q.queue)).2 distinct
  rw [← List.take_append_drop Config.queueLimit (mergeBy Entry.stamp p.queue q.queue)] at seats
  exact (List.pairwise_append.1 seats).2.2 f hf e he same

theorem mergedFloor_trimmed (out : CutOut p q (s.mergeRooms p q m)) :
    (∀ b, ((s.mergeRooms p q m).trimQueue (cutEntries p q)).room b = (s.oneRoom p q m).room b) ∧
      ∀ n, ((s.mergeRooms p q m).trimQueue (cutEntries p q)).seat n = if ∃ e ∈ cutEntries p q, e.seat = n then
        { s.seat n with
          mic := .idle, stamp := none
          indication := (((s.mergeRooms p q m).trimQueue (cutEntries p q)).seat n).indication }
      else { s.seat n with indication := (((s.mergeRooms p q m).trimQueue (cutEntries p q)).seat n).indication } := by
  obtain ⟨rooms, -, seats⟩ := trimQueue_of_deferring (s := s.mergeRooms p q m) _ mergeRooms_deferring out
  refine ⟨fun b => (rooms b).trans (mergeRooms_shown.1.room b), fun n => (seats n).trans ?_⟩
  rw [mergeRooms_seat]

theorem mergedFloor_room (out : CutOut p q (s.mergeRooms p q m)) : (s.mergedFloor p q m).room b = (s.oneRoom p q m).room b := by
  rw [← (mergedFloor_trimmed out).1]
  unfold mergedFloor mergeFloor
  split
  · unfold State.room
    rw [muteAll_hall]
  · rfl

/-- A seat whose entry is cut is IDLE without a stamp (R44 (2)). -/
theorem mergedFloor_seat_of_cut (out : CutOut p q (s.mergeRooms p q m)) (cut : ∃ e ∈ cutEntries p q, e.seat = n) :
    (s.mergedFloor p q m).seat n = { s.seat n with
      mic := .idle, stamp := none, indication := ((s.mergedFloor p q m).seat n).indication } := by
  obtain ⟨rooms, seats⟩ := mergedFloor_trimmed out
  have now := seats n
  rw [if_pos cut] at now
  unfold mergedFloor mergeFloor
  split
  · rw [muteAll_seat ((rooms p.anchor).trans (oneRoom_room.trans (if_pos rfl))), now]
    simp
  · exact now

/-- Every other seat keeps all but its indication and the mute of R45 (1). -/
theorem mergedFloor_seat_of_kept (out : CutOut p q (s.mergeRooms p q m)) (kept : ¬ ∃ e ∈ cutEntries p q, e.seat = n) :
    (s.mergedFloor p q m).seat n = { s.seat n with
      indication := ((s.mergedFloor p q m).seat n).indication
      muted := (s.seat n).muted || decide (m.priority = true ∧ m.profile.action = .muteAll ∧ n ∈ m.live ∧
        (s.seat n).cls = .delegate ∧ (s.seat n).mic = .live) } := by
  obtain ⟨rooms, seats⟩ := mergedFloor_trimmed out
  have now := seats n
  rw [if_neg kept] at now
  unfold mergedFloor mergeFloor
  split
  · next active =>
    simp only [Bool.and_eq_true, decide_eq_true_eq] at active
    rw [muteAll_seat ((rooms p.anchor).trans (oneRoom_room.trans (if_pos rfl))), now]
    simp only [active, true_and]
  · next inactive =>
    simp only [Bool.and_eq_true, decide_eq_true_eq] at inactive
    rw [now]
    simp only [← and_assoc, inactive, false_and, decide_false, Bool.or_false]

theorem mergedFloor_count (right : s.EntriesRight) (hp : s.room a = some p) (hq : s.room b = some q)
    (out : CutOut p q (s.mergeRooms p q m)) (n : Nat) : ((s.mergedFloor p q m).seat n).cls = (s.seat n).cls ∧
      ((s.mergedFloor p q m).seat n).mic.onFloor = (s.seat n).mic.onFloor := by
  by_cases cut : ∃ e ∈ cutEntries p q, e.seat = n
  · rw [mergedFloor_seat_of_cut out cut]
    obtain ⟨e, he, rfl⟩ := cut
    have queued : (s.seat e.seat).mic = .queued := by
      rcases mem_mergeBy.1 (List.mem_of_mem_drop he) with mine | other
      · exact (right a p hp e mine).2
      · exact (right b q hq e other).2
    exact ⟨rfl, by rw [queued]; rfl⟩
  · rw [mergedFloor_seat_of_kept out cut]
    exact ⟨rfl, rfl⟩

/-- Promotion is ruled out in the merged room by the mode, by the sessions or by the limit. -/
theorem mergedAll_promote (right : s.EntriesRight) (hp : s.room a = some p) (hq : s.room b = some q)
    (out : CutOut p q (s.mergeRooms p q (mergedRoom s p q)))
    (ruled : p.profile.floorMode = .chair ∨ (p.session ≠ .inSession ∧ q.session ≠ .inSession) ∨
      p.profile.openLimit ≤ s.delegateCount p + s.delegateCount q) :
    (s.mergedAll p q (mergedRoom s p q)).promote p.anchor = s.mergedAll p q (mergedRoom s p q) := by
  have aside := mergedAll_aside (s := s) (p := p) (q := q) (m := mergedRoom s p q)
  have room : (s.mergedAll p q (mergedRoom s p q)).room p.anchor = some (mergedRoom s p q) := by
    rw [aside.room, mergedFloor_room out, oneRoom_room, if_pos rfl]
  refine promote_of_not_promotes room (Bool.eq_false_iff.2 fun promotes => ?_)
  obtain ⟨session, mode, -, limit⟩ := promotes_iff.1 promotes
  have count : (s.mergedAll p q (mergedRoom s p q)).delegateCount (mergedRoom s p q) = s.delegateCount p + s.delegateCount q := by
    rw [delegateCount_congr (s := s) (r := mergedRoom s p q) rfl fun n _ => by
      rw [aside.seat]
      exact mergedFloor_count right hp hq out n]
    have joined : (mergedRoom s p q).live.Perm (p.live ++ q.live) := mergeBy_perm ..
    unfold delegateCount
    rw [(joined.filter _).length_eq, List.filter_append, List.length_append]
  have profile : (mergedRoom s p q).profile.floorMode = p.profile.floorMode ∧
    (mergedRoom s p q).profile.openLimit = p.profile.openLimit := ⟨rfl, rfl⟩
  rcases ruled with chair | ⟨notP, notQ⟩ | reached
  · rw [profile.1, chair] at mode
    rcases mode with mode | ⟨mode, -⟩ <;> cases mode
  · rcases higher_eq p.session q.session with one | one
    · exact notP (one.symm.trans session)
    · exact notQ (one.symm.trans session)
  · rw [count, profile.2] at limit
    omega

/-- With no counter enabled, nothing promoted and no priority brought into session, a merge is its steps on rooms and seats. -/
theorem mergeInto_of_off (off : s.CountersOff) (calm : (s.mergedAll p q m).promote p.anchor = s.mergedAll p q m)
    (quiet : p.priority = true ∨ q.priority = true ∨ s.chairsHolding (p.segments ++ q.segments) = []) :
    (s.mergeInto p q m).hall = (s.mergedFloor p q m).hall ∧ (s.mergeInto p q m).floor = (s.mergedFloor p q m).floor := by
  have aside := mergedAll_aside (s := s) (p := p) (q := q) (m := m)
  have offAll : ∀ c ∈ counterNumbers, ((s.mergedAll p q m).counter c).enabled = false := fun c hc => by
    rw [aside.counter]
    unfold State.counter
    rw [mergedFloor_counts]
    exact off.off c hc
  have installs : s.Installs (s.mergedAll p q m).releaseCounts := by
    rw [releaseCounts_of_off offAll]
    exact (Installs.mergedFloor.trans aside.installs).trans (.of_same rfl (.of_buses rfl))
  rw [mergeInto_eq, calm, mergePriority_of_none (quiet.imp_right (Or.imp_right installs.chairsHolding)), releaseCounts_of_off offAll]
  exact ⟨aside.hall, aside.floor⟩

/-! ## The merged room's timer (R41) -/

theorem shorterTimer_spec {x y : RoomTimer} {left : RoomTimer → Int} (hl : ∀ z, left z = (z.seconds : Int) * 1000 - z.blocks) :
    (left x < left y → shorterTimer (some x) (some y) = some x) ∧ (left y < left x → shorterTimer (some x) (some y) = some y) ∧
      (shorterTimer (some x) (some y) = some x ∨ shorterTimer (some x) (some y) = some y) := by
  rw [hl, hl, shorterTimer_some]
  unfold RoomTimer.left
  refine ⟨fun h => if_neg (by omega), fun h => if_pos h, ?_⟩
  split
  · exact .inr rfl
  · exact .inl rfl

end

end State

end Sys2Proof.Machine

open Sys2Proof.Machine

/-- Settles O16. What follows the room table leaves the merged room's fixed fields and lets its live list grow; where nothing is
promoted it leaves all of it. -/
theorem mergeLeavesOneRoom : Obligations.MergeLeavesOneRoom := by
  unfold Obligations.MergeLeavesOneRoom
  intro s a b p q hp hq pa qb apart
  have merged := State.merge_of_rooms hp hq
  constructor
  · have extends_ := State.Extends.mergeInto (s := s) (p := p) (q := q) (m := mergedRoom s p q)
    rw [← merged] at extends_
    obtain ⟨m, room, steady, more, live⟩ := extends_.rooms a (mergedRoom s p q) (by rw [State.oneRoom_room, if_pos pa.symm])
    have session : m.session = p.session.higher q.session := (congrArg Room.session steady :)
    have wake : m.wake = if p.session.higher q.session = .armed then p.wake.union q.wake else Wake.empty := (congrArg Room.wake steady :)
    have timer : m.timer = if p.session.higher q.session = .armed then shorterTimer p.timer q.timer else none :=
      (congrArg Room.timer steady :)
    have lowered : m.ceiling = (mergedRoom s p q).ceiling := (congrArg Room.ceiling steady :)
    have level : m.level = (mergedRoom s p q).level := (congrArg Room.level steady :)
    have ceiling : m.ceiling = s.ceilingOf m.segments :=
      (congrArg Room.ceiling steady :).trans (congrArg s.ceilingOf (congrArg Room.segments steady :)).symm
    refine ⟨m, room, extends_.none b ?_, (congrArg Room.segments steady :), ?_, ?_, ?_, (congrArg Room.profile steady :), ceiling,
      ?_, fun _ => ?_, fun armed => ?_, fun other => ?_, fun k hk => ?_, fun k hk => ?_, fun l joined hx hy => ⟨more, ?_⟩⟩
    · rw [State.oneRoom_room, if_neg (by rw [pa]; exact apart.symm), if_pos qb.symm]
    · rw [session]
      exact State.higher_eq _ _
    · rw [session]
      exact (State.rank_le_higher _ _).1
    · rw [session]
      exact (State.rank_le_higher _ _).2
    · rw [lowered]
      exact level
    · rw [lowered, level]
      exact (congrArg Room.ramp steady :)
    · rw [session] at armed
      rw [wake, timer, if_pos armed, if_pos armed]
      refine ⟨rfl, fun none => by rw [none]; rfl, fun none => by rw [none]; exact State.shorterTimer_none_right _, ?_⟩
      intro x y left hl hx hy
      rw [hx, hy]
      exact State.shorterTimer_spec hl
    · rw [session] at other
      rw [wake, timer, if_neg other, if_neg other]
      exact ⟨rfl, rfl⟩
    · rw [extends_.anchorOf, State.oneRoom_anchorOf, if_pos hk, pa]
    · rw [extends_.anchorOf, State.oneRoom_anchorOf, if_neg hk]
    · rw [live, ← mergeBy_eq_of_joined joined hx hy]
      rfl
  · intro off rooms queues right distinct ruled quiet
    have out := State.mergeRooms_cutOut rooms right hp hq pa distinct
    obtain ⟨hall, floor⟩ := State.mergeInto_of_off off (State.mergedAll_promote right hp hq out ruled) quiet
    have room : ∀ c, (s.merge a b).room c = (s.oneRoom p q (mergedRoom s p q)).room c := fun c => by
      rw [merged, ← State.mergedFloor_room out]
      unfold State.room
      rw [hall]
    have seat : ∀ n, (s.merge a b).seat n = (s.mergedFloor p q (mergedRoom s p q)).seat n := fun n => by
      rw [merged]
      unfold State.seat
      rw [floor]
    refine ⟨mergedRoom s p q, mergeBy Entry.stamp p.queue q.queue, ?_,
      joinedBy_mergeBy (queues.rising a p hp) (queues.rising b q hq) (queues.apart a b p q apart hp hq), rfl, mergeBy_perm .., rfl, rfl,
      fun c ca cb => ?_, fun e he => ?_, fun n kept => ?_⟩
    · rw [room, State.oneRoom_room, if_pos pa.symm]
    · rw [room, State.oneRoom_room, if_neg (by rw [pa]; exact ca), if_neg (by rw [qb]; exact cb)]
    · rw [seat]
      exact State.mergedFloor_seat_of_cut out ⟨e, he, rfl⟩
    · have live : n ∈ (mergedRoom s p q).live ↔ n ∈ p.live ++ q.live := (mergeBy_perm s.openingOf p.live q.live).mem_iff
      rw [seat]
      refine (State.mergedFloor_seat_of_kept out fun ⟨e, he, same⟩ => kept e he same).trans ?_
      simp only [live]
      rfl
end

section
/-! SUPPORT. O42: occurrences are added in order. -/

namespace Sys2Proof.Machine

namespace State

section
variable {s t u v w : State} {a b c : Nat} {p q m : Room} {o : Occurrence} {os : List Occurrence} {e : Entry}

/-- The first of several occurrences is counted, and then the others (R190). -/
theorem settleCounts_of_first (raised : s.counts.raised = o :: os) (open_ : s.counts.deferring = false)
    (below : ∀ c ∈ counterNumbers, (s.counter c).value < 4294967295) :
    ∃ u : State, u = { s with counts := { s.counts with raised := os, counters := u.counts.counters } } ∧ s.Counted u o ∧
      s.settleCounts = u.settleCounts := by
  obtain ⟨v, hv⟩ : ∃ v, v = { s with counts := { s.counts with raised := os } } := ⟨_, rfl⟩
  have room : ∀ c ∈ counterNumbers, v.countedBy o (v.counter c) = true → (v.counter c).mode = .count →
      (v.counter c).value < 4294967295 := fun c hc _ _ => by
    rw [hv]
    exact below c hc
  obtain ⟨only, values⟩ := foldl_takeOccurrence room
  have cons := settleCounts_of_cons raised open_
  rw [← hv] at cons
  generalize counterNumbers.foldl (fun t c => t.takeOccurrence o c) v = u at only values cons
  have counted : v.Counted u o := .of_taken only.inScope values
  have settled : u.settleCounts = addOccurrences (os.length + s.entryCount) u := by
    have raisedU : u.counts.raised = os := only.raised.trans (by rw [hv])
    have openU : u.counts.deferring = false := only.deferring.trans (by rw [hv]; exact open_)
    have entries : u.entryCount = s.entryCount := only.entryCount.trans (by rw [hv]; rfl)
    rw [settleCounts, if_neg (by rw [openU]; decide), raisedU, entries]
  refine ⟨u, ?_, ?_, cons.trans settled.symm⟩
  · rw [hv] at only
    exact only
  · rw [hv] at counted
    exact counted

/-! ## What a merge counts (R190) -/

theorem trimQueue_booth (cut : List Entry) : (s.trimQueue cut).booth = s.booth := by
  induction cut generalizing s with
  | nil => rfl
  | cons e cut ih => exact ih.trans (Sheds.dropNow e.seat .mergeOverflow).booth

theorem mergeRooms_booth : (s.mergeRooms p q m).booth = s.booth := by
  obtain ⟨hall, dist, table⟩ := s.oneRoom_rest (p := p) (q := q) (m := m)
  have noted := (OnDist.queueMaps (s := s.oneRoom p q m) m.segments).trans (.noteMergeStates p q)
  refine ((OnFloor.reformAll _).booth.trans noted.booth).trans ?_
  rw [table]

theorem mergedFloor_booth : (s.mergedFloor p q m).booth = s.booth := by
  have cut : ((s.mergeRooms p q m).trimQueue (cutEntries p q)).booth = s.booth := (trimQueue_booth _).trans mergeRooms_booth
  unfold mergedFloor mergeFloor
  split
  · exact (OnFloor.muteAll p.anchor).booth.trans cut
  · exact cut

theorem mergeLanguages_source (b : Nat) (kept : List Nat) :
    ((s.mergeLanguages p q m kept).boothAt b).source = (s.boothAt b).source := by
  unfold mergeLanguages
  dsimp only
  split
  · rw [(Aside.mergeOwners p q _ _ kept).works.booths]
    show (State.boothAt _ b).source = _
    unfold boothAt
    rw [(Aside.mergeChannels p q _ _).booth]
  · rfl

/-- Where no booth relays, the work of a merge beside the floor raises nothing. -/
theorem mergedAll_uncounted (floor : ∀ b, (s.boothAt b).source = .floor) :
    (s.mergedFloor p q m).Uncounted (s.mergedAll p q m) := by
  have shown := (Aside.mergeLanguages (s := s.mergedFloor p q m) p q m
    (p.profile.languages.filter (fun c => s.hasChannel ⟨p.anchor, c⟩))).1
  have source := fun b => mergeLanguages_source (s := s.mergedFloor p q m) (p := p) (q := q) (m := m) b
    (p.profile.languages.filter (fun c => s.hasChannel ⟨p.anchor, c⟩))
  unfold mergedAll
  generalize (s.mergedFloor p q m).mergeLanguages p q m _ = v at shown source
  have maps := OnDist.queueMaps (s := v) m.segments
  refine (Uncounted.of_shown (shown.trans (.of_same maps.hall maps.floor maps.counts))).trans (.boothWork (fun b => ?_) p.anchor)
  have same : ((v.queueMaps m.segments).boothAt b).source = (v.boothAt b).source := by
    unfold boothAt
    rw [maps.booth]
  rw [same, source, ← floor b]
  unfold boothAt
  rw [mergedFloor_booth]

/-- What waits at the end of a merge is the drop of each entry that is cut. -/
theorem CountersReady.counted_merge (ready : s.CountersReady) (floor : ∀ b, (s.boothAt b).source = .floor)
    (quiet : p.priority = true ∨ q.priority = true ∨ s.chairsHolding (p.segments ++ q.segments) = [])
    (one : cutEntries p q = [e]) : s.Counted (s.mergeInto p q m)
      ⟨.requestDropped, (s.seat e.seat).segment, some (seatBus e.seat), some e.seat⟩ := by
  obtain ⟨o, ho⟩ : ∃ o : Occurrence, o = ⟨.requestDropped, (s.seat e.seat).segment, some (seatBus e.seat), some e.seat⟩ := ⟨_, rfl⟩
  obtain ⟨w, hw⟩ : ∃ w, w = (s.mergedAll p q m).promote p.anchor := ⟨_, rfl⟩
  have kept : (s.mergedFloor p q m).Uncounted w := by
    rw [hw]
    exact (mergedAll_uncounted floor).trans (.of_floor (.promote _))
  have installs : s.Installs w := by
    rw [hw]
    exact (Installs.mergedFloor.trans mergedAll_aside.installs).trans (.promote _)
  have raised : w.counts.raised = [o] := by
    rw [kept.raised, mergedFloor_counts, one, ready.none, ho]
    rfl
  have counter : ∀ c, w.counter c = s.counter c := fun c => by
    rw [kept.counters]
    unfold State.counter
    rw [mergedFloor_counts]
  obtain ⟨x, hx⟩ : ∃ x, x = { w with counts := { w.counts with deferring := false, raised := [] } } := ⟨_, rfl⟩
  have readyX : x.CountersReady := by
    rw [hx]
    exact ⟨rfl, rfl, fun c hc => (congrArg Counter.value (counter c)).trans_lt (ready.below c hc)⟩
  have released : w.releaseCounts = (x.raise o).settleCounts := by
    rw [hx]
    exact (congrArg (fun l => ({ w with counts := { w.counts with deferring := false, raised := l } } : State).settleCounts) raised :)
  obtain ⟨counted, only⟩ := readyX.counted (o := o)
  have same : s.Installs (x.raise o).settleCounts := by
    refine installs.trans (.of_same ?_ (.of_buses ?_))
    · rw [only, hx]
    · rw [only, hx]
  rw [mergeInto_eq, ← hw, released, mergePriority_of_none (quiet.imp_right (Or.imp_right same.chairsHolding)), ← ho]
  intro c y takes hy iff
  exact counted c y takes (hy.trans ((counter c).symm.trans (by rw [hx]; rfl))) iff

end

end State

end Sys2Proof.Machine

open Sys2Proof Sys2Proof.Machine

/-- Settles O42. A counter that takes an occurrence at its top acts before the next occurrence is counted, and what a merge cuts waits
for its end. -/
theorem occurrencesAreAddedInOrder : Obligations.OccurrencesAreAddedInOrder := by
  unfold Obligations.OccurrencesAreAddedInOrder
  refine ⟨?_, ?_, ?_, fun s held => State.settleCounts_of_deferring held, ?_⟩
  · rintro s t o ready rfl
    exact ready.counted
  · intro s o os raised open_ below
    exact State.settleCounts_of_first raised open_ below
  · intro s t c x o n none open_ ht number hx enabled event mode scope top hn
    refine ⟨fun action others => ?_, ?_⟩
    · rw [ht, State.settleCounts_of_notice none open_ number hx enabled event mode scope top hn action others]
      exact ⟨(State.setCounter_counter ..).trans (if_pos rfl), fun d hd => (State.setCounter_counter ..).trans (if_neg hd), rfl⟩
    · rintro g d a m y r e action hs hp unblocked other others hd apart hy counts drops all count below seats rooms hr one rfl out at_
        low high free
      exact State.settleCounts_of_block none open_ number hx enabled event mode scope top hn action hs hp unblocked other others hd
        apart hy counts drops all count below seats rooms hr one out at_ ⟨low, high⟩ free ht
  · rintro s t a b p q all e hp hq apart ready rooms queues right floor quiet joined one rfl
    have cut : cutEntries p q = [e] := by
      unfold cutEntries
      rw [mergeBy_eq_of_joined joined (queues.rising a p hp) (queues.rising b q hq)]
      exact one
    rw [State.merge_of_rooms hp hq]
    exact ready.counted_merge floor quiet cut
end

section
/-! SUPPORT. O17: a split leaves two rooms (R50 to R57). -/

namespace Sys2Proof.Machine

namespace State

section
variable {s t u v w : State} {n a b c : Nat} {r x y : Room} {keep go : List Nat}

/-! ## Steps that leave all but rooms, mutes and indications -/

/-- From `s` to `t` a procedure that holds its occurrences back has come on: the map, the counters and all of a seat but its
indication and its muted flag are as they were. -/
structure Divides (s t : State) : Prop where
  map : t.hall.segmentMap = s.hall.segmentMap
  counts : t.counts = { s.counts with raised := t.counts.raised }
  seats : ∀ n, t.seat n = { s.seat n with indication := (t.seat n).indication, muted := (t.seat n).muted }

namespace Divides

theorem refl (s : State) : s.Divides s := ⟨rfl, rfl, fun _ => rfl⟩

theorem trans (h : s.Divides t) (k : t.Divides u) : s.Divides u :=
  ⟨k.map.trans h.map, by rw [k.counts, h.counts], fun n => by rw [k.seats, h.seats]⟩

theorem of_shown (h : s.Shown t) : s.Divides t := ⟨by rw [h.hall], by rw [h.counts], fun n => by rw [h.seats]⟩

theorem of_aside (h : s.Aside t) : s.Divides t := ⟨by rw [h.hall], h.counts, fun n => by rw [h.seat]⟩

theorem deferring (h : s.Divides t) : t.counts.deferring = s.counts.deferring := by rw [h.counts]

theorem counter (h : s.Divides t) (c : Nat) : t.counter c = s.counter c := by
  unfold State.counter
  rw [h.counts]

end Divides

/-! ## The room table of a split -/

/-- Steps 1 to 3 of a split (R50 to R52): the two contexts stand, and the segments that go map to the second. -/
def twoRooms (s : State) (r : Room) (c : Nat) (keep go : List Nat) : State :=
  (go.foldl (fun v k => v.setAnchor k (some c))
    ((s.holdCounts.setRoom r.anchor (some (halfRoom s r r.anchor keep))).setRoom c (some (halfRoom s r c go)))).keepAnchors

theorem twoRooms_room : (s.twoRooms r c keep go).room b =
    if b = c then some (halfRoom s r c go) else if b = r.anchor then some (halfRoom s r r.anchor keep) else s.room b := by
  obtain ⟨map, eq, -⟩ := foldl_setAnchor go ((s.holdCounts.setRoom r.anchor (some (halfRoom s r r.anchor keep))).setRoom c
    (some (halfRoom s r c go))) (some c)
  unfold twoRooms
  rw [eq]
  show ((s.holdCounts.setRoom r.anchor (some (halfRoom s r r.anchor keep))).setRoom c (some (halfRoom s r c go))).room b = _
  rw [setRoom_room, setRoom_room]
  rfl

theorem twoRooms_anchorOf : (s.twoRooms r c keep go).anchorOf n = if n ∈ go then some c else s.anchorOf n := by
  obtain ⟨map, eq, anchor⟩ := foldl_setAnchor go ((s.holdCounts.setRoom r.anchor (some (halfRoom s r r.anchor keep))).setRoom c
    (some (halfRoom s r c go))) (some c)
  unfold twoRooms
  rw [eq]
  exact anchor n

theorem twoRooms_rest : ∃ hall dist, s.twoRooms r c keep go =
    { s with hall := hall, dist := dist, counts := { s.counts with deferring := true } } := by
  obtain ⟨map, eq, -⟩ := foldl_setAnchor go ((s.holdCounts.setRoom r.anchor (some (halfRoom s r r.anchor keep))).setRoom c
    (some (halfRoom s r c go))) (some c)
  unfold twoRooms
  rw [eq]
  exact ⟨_, _, rfl⟩

theorem splitRooms_onDist : (s.twoRooms r c keep go).OnDist (s.splitRooms r c keep go) :=
  (OnDist.queueMaps r.segments).trans (.note _)

theorem splitRooms_floor : (s.splitRooms r c keep go).floor = s.floor := by
  obtain ⟨hall, dist, eq⟩ := s.twoRooms_rest (r := r) (c := c) (keep := keep) (go := go)
  rw [splitRooms_onDist.floor, eq]

theorem splitRooms_counts : (s.splitRooms r c keep go).counts = { s.counts with deferring := true } := by
  obtain ⟨hall, dist, eq⟩ := s.twoRooms_rest (r := r) (c := c) (keep := keep) (go := go)
  rw [splitRooms_onDist.counts, eq]

theorem splitRooms_queues : s.QueuesOnly (s.splitRooms r c keep go) := by
  obtain ⟨hall, dist, eq⟩ := s.twoRooms_rest (r := r) (c := c) (keep := keep) (go := go)
  exact (QueuesOnly.of_buses (by rw [eq])).trans splitRooms_onDist.queues

theorem splitRooms_chairsHolding (segments : List Nat) :
    (s.splitRooms r c keep go).chairsHolding segments = s.chairsHolding segments := by
  have units : ∀ i b, (s.splitRooms r c keep go).unit i b = s.unit i b := fun i b => by
    unfold unit
    rw [splitRooms_queues i]
  unfold chairsHolding
  rw [splitRooms_floor]
  simp only [units]

/-! ## Priority of the halves (R53) -/

/-- What a half keeps of the priority: it stays where a chair of it holds PRIORITY. -/
def keptPriority (s : State) (x : Room) : Room := { x with priority := x.priority && decide (s.chairsHolding x.segments ≠ []) }

theorem splitPriority_room (hr : s.room a = some x) :
    (s.splitPriority a).room b = if b = a then some (s.keptPriority x) else s.room b := by
  unfold splitPriority keptPriority
  rw [hr]
  dsimp only
  split
  · next ends =>
    simp only [Bool.and_eq_true, decide_eq_true_eq] at ends
    unfold endPriority State.room
    rw [unmuteAll_hall]
    show (State.modRoom s a _).room b = _
    rw [modRoom_of_room hr, setRoom_room, ends.2]
    simp
    rfl
  · next stays =>
    have same : (x.priority && decide (s.chairsHolding x.segments ≠ [])) = x.priority := by
      cases active : x.priority
      · rfl
      · simpa [active] using stays
    rw [same]
    split
    · subst_vars
      exact hr
    · rfl

theorem splitPriority_seat (hr : s.room a = some x) : (s.splitPriority a).seat n = { s.seat n with
    muted := (s.seat n).muted && decide (x.priority = true → s.chairsHolding x.segments = [] → n ∉ x.live) } := by
  unfold splitPriority
  rw [hr]
  dsimp only
  split
  · next ends =>
    simp only [Bool.and_eq_true, decide_eq_true_eq] at ends
    have here : (s.modRoom a fun r => { r with priority := false }).room a = some { x with priority := false } := by
      rw [modRoom_of_room hr, setRoom_room, if_pos rfl]
    unfold endPriority
    rw [unmuteAll_of_room here, foldl_unmute_seat, modRoom_seat]
    cases muted : (s.seat n).muted <;> simp [muted, ends, modRoom_seat]
  · next stays =>
    simp only [Bool.and_eq_true, decide_eq_true_eq] at stays
    have always : x.priority = true → s.chairsHolding x.segments = [] → n ∉ x.live := fun h k => absurd ⟨h, k⟩ stays
    rw [decide_eq_true always, Bool.and_true]

theorem splitPriority_onFloor (a : Nat) : s.OnFloor (s.splitPriority a) := by
  unfold splitPriority
  split
  · exact .refl s
  · split
    · exact .endPriority a
    · exact .refl s

theorem Divides.splitPriority (hr : s.room a = some x) : s.Divides (s.splitPriority a) where
  map := (congrArg RoomUnit.segmentMap (splitPriority_onFloor a).hall :)
  counts := by rw [(splitPriority_onFloor a).counts]
  seats n := by rw [splitPriority_seat hr]

/-- Chairs that hold PRIORITY are found again where seats keep their installation. -/
theorem chairsHolding_nil_iff (canonical : twf Seat.initial s.floor.seats = true) (installs : s.Installs t)
    (fixed : ∀ n, (t.seat n).fixed = (s.seat n).fixed) (segments : List Nat) :
    t.chairsHolding segments = [] ↔ s.chairsHolding segments = [] := by
  refine ⟨fun none => ?_, installs.chairsHolding⟩
  by_contra some
  obtain ⟨n, listed⟩ := List.exists_mem_of_ne_nil _ some
  have meets := (mem_tkeys_iff canonical (fun _ => rfl) n).1 listed
  simp only [Bool.and_eq_true, decide_eq_true_eq, List.contains_iff_mem] at meets
  obtain ⟨⟨⟨installed, cls⟩, inside⟩, held⟩ := meets
  refine chairsHolding_ne_nil (s := t) (n := n) ((congrArg Seat.installed (fixed n) :).trans installed)
    ((congrArg Seat.cls (fixed n) :).trans cls) ?_ ?_ none
  · have segment : (t.seat n).segment = (s.seat n).segment := (congrArg Seat.segment (fixed n) :)
    rw [segment]
    exact inside
  · rw [installs.units]
    exact held

theorem Installs.splitPriority (a : Nat) : s.Installs (s.splitPriority a) := by
  have unmuted : ∀ (v : State) (n : Nat), v.Installs (v.unmute n) := fun v n =>
    (setSeat (x := { v.seat n with muted := false }) rfl).trans (noteMic n _ _)
  unfold State.splitPriority
  split
  · exact refl s
  · split
    · refine (modRoom a (fun r => { r with priority := false })).trans ?_
      unfold endPriority
      generalize s.modRoom a (fun r => { r with priority := false }) = v
      unfold unmuteAll
      split
      · exact refl v
      · exact fold unmuted _ _
    · exact refl s

/-! ## A half that is ENDING with an empty live list (R54) -/

/-- The room, or what the passage to DORMANT makes of it. -/
def emptied (x : Room) : Room :=
  { x with
    session := if x.session = .ending ∧ x.live = [] then .dormant else x.session
    wake := if x.session = .ending ∧ x.live = [] then Wake.empty else x.wake
    timer := if x.session = .ending ∧ x.live = [] then none else x.timer
    rotation := if x.session = .ending ∧ x.live = [] then none else x.rotation }

theorem emptied_eq (x : Room) : emptied x = if x.session = .ending ∧ x.live = [] then dormantRoom x else x := by
  unfold emptied
  split <;> rfl

theorem passToDormant_of_deferring (held : s.counts.deferring = true) (hr : s.room a = some x) :
    (∀ b, (s.passToDormant a).room b = if b = a then some (dormantRoom x) else s.room b) ∧ s.Divides (s.passToDormant a) ∧
      ∀ n, ((s.passToDormant a).seat n).muted = (s.seat n).muted := by
  obtain ⟨v, hv⟩ : ∃ v, v = (s.silenced a x).reformAll ((s.silenced a x).presentIn x.segments) := ⟨_, rfl⟩
  have shown : (s.silenced a x).Shown v := hv ▸ Shown.reformAll _
  have counts : (s.silenced a x).counts = s.counts := undistributed_shown.counts
  have seat : ∀ n, (s.silenced a x).seat n = { s.seat n with indication := ((s.silenced a x).seat n).indication } :=
    undistributed_shown.seats
  have aside : v.Aside (s.passToDormant a) := by
    rw [passToDormant_eq hr, ← hv]
    exact .boothWork (by rw [shown.counts, counts, held]) a
  have written : s.Divides (s.silenced a x) :=
    ⟨(congrArg RoomUnit.segmentMap undistributed_shown.hall :), by rw [counts], fun n => by rw [seat]⟩
  refine ⟨fun b => by rw [aside.room, shown.room, silenced_room], (written.trans (.of_shown shown)).trans (.of_aside aside), fun n => ?_⟩
  rw [aside.seat, shown.seats, seat]

theorem passIfEmpty_of_deferring (held : s.counts.deferring = true) (hr : s.room a = some x) :
    (∀ b, (s.passIfEmpty a).room b = if b = a then some (emptied x) else s.room b) ∧ s.Divides (s.passIfEmpty a) ∧
      ∀ n, ((s.passIfEmpty a).seat n).muted = (s.seat n).muted := by
  have passes : s.passIfEmpty a = if x.session = .ending ∧ x.live = [] then s.passToDormant a else s := by
    unfold passIfEmpty
    rw [hr]
    simp
  rw [passes, emptied_eq]
  split
  · exact passToDormant_of_deferring held hr
  · refine ⟨fun b => ?_, .refl s, fun _ => rfl⟩
    split
    · subst_vars
      exact hr
    · rfl

/-! ## The halves before promotion -/

theorem OnBooths.splitOwners (a c : Nat) (segments : List Nat) : s.OnBooths (s.splitOwners a c segments) := by
  unfold State.splitOwners
  refine fold (fun v o => ?_) _ _
  split
  · exact refl v
  · split
    · exact (Aside.rekeyOwner _ _).trans (note _)
    · exact refl v

theorem OnDist.splitChannels (c : Nat) : s.OnDist (s.splitChannels c) := by
  unfold State.splitChannels
  split
  · exact refl s
  · exact makeChannels _

/-- Steps 4 and 5 (R53, R54). -/
def calmedHalves (s : State) (r : Room) (c : Nat) (keep go : List Nat) : State :=
  ((((s.splitRooms r c keep go).splitPriority r.anchor).splitPriority c).passIfEmpty r.anchor).passIfEmpty c

/-- Steps 1 to 7, with the maps and the work of the booth unit of step 8. -/
def halves (s : State) (r : Room) (c : Nat) (keep go : List Nat) : State :=
  (((((s.calmedHalves r c keep go).splitChannels c).splitOwners r.anchor c go).queueMaps r.segments).relistenIn
    r.segments).reconsoleIn r.segments

theorem splitInto_eq : s.splitInto r c keep go =
    (((s.halves r c keep go).promote r.anchor).promote c).releaseCounts := rfl

theorem split_of_room (hr : s.room a = some r) : s.split a c keep go = s.splitInto r c keep go := by
  unfold split
  rw [hr]

theorem halves_aside (held : (s.calmedHalves r c keep go).counts.deferring = true) :
    (s.calmedHalves r c keep go).Aside (s.halves r c keep go) := by
  unfold halves
  generalize s.calmedHalves r c keep go = v at held
  have channels : v.Aside (((v.splitChannels c).splitOwners r.anchor c go).queueMaps r.segments) :=
    ((Aside.of_onDist (.splitChannels c)).trans (.of_onBooths (.splitOwners r.anchor c go))).trans (.of_onDist (.queueMaps _))
  have listened := channels.trans (.relistenIn (channels.deferring.trans held) r.segments)
  exact listened.trans (.reconsoleIn r.segments)

theorem splitRooms_room : (s.splitRooms r c keep go).room b =
    if b = c then some (halfRoom s r c go) else if b = r.anchor then some (halfRoom s r r.anchor keep) else s.room b := by
  rw [splitRooms_onDist.room, twoRooms_room]

/-- The priority of the half that keeps its anchor is decided. -/
def firstCalmed (s : State) (r : Room) (c : Nat) (keep go : List Nat) : State := (s.splitRooms r c keep go).splitPriority r.anchor

theorem firstCalmed_room (ha : r.anchor ≠ c) : (s.firstCalmed r c keep go).room b =
    if b = c then some (halfRoom s r c go)
    else if b = r.anchor then some (s.keptPriority (halfRoom s r r.anchor keep)) else s.room b := by
  have here : (s.splitRooms r c keep go).room r.anchor = some (halfRoom s r r.anchor keep) := by
    rw [splitRooms_room, if_neg ha, if_pos rfl]
  have holding : (s.splitRooms r c keep go).keptPriority (halfRoom s r r.anchor keep) =
      s.keptPriority (halfRoom s r r.anchor keep) := by
    unfold keptPriority
    rw [splitRooms_chairsHolding]
  unfold firstCalmed
  rw [splitPriority_room here, splitRooms_room, holding]
  by_cases atA : b = r.anchor
  · rw [if_pos atA, atA, if_neg ha, if_pos rfl]
  · rw [if_neg atA, if_neg atA, if_neg atA]

/-- The priority of both halves is decided. -/
def bothCalmed (s : State) (r : Room) (c : Nat) (keep go : List Nat) : State := (s.firstCalmed r c keep go).splitPriority c

theorem bothCalmed_room (ha : r.anchor ≠ c) : (s.bothCalmed r c keep go).room b =
    if b = c then some ((s.firstCalmed r c keep go).keptPriority (halfRoom s r c go))
    else if b = r.anchor then some (s.keptPriority (halfRoom s r r.anchor keep)) else s.room b := by
  have here : (s.firstCalmed r c keep go).room c = some (halfRoom s r c go) := by rw [firstCalmed_room ha, if_pos rfl]
  unfold bothCalmed
  rw [splitPriority_room here, firstCalmed_room ha]
  split <;> rfl

theorem bothCalmed_onFloor : (s.splitRooms r c keep go).OnFloor (s.bothCalmed r c keep go) :=
  (splitPriority_onFloor r.anchor).trans (splitPriority_onFloor c)

theorem bothCalmed_deferring : (s.bothCalmed r c keep go).counts.deferring = true := by
  rw [bothCalmed_onFloor.counts, splitRooms_counts]

theorem calmedHalves_eq : s.calmedHalves r c keep go = ((s.bothCalmed r c keep go).passIfEmpty r.anchor).passIfEmpty c := rfl

/-- The seats that a half whose priority ends unmutes. -/
def unmutes (s : State) (x : Room) (n : Nat) : Prop := x.priority = true ∧ s.chairsHolding x.segments = [] ∧ n ∈ x.live

theorem calmedHalves_spec (ha : r.anchor ≠ c) : (∀ b, (s.calmedHalves r c keep go).room b =
      if b = c then some (emptied ((s.firstCalmed r c keep go).keptPriority (halfRoom s r c go)))
      else if b = r.anchor then some (emptied (s.keptPriority (halfRoom s r r.anchor keep))) else s.room b) ∧
    (s.splitRooms r c keep go).Divides (s.calmedHalves r c keep go) ∧
    ∀ n, ((s.calmedHalves r c keep go).seat n).muted = true ↔ (s.seat n).muted = true ∧
      ¬ s.unmutes (halfRoom s r r.anchor keep) n ∧ ¬ (s.firstCalmed r c keep go).unmutes (halfRoom s r c go) n := by
  have room0 : (s.splitRooms r c keep go).room r.anchor = some (halfRoom s r r.anchor keep) := by
    rw [splitRooms_room, if_neg ha, if_pos rfl]
  have room1 : (s.firstCalmed r c keep go).room c = some (halfRoom s r c go) := by rw [firstCalmed_room ha, if_pos rfl]
  have room2 : (s.bothCalmed r c keep go).room r.anchor = some (s.keptPriority (halfRoom s r r.anchor keep)) := by
    rw [bothCalmed_room ha, if_neg ha, if_pos rfl]
  obtain ⟨rooms3, divides3, muted3⟩ := passIfEmpty_of_deferring bothCalmed_deferring room2
  obtain ⟨rooms4, divides4, muted4⟩ := passIfEmpty_of_deferring (divides3.deferring.trans bothCalmed_deferring)
    (show ((s.bothCalmed r c keep go).passIfEmpty r.anchor).room c =
        some ((s.firstCalmed r c keep go).keptPriority (halfRoom s r c go)) by
      rw [rooms3, if_neg (Ne.symm ha), bothCalmed_room ha, if_pos rfl])
  rw [← calmedHalves_eq] at rooms4 divides4 muted4
  refine ⟨fun b => ?_, (((Divides.splitPriority room0).trans (.splitPriority room1)).trans divides3).trans divides4, fun n => ?_⟩
  · rw [rooms4, rooms3, bothCalmed_room ha]
    by_cases atC : b = c
    · rw [if_pos atC, if_pos atC]
    · rw [if_neg atC, if_neg atC]
      split <;> rfl
  · have unmuted : ((s.bothCalmed r c keep go).seat n).muted = (((s.firstCalmed r c keep go).seat n).muted && decide _) :=
      congrArg Seat.muted (splitPriority_seat room1)
    have unmuted' : ((s.firstCalmed r c keep go).seat n).muted = (((s.splitRooms r c keep go).seat n).muted && decide _) :=
      congrArg Seat.muted (splitPriority_seat room0)
    have seat : (s.splitRooms r c keep go).seat n = s.seat n := by
      unfold State.seat
      rw [splitRooms_floor]
    rw [muted4, muted3, unmuted, unmuted', seat, splitRooms_chairsHolding]
    unfold unmutes
    simp only [Bool.and_eq_true, decide_eq_true_eq, and_assoc, not_and]

theorem calmedHalves_deferring (ha : r.anchor ≠ c) : (s.calmedHalves r c keep go).counts.deferring = true := by
  rw [(calmedHalves_spec ha).2.1.deferring, splitRooms_counts]

theorem halves_spec (ha : r.anchor ≠ c) : ∃ v, s.Installs v ∧ (∀ n, (v.seat n).fixed = (s.seat n).fixed) ∧
    (∀ b, (s.halves r c keep go).room b =
      if b = c then some (emptied (v.keptPriority (halfRoom s r c go)))
      else if b = r.anchor then some (emptied (s.keptPriority (halfRoom s r r.anchor keep))) else s.room b) ∧
    (s.splitRooms r c keep go).Divides (s.halves r c keep go) ∧
    ∀ n, ((s.halves r c keep go).seat n).muted = true ↔ (s.seat n).muted = true ∧
      ¬ s.unmutes (halfRoom s r r.anchor keep) n ∧ ¬ v.unmutes (halfRoom s r c go) n := by
  have room0 : (s.splitRooms r c keep go).room r.anchor = some (halfRoom s r r.anchor keep) := by
    rw [splitRooms_room, if_neg ha, if_pos rfl]
  have divides : (s.splitRooms r c keep go).Divides (s.firstCalmed r c keep go) := .splitPriority room0
  obtain ⟨rooms, divided, muted⟩ := calmedHalves_spec (s := s) (keep := keep) (go := go) ha
  have aside := halves_aside (s := s) (keep := keep) (go := go) (calmedHalves_deferring ha)
  refine ⟨s.firstCalmed r c keep go, (Installs.of_same (by rw [splitRooms_floor]) splitRooms_queues).trans (.splitPriority _),
    fun n => ?_, fun b => (aside.room b).trans (rooms b), divided.trans (.of_aside aside), fun n => ?_⟩
  · rw [divides.seats]
    unfold State.seat
    rw [splitRooms_floor]
    rfl
  · rw [aside.seat, muted]

theorem unmutes_iff {half : List Nat} : v.unmutes (halfRoom s r a half) n ↔
    r.priority = true ∧ v.chairsHolding half = [] ∧ n ∈ r.live ∧ (s.seat n).segment ∈ half := by
  have live : n ∈ (halfRoom s r a half).live ↔ n ∈ r.live ∧ (s.seat n).segment ∈ half := by
    show n ∈ r.live.filter (fun n => half.contains (s.seat n).segment) ↔ _
    simp
  unfold unmutes
  rw [live]
  exact Iff.rfl

theorem half_priority {half : List Nat} : (emptied (v.keptPriority (halfRoom s r a half))).priority = true ↔
    r.priority = true ∧ v.chairsHolding half ≠ [] := by
  show (r.priority && decide (v.chairsHolding half ≠ [])) = true ↔ _
  simp

/-- What a half keeps whatever follows on its lists and its pointer. -/
structure Halves (s v : State) (r : Room) (half : List Nat) (z : Room) : Prop where
  segments : z.segments = half
  profile : z.profile = r.profile
  ceiling : z.ceiling = s.ceilingOf half
  level : z.level = min r.level z.ceiling
  session : z.session = if r.session = .ending ∧ s.seatsIn half r.live = [] then .dormant else r.session
  ramp : z.ramp = if z.level = min r.profile.level z.ceiling then r.ramp else .ramping
  wake : z.wake = if r.session = .ending ∧ s.seatsIn half r.live = [] then Wake.empty else r.wake
  timer : z.timer = if r.session = .ending ∧ s.seatsIn half r.live = [] then none else r.timer
  priority : z.priority = (r.priority && decide (v.chairsHolding half ≠ []))

theorem Halves.of_sitting {z : Room} {half : List Nat} (h : z.sitting = (emptied (v.keptPriority (halfRoom s r a half))).sitting) :
    s.Halves v r half z := by
  have ceiling : z.ceiling = s.ceilingOf half := (congrArg Room.ceiling h :)
  have level : z.level = min r.level (s.ceilingOf half) := (congrArg Room.level h :)
  refine ⟨(congrArg Room.segments h :), (congrArg Room.profile h :), ceiling, by rw [level, ceiling], (congrArg Room.session h :), ?_,
    (congrArg Room.wake h :), (congrArg Room.timer h :), (congrArg Room.priority h :)⟩
  rw [level, ceiling]
  exact (congrArg Room.ramp h :)

theorem Extends.splitInto : (s.halves r c keep go).Extends (s.splitInto r c keep go) :=
  ((Extends.promote r.anchor).trans (.promote c)).trans .releaseCounts

theorem Sits.releaseCounts : s.Sits s.releaseCounts :=
  (of_same rfl rfl rfl : s.Sits { s with counts := { s.counts with deferring := false } }).trans settleCounts

theorem Sits.splitInto : (s.halves r c keep go).Sits (s.splitInto r c keep go) :=
  ((Sits.promote r.anchor).trans (.promote c)).trans .releaseCounts

/-- A half stands after the split as it stood before promotion, but for its lists and its pointer. -/
theorem splitInto_half {z : Room} (hz : (s.halves r c keep go).room b = some z) :
    ∃ x, (s.splitInto r c keep go).room b = some x ∧ x.sitting = z.sitting ∧ ∃ more, x.live = z.live ++ more := by
  obtain ⟨x, hx, sits⟩ := Sits.splitInto.room hz
  obtain ⟨y, hy, -, live⟩ := Extends.splitInto.rooms b z hz
  obtain rfl := Option.some.inj (hx.symm.trans hy)
  exact ⟨x, hx, sits, live⟩

/-- With no counter enabled and nothing promoted a split is its steps on rooms and seats. -/
theorem splitInto_of_off (off : s.CountersOff) (ha : r.anchor ≠ c)
    (ruled : r.profile.floorMode = .chair ∨ r.session ≠ .inSession ∨
      ∀ half, half = keep ∨ half = go → r.profile.openLimit ≤ s.delegateCount { r with live := s.seatsIn half r.live }) :
    (s.splitInto r c keep go).hall = (s.halves r c keep go).hall ∧ (s.splitInto r c keep go).floor = (s.halves r c keep go).floor := by
  obtain ⟨v, -, -, rooms, divides, -⟩ := halves_spec (s := s) (keep := keep) (go := go) ha
  have seat : ∀ n, (s.splitRooms r c keep go).seat n = s.seat n := fun n => by
    unfold State.seat
    rw [splitRooms_floor]
  have calm : ∀ (b : Nat) (w : State) (half : List Nat), half = keep ∨ half = go →
      (s.halves r c keep go).room b = some (emptied (w.keptPriority (halfRoom s r b half))) →
      (s.halves r c keep go).promote b = s.halves r c keep go := fun b w half one room => by
    refine promote_of_not_promotes room (Bool.eq_false_iff.2 fun promotes => ?_)
    obtain ⟨session, mode, -, limit⟩ := promotes_iff.1 promotes
    have count : (s.halves r c keep go).delegateCount (emptied (w.keptPriority (halfRoom s r b half))) =
        s.delegateCount { r with live := s.seatsIn half r.live } :=
      delegateCount_congr rfl fun n _ => by
        rw [divides.seats, seat]
        exact ⟨rfl, rfl⟩
    rcases ruled with chair | out | reached
    · rw [show (emptied (w.keptPriority (halfRoom s r b half))).profile.floorMode = r.profile.floorMode from rfl, chair] at mode
      rcases mode with mode | ⟨mode, -⟩ <;> cases mode
    · have state : (emptied (w.keptPriority (halfRoom s r b half))).session =
        if r.session = .ending ∧ s.seatsIn half r.live = [] then .dormant else r.session := rfl
      rw [state] at session
      split at session
      · cases session
      · exact out session
    · have enough := reached half one
      rw [count] at limit
      exact absurd limit (Nat.not_lt.2 enough)
  have first := calm r.anchor s keep (.inl rfl) (by rw [rooms, if_neg ha, if_pos rfl])
  have second := calm c v go (.inr rfl) (by rw [rooms, if_pos rfl])
  have offAll : ∀ d ∈ counterNumbers, ((s.halves r c keep go).counter d).enabled = false := fun d hd => by
    rw [divides.counter]
    unfold State.counter
    rw [splitRooms_counts]
    exact off.off d hd
  rw [splitInto_eq, first, second, releaseCounts_of_off offAll]
  exact ⟨rfl, rfl⟩

end

end State

end Sys2Proof.Machine

open Sys2Proof.Machine

/-- Settles O17. Until promotion the occurrences wait, so that the halves are known whole; what follows it leaves their fixed fields. -/
theorem splitLeavesTwoRooms : Obligations.SplitLeavesTwoRooms := by
  unfold Obligations.SplitLeavesTwoRooms
  intro s a c keep go r hr ra apart
  have ha : r.anchor ≠ c := by rw [ra]; exact apart
  obtain ⟨v, installs, fixed, rooms, divides, muted⟩ := State.halves_spec (s := s) (keep := keep) (go := go) ha
  have atA : (s.halves r c keep go).room a = some (State.emptied (s.keptPriority (halfRoom s r r.anchor keep))) := by
    rw [rooms, if_neg apart, if_pos ra.symm]
  have atC : (s.halves r c keep go).room c = some (State.emptied (v.keptPriority (halfRoom s r c go))) := by
    rw [rooms, if_pos rfl]
  obtain ⟨x, hx, sitsX, liveX⟩ := State.splitInto_half atA
  obtain ⟨y, hy, sitsY, liveY⟩ := State.splitInto_half atC
  have halfX := State.Halves.of_sitting sitsX
  have halfY := State.Halves.of_sitting sitsY
  have map : ∀ k, (s.splitInto r c keep go).anchorOf k = if k ∈ go then some c else s.anchorOf k := fun k => by
    rw [State.Extends.splitInto.anchorOf, ← State.twoRooms_anchorOf (s := s) (r := r) (keep := keep)]
    unfold State.anchorOf
    rw [divides.map, State.splitRooms_onDist.hall]
  rw [State.split_of_room hr]
  refine ⟨x, y, hx, hy, halfX.segments, halfY.segments, halfX.profile, halfY.profile, halfX.ceiling, halfY.ceiling, halfX.level,
    halfY.level, fun k hk => by rw [map, if_pos hk], fun k hk => by rw [map, if_neg hk], ?_, fun off canonical ruled => ?_⟩
  · rintro z half (⟨rfl, rfl⟩ | ⟨rfl, rfl⟩)
    · exact ⟨liveX, halfX.session, fun _ => halfX.ramp, halfX.wake, halfX.timer, fun _ => halfX.priority⟩
    · refine ⟨liveY, halfY.session, fun _ => halfY.ramp, halfY.wake, halfY.timer, fun canonical => ?_⟩
      rw [halfY.priority]
      simp only [ne_eq, State.chairsHolding_nil_iff canonical installs fixed]
  · obtain ⟨hall, floor⟩ := State.splitInto_of_off off ha ruled
    have room : ∀ b, (s.splitInto r c keep go).room b = (s.halves r c keep go).room b := fun b => by
      unfold State.room
      rw [hall]
    obtain rfl := Option.some.inj (hx.symm.trans ((room a).trans atA))
    obtain rfl := Option.some.inj (hy.symm.trans ((room c).trans atC))
    refine ⟨rfl, rfl, rfl, rfl, rfl, rfl, fun d da dc => ?_, fun n => ?_⟩
    · rw [room, rooms, if_neg dc, if_neg (by rw [ra]; exact da)]
    · have seat : (s.splitInto r c keep go).seat n = (s.halves r c keep go).seat n := by
        unfold State.seat
        rw [floor]
      have before : (s.splitRooms r c keep go).seat n = s.seat n := by
        unfold State.seat
        rw [State.splitRooms_floor]
      have unmuted : ((s.halves r c keep go).seat n).muted = ((s.seat n).muted && decide (r.priority = true → n ∈ r.live →
          ((s.seat n).segment ∈ keep → (State.emptied (s.keptPriority (halfRoom s r r.anchor keep))).priority = true) ∧
          ((s.seat n).segment ∈ go → (State.emptied (v.keptPriority (halfRoom s r c go))).priority = true))) := by
        rw [Bool.eq_iff_iff, muted, State.unmutes_iff, State.unmutes_iff, Bool.and_eq_true, decide_eq_true_eq, State.half_priority,
          State.half_priority]
        exact ⟨fun ⟨m, notX, notY⟩ => ⟨m, fun p l => ⟨fun k => ⟨p, fun nil => notX ⟨p, nil, l, k⟩⟩,
            fun g => ⟨p, fun nil => notY ⟨p, nil, l, g⟩⟩⟩⟩,
          fun ⟨m, h⟩ => ⟨m, fun ⟨p, nil, l, k⟩ => ((h p l).1 k).2 nil, fun ⟨p, nil, l, g⟩ => ((h p l).2 g).2 nil⟩⟩
      rw [seat, ← unmuted, ← before]
      exact divides.seats n
end

section
/-! SUPPORT. The allocation table and the unserved list while channels are made, removed and re-keyed (R47, R151 to R156). -/

namespace Sys2Proof.Machine

namespace State

section
variable {s t u : State} {a k : Nat} {key old new : Key} {keys : List Key} {f : Key → Key}

/-! ## What the tables hold -/

/-- The channel that has a slot. -/
def entry (s : State) (k : Nat) : Option Key := tget none s.dist.allocation.slots k

/-- From `s` to `t` no slot and no place on the unserved list has changed. -/
structure SameChannels (s t : State) : Prop where
  slots : t.dist.allocation.slots = s.dist.allocation.slots
  unserved : t.dist.unserved = s.dist.unserved

theorem SameChannels.of_dist (h : t.dist = s.dist) : s.SameChannels t := ⟨by rw [h], by rw [h]⟩

theorem SameChannels.trans (h : s.SameChannels t) (k : t.SameChannels u) : s.SameChannels u :=
  ⟨k.slots.trans h.slots, k.unserved.trans h.unserved⟩

theorem SameChannels.entry (h : s.SameChannels t) (k : Nat) : t.entry k = s.entry k := by
  unfold State.entry
  rw [h.slots]

theorem SameChannels.service (h : s.SameChannels t) (key : Key) : t.service key = s.service key := by
  unfold State.service SlotTable.slotOf
  rw [h.slots, h.unserved]

theorem SameChannels.hasChannel (h : s.SameChannels t) (key : Key) : t.hasChannel key = s.hasChannel key := by
  unfold State.hasChannel
  rw [h.service]

theorem SameChannels.ok (h : s.SameChannels t) (ok : s.ChannelsOk) : t.ChannelsOk := by
  constructor
  · rw [h.slots]; exact ok.canonical
  · rw [h.slots]; exact ok.language
  · rw [h.slots]; exact ok.one
  · rw [h.slots, h.unserved]; exact ok.apart
  · rw [h.unserved]; exact ok.once
  · rw [h.slots, h.unserved]; exact ok.full

theorem hasChannel_iff_entry (ok : s.ChannelsOk) : s.hasChannel key = true ↔ (∃ k, s.entry k = some key) ∨ key ∈ s.dist.unserved := by
  rw [← isSome_positionOf s.dist.unserved 1]
  have slot : (∃ k, s.entry k = some key) ↔ (s.dist.allocation.slotOf key).isSome = true := by
    rw [Option.isSome_iff_exists]
    exact exists_congr fun k => (slotOf_eq_some_iff ok).symm
  rw [slot]
  unfold hasChannel service
  cases s.dist.allocation.slotOf key with
  | some k => simp
  | none => cases positionOf key s.dist.unserved 1 <;> simp

theorem setSlot_entry {x : Option Key} {j : Nat} : (s.setSlot k x).entry j = if j = k then x else s.entry j := tget_tset ..

/-! ## Channels made (R151) -/

/-- What making channels leaves: every channel its slot, and the unserved list its order. -/
structure Made (s t : State) (keys : List Key) : Prop where
  ok : t.ChannelsOk
  kept : ∀ k key, s.entry k = some key → t.entry k = some key
  channels : ∀ key, t.hasChannel key = true ↔ s.hasChannel key = true ∨ key ∈ keys
  unserved : ∃ new, t.dist.unserved = s.dist.unserved ++ new ∧ ∀ key ∈ new, key ∈ keys

theorem Made.makeChannel (ok : s.ChannelsOk) (key : Key) : s.Made (s.makeChannel key) [key] := by
  have okT : (s.makeChannel key).ChannelsOk := ((Kept.refl s).makeChannel key).channels ok
  by_cases there : s.hasChannel key = true
  · have same : s.makeChannel key = s := if_pos there
    rw [same]
    refine ⟨ok, fun _ _ h => h, fun x => ⟨.inl, fun h => h.elim id fun e => ?_⟩, [], (List.append_nil _).symm, nofun⟩
    rw [List.mem_singleton.1 e]
    exact there
  · have made := makeChannel_dist (s := s) (Bool.eq_false_iff.2 there)
    cases slot : s.freeLanguageSlot with
    | some k =>
      rw [slot] at made
      have free : s.entry k = none := of_decide_eq_true (List.find?_some slot :)
      have entry : ∀ j, (s.makeChannel key).entry j = if j = k then some key else s.entry j := fun j =>
        (SameChannels.entry (.of_dist made) j).trans setSlot_entry
      have unserved : (s.makeChannel key).dist.unserved = s.dist.unserved := by rw [made]; rfl
      refine ⟨okT, fun j x h => ?_, fun x => ?_, [], by rw [unserved, List.append_nil], nofun⟩
      · rw [entry, if_neg, h]
        rintro rfl
        rw [free] at h
        cases h
      · rw [hasChannel_iff_entry okT, hasChannel_iff_entry ok, unserved, List.mem_singleton]
        simp only [entry]
        constructor
        · rintro (⟨j, h⟩ | listed)
          · split at h
            · exact .inr (Option.some.inj h).symm
            · exact .inl (.inl ⟨j, h⟩)
          · exact .inl (.inr listed)
        · rintro ((⟨j, h⟩ | listed) | rfl)
          · refine .inl ⟨j, ?_⟩
            rw [if_neg, h]
            rintro rfl
            rw [free] at h
            cases h
          · exact .inr listed
          · exact .inl ⟨k, if_pos rfl⟩
    | none =>
      rw [slot] at made
      have entry : ∀ j, (s.makeChannel key).entry j = s.entry j := fun j => (SameChannels.entry (.of_dist made) j :)
      have unserved : (s.makeChannel key).dist.unserved = s.dist.unserved ++ [key] := by rw [made]; rfl
      refine ⟨okT, fun j x h => by rw [entry, h], fun x => ?_, [key], unserved, fun _ h => h⟩
      rw [hasChannel_iff_entry okT, hasChannel_iff_entry ok, unserved, List.mem_append, or_assoc]
      simp only [entry]

theorem Made.makeChannels (ok : s.ChannelsOk) (keys : List Key) : s.Made (s.makeChannels keys) keys := by
  unfold State.makeChannels
  induction keys generalizing s with
  | nil => exact ⟨ok, fun _ _ h => h, fun x => by simp, [], (List.append_nil _).symm, nofun⟩
  | cons key keys ih =>
    have first := Made.makeChannel ok key
    have rest := ih first.ok
    obtain ⟨new, list, mem⟩ := first.unserved
    obtain ⟨new', list', mem'⟩ := rest.unserved
    refine ⟨rest.ok, fun k x h => rest.kept k x (first.kept k x h), fun x => ?_, new ++ new', ?_, fun x hx => ?_⟩
    · rw [List.foldl_cons, rest.channels, first.channels]
      simp only [List.mem_cons, List.not_mem_nil, or_false, or_assoc]
    · rw [List.foldl_cons, list', list, List.append_assoc]
    · exact (List.mem_append.1 hx).elim (fun h => List.mem_cons.2 (.inl (List.mem_singleton.1 (mem x h))))
        fun h => List.mem_cons_of_mem key (mem' x h)

/-! ## Channels removed (R38, R155, R156) -/

theorem removeUnserved_dist (key : Key) : (s.removeUnserved key).dist = (s.setUnserved (s.dist.unserved.filter (· ≠ key))).dist := by
  unfold removeUnserved
  cases place : positionOf key s.dist.unserved 1 with
  | none =>
    have kept : s.dist.unserved.filter (· ≠ key) = s.dist.unserved := List.filter_eq_self.2 fun x hx =>
      decide_eq_true fun e => Kept.positionOf_none place (e ▸ hx)
    rw [kept]
    rfl
  | some i => exact queueRoomMaps_dist

theorem foldl_removeUnserved (keys : List Key) (s : State) :
    (keys.foldl removeUnserved s).dist.allocation = s.dist.allocation ∧
      (keys.foldl removeUnserved s).dist.unserved = s.dist.unserved.filter (fun x => decide (x ∉ keys)) := by
  induction keys generalizing s with
  | nil => simp
  | cons key keys ih =>
    obtain ⟨table, list⟩ := ih (s.removeUnserved key)
    rw [List.foldl_cons, table, list, removeUnserved_dist]
    refine ⟨rfl, ?_⟩
    show (s.dist.unserved.filter (· ≠ key)).filter (fun x => decide (x ∉ keys)) = _
    rw [List.filter_filter]
    refine List.filter_congr fun x _ => ?_
    simp [Bool.and_comm]

/-- What removing channels leaves: every other channel its slot, and the unserved list its order, less what has taken a slot. -/
structure Removed (s t : State) (keys : List Key) : Prop where
  ok : t.ChannelsOk
  kept : ∀ k key, s.entry k = some key → key ∉ keys → t.entry k = some key
  channels : ∀ key, t.hasChannel key = true ↔ s.hasChannel key = true ∧ key ∉ keys
  unserved : ∃ n, t.dist.unserved = (s.dist.unserved.filter (fun x => decide (x ∉ keys))).drop n

theorem giveSlot_dist (k : Nat) : (s.giveSlot k).dist =
    ((s.setSlot k s.dist.unserved.head?).setUnserved (s.dist.unserved.drop 1)).dist := by
  unfold giveSlot
  cases list : s.dist.unserved with
  | nil => exact (congrArg (fun l => { (s.setSlot k none).dist with unserved := l }) list :)
  | cons head rest => exact queueRoomMaps_dist

/-- The slot of a removed channel goes to the head of the unserved list (R155). -/
theorem removeServed_tables (ok : s.ChannelsOk) (h : s.entry k = some key) :
    (∀ j, (s.removeServed key).entry j = if j = k then s.dist.unserved.head? else s.entry j) ∧
      (s.removeServed key).dist.unserved = s.dist.unserved.drop 1 := by
  have given : s.removeServed key = (s.queueRoomMaps key.anchor).giveSlot k := by
    unfold removeServed
    rw [(slotOf_eq_some_iff ok).2 h]
  have dist : (s.removeServed key).dist = ((s.setSlot k s.dist.unserved.head?).setUnserved (s.dist.unserved.drop 1)).dist := by
    rw [given, giveSlot_dist]
    unfold setUnserved setSlot
    rw [queueRoomMaps_dist]
  exact ⟨fun j => (SameChannels.entry (.of_dist dist) j).trans setSlot_entry, by rw [dist]; rfl⟩

theorem Removed.removeServed (ok : s.ChannelsOk) (out : key ∉ s.dist.unserved) : s.Removed (s.removeServed key) [key] := by
  have okT : (s.removeServed key).ChannelsOk := ((Kept.refl s).removeServed key).channels ok
  have all : s.dist.unserved.filter (fun x => decide (x ∉ [key])) = s.dist.unserved := List.filter_eq_self.2 fun x hx =>
    decide_eq_true fun e => out (List.mem_singleton.1 e ▸ hx)
  cases slot : s.dist.allocation.slotOf key with
  | none =>
    have same : s.removeServed key = s := by
      unfold State.removeServed
      rw [slot]
    have absent : s.hasChannel key ≠ true := fun h =>
      ((hasChannel_iff_entry ok).1 h).elim (fun ⟨k, hk⟩ => Kept.slotOf_none slot k hk) out
    rw [same]
    refine ⟨ok, fun _ _ h _ => h, fun x => ⟨fun h => ⟨h, fun e => absent (List.mem_singleton.1 e ▸ h)⟩, And.left⟩, 0, ?_⟩
    rw [all]
    rfl
  | some k =>
    have here : s.entry k = some key := (slotOf_eq_some_iff ok).1 slot
    obtain ⟨entry, list⟩ := removeServed_tables ok here
    refine ⟨okT, fun j x h other => ?_, fun x => ?_, 1, ?_⟩
    · rw [entry, if_neg, h]
      rintro rfl
      exact other (List.mem_singleton.2 (Option.some.inj (h.symm.trans here)))
    · rw [hasChannel_iff_entry okT, hasChannel_iff_entry ok, list, List.mem_singleton]
      simp only [entry]
      constructor
      · rintro (⟨j, h⟩ | listed)
        · split at h
          · have first := List.mem_of_head? h
            exact ⟨.inr first, fun e => out (e ▸ first)⟩
          · next elsewhere =>
            refine ⟨.inl ⟨j, h⟩, fun e => elsewhere (ok.one j k key ?_ here)⟩
            rw [← e]
            exact h
        · have first := List.mem_of_mem_drop listed
          exact ⟨.inr first, fun e => out (e ▸ first)⟩
      · rintro ⟨⟨j, h⟩ | listed, other⟩
        · refine .inl ⟨j, ?_⟩
          rw [if_neg, h]
          rintro rfl
          exact other (Option.some.inj (h.symm.trans here))
        · cases queue : s.dist.unserved with
          | nil =>
            rw [queue] at listed
            cases listed
          | cons head rest =>
            rw [queue] at listed
            rcases List.mem_cons.1 listed with rfl | later
            · exact .inl ⟨k, if_pos rfl⟩
            · exact .inr later
    · rw [list, all]

theorem Removed.foldl (ok : s.ChannelsOk) (keys : List Key) (out : ∀ key ∈ keys, key ∉ s.dist.unserved) :
    s.Removed (keys.foldl State.removeServed s) keys := by
  induction keys generalizing s with
  | nil =>
    refine ⟨ok, fun _ _ h _ => h, fun x => by simp, 0, ?_⟩
    rw [List.filter_eq_self.2 fun x _ => by simp]
    rfl
  | cons key keys ih =>
    have first := Removed.removeServed ok (out key List.mem_cons_self)
    obtain ⟨n, list⟩ := first.unserved
    have rest := ih first.ok fun x hx listed =>
      out x (List.mem_cons_of_mem key hx) (List.mem_filter.1 (List.mem_of_mem_drop (list ▸ listed))).1
    obtain ⟨m, list'⟩ := rest.unserved
    refine ⟨rest.ok, fun k x h other => ?_, fun x => ?_, n + m, ?_⟩
    · rw [List.mem_cons, not_or] at other
      exact rest.kept k x (first.kept k x h (fun e => other.1 (List.mem_singleton.1 e))) other.2
    · rw [List.foldl_cons, rest.channels, first.channels]
      simp only [List.mem_cons, List.not_mem_nil, or_false, not_or, and_assoc]
    · have all : ∀ ks : List Key, (∀ x ∈ ks, x ∉ s.dist.unserved) →
          s.dist.unserved.filter (fun x => decide (x ∉ ks)) = s.dist.unserved := fun ks hk =>
        List.filter_eq_self.2 fun x hx => decide_eq_true fun e => hk x e hx
      rw [all [key] fun x hx => out x (List.mem_cons.2 (.inl (List.mem_singleton.1 hx)))] at list
      rw [List.foldl_cons, list', list, all (key :: keys) out, List.filter_eq_self.2, List.drop_drop]
      exact fun x hx => decide_eq_true fun e => out x (List.mem_cons_of_mem key e) (List.mem_of_mem_drop hx)

/-- Several channels are removed, those that wait before those that are served (R38). -/
theorem Removed.removeChannels (ok : s.ChannelsOk) (keys : List Key) : s.Removed (s.removeChannels keys) keys := by
  obtain ⟨waiting, hw⟩ : ∃ waiting, waiting = keys.filter (fun key => (positionOf key s.dist.unserved 1).isSome) := ⟨_, rfl⟩
  obtain ⟨served, hs⟩ : ∃ served, served = keys.filter (fun key => (s.dist.allocation.slotOf key).isSome) := ⟨_, rfl⟩
  obtain ⟨v, hv⟩ : ∃ v, v = waiting.foldl State.removeUnserved s := ⟨_, rfl⟩
  have memW : ∀ x, x ∈ waiting ↔ x ∈ keys ∧ x ∈ s.dist.unserved := fun x => by
    rw [hw, List.mem_filter, isSome_positionOf]
  have memS : ∀ x, x ∈ served ↔ x ∈ keys ∧ ∃ k, s.entry k = some x := fun x => by
    rw [hs, List.mem_filter, Option.isSome_iff_exists]
    exact and_congr_right fun _ => exists_congr fun k => slotOf_eq_some_iff ok
  have okV : v.ChannelsOk := by
    rw [hv]
    exact ((Kept.refl s).fold _ (fun _ _ h => h.removeUnserved _) waiting).channels ok
  obtain ⟨table, list⟩ := foldl_removeUnserved waiting s
  rw [← hv] at table list
  have entry : ∀ k, v.entry k = s.entry k := fun k => by
    unfold State.entry
    rw [table]
  have listV : v.dist.unserved = s.dist.unserved.filter (fun x => decide (x ∉ keys)) := by
    rw [list]
    refine List.filter_congr fun x hx => ?_
    rw [decide_eq_decide, memW]
    exact ⟨fun h e => h ⟨e, hx⟩, fun h e => h e.1⟩
  have whole : s.removeChannels keys = served.foldl State.removeServed v := by
    rw [hv, hw, hs]
    rfl
  have rest := Removed.foldl okV served fun x hx listed => by
    rw [listV] at listed
    exact of_decide_eq_true (List.mem_filter.1 listed).2 ((memS x).1 hx).1
  rw [whole]
  obtain ⟨n, list'⟩ := rest.unserved
  refine ⟨rest.ok, fun k x h other => rest.kept k x ((entry k).trans h) fun e => other ((memS x).1 e).1, fun x => ?_, n, ?_⟩
  · rw [rest.channels, hasChannel_iff_entry okV, hasChannel_iff_entry ok, listV, memS, List.mem_filter, decide_eq_true_eq]
    simp only [entry]
    constructor
    · rintro ⟨(⟨k, h⟩ | ⟨listed, other⟩), out⟩
      · exact ⟨.inl ⟨k, h⟩, fun e => out ⟨e, k, h⟩⟩
      · exact ⟨.inr listed, other⟩
    · rintro ⟨h, other⟩
      exact ⟨h.imp_right fun listed => ⟨listed, other⟩, fun e => other e.1⟩
  · rw [list', listV, List.filter_eq_self.2]
    exact fun x hx => decide_eq_true fun e => of_decide_eq_true (List.mem_filter.1 hx).2 ((memS x).1 e).1

/-! ## Channels under new keys (R47, R154) -/

/-- What re-keying leaves: the slots and the order of the list, with the keys mapped. -/
structure Rekeyed (s t : State) (f : Key → Key) : Prop where
  ok : t.ChannelsOk
  entry : ∀ k, t.entry k = (s.entry k).map f
  unserved : t.dist.unserved = s.dist.unserved.map f

theorem Rekeyed.channels (h : s.Rekeyed t f) (ok : s.ChannelsOk) :
    t.hasChannel key = true ↔ ∃ x, s.hasChannel x = true ∧ f x = key := by
  rw [hasChannel_iff_entry h.ok, h.unserved, List.mem_map]
  simp only [h.entry, hasChannel_iff_entry ok, Option.map_eq_some_iff]
  constructor
  · rintro (⟨k, x, hx, fx⟩ | ⟨x, hx, fx⟩)
    · exact ⟨x, .inl ⟨k, hx⟩, fx⟩
    · exact ⟨x, .inr hx, fx⟩
  · rintro ⟨x, ⟨k, hx⟩ | hx, fx⟩
    · exact .inl ⟨k, x, hx, fx⟩
    · exact .inr ⟨x, hx, fx⟩

theorem Rekeyed.rekey (ok : s.ChannelsOk) (absent : s.hasChannel new = false) :
    s.Rekeyed (s.rekey old new) (fun x => if x = old then new else x) := by
  have okT : (s.rekey old new).ChannelsOk := ((Kept.refl s).rekey old new).channels ok
  have written : s.rekey old new = match s.dist.allocation.slotOf old with
      | some k => s.setSlot k (some new)
      | none => s.setUnserved (s.dist.unserved.map (fun x => if x = old then new else x)) := by
    unfold State.rekey
    rw [absent]
    rfl
  rw [written] at okT ⊢
  cases slot : s.dist.allocation.slotOf old with
  | some k =>
    have here : s.entry k = some old := (slotOf_eq_some_iff ok).1 slot
    rw [slot] at okT
    refine ⟨okT, fun j => ?_, ?_⟩
    · show (s.setSlot k (some new)).entry j = _
      rw [setSlot_entry]
      split
      · next at_ => rw [at_, here, Option.map_some, if_pos rfl]
      · next elsewhere =>
        cases other : s.entry j with
        | none => rfl
        | some x =>
          rw [Option.map_some, if_neg]
          rintro rfl
          exact elsewhere (ok.one j k x other here)
    · show s.dist.unserved = _
      refine (List.map_id'' (fun _ => rfl) _).symm.trans (List.map_congr_left fun x hx => (if_neg ?_).symm)
      rintro rfl
      exact ok.apart k x here hx
  | none =>
    rw [slot] at okT
    refine ⟨okT, fun j => ?_, rfl⟩
    show s.entry j = _
    cases other : s.entry j with
    | none => rfl
    | some x =>
      rw [Option.map_some, if_neg]
      rintro rfl
      exact Kept.slotOf_none slot j other

/-- The key of a channel of these codes moves from anchor `b` to anchor `a`. -/
def moved (a b : Nat) (codes : List Nat) (x : Key) : Key := if x.anchor = b ∧ x.code ∈ codes then ⟨a, x.code⟩ else x

theorem moved_of_anchor {b : Nat} {codes : List Nat} (h : key.anchor ≠ b) : moved a b codes key = key := if_neg fun e => h e.1

theorem moved_nil {b : Nat} : moved a b [] = id := funext fun x => if_neg (by simp)

theorem moved_cons {b c : Nat} {codes : List Nat} (apart : a ≠ b) (x : Key) :
    moved a b codes (if x = ⟨b, c⟩ then ⟨a, c⟩ else x) = moved a b (c :: codes) x := by
  split
  · next e =>
    rw [moved_of_anchor apart, e]
    exact (if_pos ⟨rfl, List.mem_cons_self⟩).symm
  · next other =>
    unfold moved
    refine ite_congr (propext (and_congr_right fun hb => ?_)) (fun _ => rfl) fun _ => rfl
    rw [List.mem_cons, or_iff_right]
    intro hc
    apply other
    cases x
    subst hb hc
    rfl

/-- The channels of several codes move from one anchor to another that has none of them. -/
theorem Rekeyed.foldl {b : Nat} (apart : a ≠ b) (codes : List Nat) (once : codes.Nodup) (ok : s.ChannelsOk)
    (absent : ∀ c ∈ codes, s.hasChannel ⟨a, c⟩ = false) :
    s.Rekeyed (codes.foldl (fun t c => t.rekey ⟨b, c⟩ ⟨a, c⟩) s) (moved a b codes) := by
  induction codes generalizing s with
  | nil =>
    rw [moved_nil]
    exact ⟨ok, fun k => Option.map_id'.symm, (List.map_id _).symm⟩
  | cons c codes ih =>
    obtain ⟨fresh, once⟩ := List.nodup_cons.1 once
    have first := Rekeyed.rekey (old := ⟨b, c⟩) (new := ⟨a, c⟩) ok (absent c List.mem_cons_self)
    have still : ∀ d ∈ codes, (s.rekey ⟨b, c⟩ ⟨a, c⟩).hasChannel ⟨a, d⟩ = false := fun d hd => by
      rw [Bool.eq_false_iff]
      intro there
      obtain ⟨x, hx, fx⟩ := (first.channels ok).1 there
      split at fx
      · cases fx
        exact fresh hd
      · rw [fx, absent d (List.mem_cons_of_mem c hd)] at hx
        cases hx
    have rest := ih once first.ok still
    have step : ∀ x : Key, moved a b codes (if x = ⟨b, c⟩ then ⟨a, c⟩ else x) = moved a b (c :: codes) x := moved_cons apart
    refine ⟨rest.ok, fun k => ?_, ?_⟩
    · rw [List.foldl_cons, rest.entry, first.entry, Option.map_map]
      exact congrArg (fun f => Option.map f _) (funext step)
    · rw [List.foldl_cons, rest.unserved, first.unserved, List.map_map]
      exact congrArg (fun f => List.map f _) (funext step)

end

end State

end Sys2Proof.Machine
end

section
/-! SUPPORT. Owners of channels that lose them or keep them under new keys (R25, R48, R56), and O11. -/

namespace Sys2Proof.Machine

/-- A console but for its indication. -/
def Console.core (c : Console) : Console := { c with indication := none }

theorem Console.eq_of_core {c d : Console} (h : c.core = d.core) : c = { d with indication := c.indication } := by
  cases c
  cases d
  cases h
  rfl

theorem Console.core_of_eq {c d : Console} {i : Option Indication} (h : c = { d with indication := i }) : c.core = d.core := by
  rw [h]
  rfl

theorem Console.owned_of_core {c d : Console} (h : c.core = d.core) : c.owned = d.owned := (congrArg Console.owned h :)

/-- A console that gives its channel up. -/
def Console.freed (c : Console) : Console := { c with state := .releasing, owned := none }

namespace State

section
variable {s t u v w : State} {a b : Nat} {r : Room} {key : Key} {keys : List Key}

theorem OnlyShows.core (h : s.OnlyShows t) (o : Nat) : (t.console o).core = (s.console o).core := Console.core_of_eq (h o)

theorem ownersOk_of_consoles (h : t.booth.consoles = s.booth.consoles) (ok : s.OwnersOk) : t.OwnersOk := by
  have console : ∀ o, t.console o = s.console o := fun o => by
    unfold State.console
    rw [h]
  refine ⟨by rw [h]; exact ok.canonical, fun o => ?_, fun o d x => ?_⟩
  · rw [console]
    exact ok.owner o
  · rw [console, console]
    exact ok.one o d x

/-- Each owner of one of these channels takes its turn, and no other console does. -/
theorem foldl_owners {α : Type} {step : State → α → State} {key : α → Key} {turn : Key → Console → Console} {P : State → Prop}
    (xs : List α) (start : P s) (leaves : ∀ x y c, (turn (key x) c).owned ≠ some (key y))
    (turns : ∀ v, ∀ x ∈ xs, P v → P (step v x) ∧ ∀ o, ((step v x).console o).core =
      if (v.console o).owned = some (key x) then turn (key x) (v.console o).core else (v.console o).core) :
    P (xs.foldl step s) ∧ ∀ o, ((∀ x ∈ xs, (s.console o).owned ≠ some (key x)) →
        ((xs.foldl step s).console o).core = (s.console o).core) ∧
      ∀ x ∈ xs, (s.console o).owned = some (key x) → ((xs.foldl step s).console o).core = turn (key x) (s.console o).core := by
  induction xs generalizing s with
  | nil => exact ⟨start, fun o => ⟨fun _ => rfl, nofun⟩⟩
  | cons x xs ih =>
    obtain ⟨next, first⟩ := turns s x List.mem_cons_self start
    obtain ⟨last, rest⟩ := ih next fun v y hy => turns v y (List.mem_cons_of_mem x hy)
    refine ⟨last, fun o => ⟨fun none => ?_, fun y hy owned => ?_⟩⟩
    · have now := first o
      rw [if_neg (none x List.mem_cons_self)] at now
      rw [List.foldl_cons, (rest o).1 fun y hy => ?_, now]
      rw [Console.owned_of_core now]
      exact none y (List.mem_cons_of_mem x hy)
    · have now := first o
      by_cases here : (s.console o).owned = some (key x)
      · rw [if_pos here] at now
        have same : key x = key y := Option.some.inj (here.symm.trans owned)
        have gone : ((step s x).console o).owned = (turn (key x) (s.console o).core).owned := (congrArg Console.owned now :)
        rw [List.foldl_cons, (rest o).1 fun z _ => ?_, now, same]
        rw [gone]
        exact leaves x z _
      · rw [if_neg here] at now
        have later : y ∈ xs := (List.mem_cons.1 hy).resolve_left fun e => here (e ▸ owned)
        rw [List.foldl_cons, (rest o).2 y later ((Console.owned_of_core now).trans owned), now]

/-- A step that frees the owner of a channel, if it has one. -/
theorem turn_of_freed {f : State → Nat → State} (ok : v.OwnersOk)
    (hf : ∀ c d, ((f v c).console d).core = if d = c then (v.console c).core.freed else (v.console d).core)
    {step : State} (free : v.ownerOf key = none → step = v) (owned : ∀ c, v.ownerOf key = some c → step = f v c) (o : Nat) :
    (step.console o).core = if (v.console o).owned = some key then (v.console o).core.freed else (v.console o).core := by
  cases owner : v.ownerOf key with
  | none => rw [free owner, if_neg (Kept.owned_of_ownerOf_none owner o)]
  | some c =>
    rw [owned c owner, hf]
    have ofC := (ownerOf_eq_some_iff ok).1 owner
    by_cases here : o = c
    · rw [if_pos here, here, if_pos ofC]
    · rw [if_neg here, if_neg fun own => here (ok.one o c key own ofC)]

theorem releaseOwners_freed (ok : s.OwnersOk) (keys : List Key) (cause : BoothCause) : (s.releaseOwners keys cause).OwnersOk ∧
    ∀ o, ∀ key ∈ keys, (s.console o).owned = some key → ((s.releaseOwners keys cause).console o).core = (s.console o).core.freed := by
  have turns := foldl_owners (key := id) (turn := fun _ c => c.freed) (P := OwnersOk)
    (step := fun t key => match t.ownerOf key with
      | none => t
      | some c => t.release c cause none) keys ok (fun _ _ _ e => nomatch e)
  obtain ⟨last, turned⟩ := turns fun v key _ okV => by
    constructor
    · split
      · exact okV
      · exact ((Kept.refl v).release _ cause none).owners okV
    · refine turn_of_freed (key := key) okV (f := fun v c => v.release c cause none) (fun c d => ?_)
        (fun none => by rw [none]) fun c owner => by rw [owner]
      show ((v.release c cause none).console d).core = _
      rw [release_console]
      split <;> rfl
  exact ⟨last, fun o key hk owned => (turned o).2 key hk owned⟩

/-! ## A new language list in session (R25) -/

/-- The keys of the room's channels of these codes. -/
def keysOf (a : Nat) (codes : List Nat) : List Key := codes.map (fun c => ⟨a, c⟩)

theorem mem_keysOf {a c : Nat} {codes : List Nat} : (⟨a, c⟩ : Key) ∈ keysOf a codes ↔ c ∈ codes := by
  simp [keysOf]

/-- The room has its new list, and the owners of removed channels are released. -/
def unowned (s : State) (r : Room) (codes : List Nat) : State :=
  (s.setLanguages r.anchor codes).releaseOwners (keysOf r.anchor (r.profile.languages.filter (fun c => !(codes.contains c))))
    .languageRemoved

/-- The channels of the room are those of its new list. -/
def realigned (s : State) (r : Room) (codes : List Nat) : State :=
  ((s.unowned r codes).removeChannels (keysOf r.anchor (r.profile.languages.filter (fun c => !(codes.contains c))))).makeChannels
    (keysOf r.anchor (codes.filter (fun c => !(r.profile.languages.contains c))))

theorem realign_eq {codes : List Nat} : s.realign r codes = ((s.realigned r codes).queueMaps r.segments).boothWork r.anchor := rfl

theorem unowned_onBooths {codes : List Nat} : (s.setLanguages r.anchor codes).OnBooths (s.unowned r codes) := by
  unfold unowned releaseOwners
  refine OnBooths.fold (fun v key => ?_) _ _
  split
  · exact .refl v
  · exact .release _ _ none

theorem realigned_onDist {codes : List Nat} : (s.unowned r codes).OnDist (s.realigned r codes) :=
  (OnDist.removeChannels _).trans (.makeChannels _)

theorem setLanguages_dist {codes : List Nat} : (s.setLanguages a codes).dist = s.dist := (OnFloor.modRoom a _).dist

theorem setLanguages_booth {codes : List Nat} : (s.setLanguages a codes).booth = s.booth := (OnFloor.modRoom a _).booth

theorem realign_dist {codes : List Nat} : (s.realign r codes).dist = (s.realigned r codes).dist := by
  rw [realign_eq, boothWork_dist, queueMaps_dist]

theorem unowned_dist {codes : List Nat} : (s.unowned r codes).dist = s.dist := unowned_onBooths.dist.trans setLanguages_dist

theorem realign_room {codes : List Nat} (hr : s.room a = some r) (anchor : r.anchor = a) :
    ∃ x, (s.realign r codes).room a = some x ∧ x.profile = { r.profile with languages := codes } ∧ x.session = r.session := by
  subst anchor
  have room : (s.realigned r codes).room r.anchor = some { r with profile := { r.profile with languages := codes } } := by
    rw [realigned_onDist.room, unowned_onBooths.shown.room, setLanguages, modRoom_of_room hr, setRoom_room, if_pos rfl]
  obtain ⟨x, hx, steady, -⟩ := ((Extends.queueMaps (s := s.realigned r codes) r.segments).trans (.boothWork r.anchor)).rooms _ _ room
  exact ⟨x, hx, (congrArg Room.profile steady :), (congrArg Room.session steady :)⟩

theorem realign_added {codes : List Nat} {c : Nat} (hc : c ∈ codes) (new : c ∉ r.profile.languages) :
    (s.realign r codes).hasChannel ⟨r.anchor, c⟩ = true := by
  rw [hasChannel_of_dist realign_dist]
  exact hasChannel_makeChannels (.inl (mem_keysOf.2 (List.mem_filter.2 ⟨hc, by simpa using new⟩)))

theorem realign_channels {codes : List Nat} (ok : s.ChannelsOk) {c : Nat} :
    (c ∈ r.profile.languages → c ∉ codes → (s.realign r codes).hasChannel ⟨r.anchor, c⟩ = false) ∧
      (c ∈ codes → ∀ k, s.service ⟨r.anchor, c⟩ = .served k → (s.realign r codes).service ⟨r.anchor, c⟩ = .served k) := by
  have same : s.SameChannels (s.unowned r codes) := .of_dist unowned_dist
  have removed := Removed.removeChannels (same.ok ok) (keysOf r.anchor (r.profile.languages.filter (fun c => !(codes.contains c))))
  have made := Made.makeChannels removed.ok (keysOf r.anchor (codes.filter (fun c => !(r.profile.languages.contains c))))
  have last : (s.realigned r codes).SameChannels (s.realign r codes) := .of_dist realign_dist
  constructor
  · intro old out
    rw [last.hasChannel, Bool.eq_false_iff]
    intro there
    rcases (made.channels _).1 there with before | new
    · exact ((removed.channels _).1 before).2 (mem_keysOf.2 (List.mem_filter.2 ⟨old, by simpa using out⟩))
    · exact out (List.mem_filter.1 (mem_keysOf.1 new)).1
  · intro stays k served
    rw [service_eq_served_iff (last.ok made.ok)]
    refine (last.entry k).trans (made.kept k _ (removed.kept k _ ?_ fun gone => ?_))
    · exact (same.entry k).trans ((service_eq_served_iff ok).1 served)
    · simpa [stays] using (List.mem_filter.1 (mem_keysOf.1 gone)).2

theorem realign_owners {codes : List Nat} (ok : s.OwnersOk) {c o : Nat} (old : c ∈ r.profile.languages) (out : c ∉ codes)
    (owner : s.ownerOf ⟨r.anchor, c⟩ = some o) :
    ((s.realign r codes).console o).state = .releasing ∧ ((s.realign r codes).console o).owned = none := by
  have booth : (s.setLanguages r.anchor codes).booth = s.booth := setLanguages_booth
  have console : (s.setLanguages r.anchor codes).console o = s.console o := by
    unfold State.console
    rw [booth]
  have freed := (releaseOwners_freed (ownersOk_of_consoles (congrArg BoothUnit.consoles booth) ok)
    (keysOf r.anchor (r.profile.languages.filter (fun c => !(codes.contains c)))) .languageRemoved).2 o ⟨r.anchor, c⟩
      (mem_keysOf.2 (List.mem_filter.2 ⟨old, by simpa using out⟩)) (by rw [console]; exact (ownerOf_eq_some_iff ok).1 owner)
  have shows : (s.unowned r codes).OnlyShows (s.realign r codes) := by
    have before : ((s.realigned r codes).queueMaps r.segments).booth = (s.unowned r codes).booth :=
      (OnDist.queueMaps r.segments).booth.trans realigned_onDist.booth
    rw [realign_eq]
    exact (OnlyShows.of_consoles (congrArg BoothUnit.consoles before)).trans (Sits.boothWork r.anchor).consoles
  have core := (shows.core o).trans freed
  exact ⟨(congrArg Console.state core :), (congrArg Console.owned core :)⟩

theorem handleLanguagesSet_eq {kb nb : Byte} {bs : List Byte} (at_ : s.RoomAt kb.toNat a r) (length : bs.length = nb.toNat) :
    handleLanguagesSet (kb :: nb :: bs) s.popInput =
      if !(languagesRight (bs.map BitVec.toNat)) then refuse s.popInput .badValue
      else if r.session = .ending then refuse s.popInput .wrongState
      else (s.popInput.relanguage r (bs.map BitVec.toNat), .ok (.room a)) := by
  have read : readLanguagesSet (kb :: nb :: bs) = some (kb.toNat, bs.map BitVec.toNat) := by
    unfold readLanguagesSet
    rw [if_pos]
    · rfl
    · simp [byteAt, length]
      omega
  unfold handleLanguagesSet
  rw [withBody_of_some read, State.inRoom_of_roomAt at_, at_.anchor]

end

end State

end Sys2Proof.Machine

open Sys2Proof.Machine

/-- Settles O11. -/
theorem languagesSetReplacesTheSet : Obligations.LanguagesSetReplacesTheSet := by
  unfold Obligations.LanguagesSetReplacesTheSet
  rintro s tag kb nb bs codes a r take run at_ length rfl
  have handled := State.handleLanguagesSet_eq at_ length
  refine ⟨fun wrong => ?_, fun short range once => ?_⟩
  · have bad : languagesRight (bs.map BitVec.toNat) = false := by
      rw [Bool.eq_false_iff, ne_eq, languagesRight_iff]
      rintro ⟨short, range, once⟩
      rcases wrong with long | ⟨c, hc, low | high⟩ | twice
      · omega
      · have := range c hc; omega
      · have := range c hc; omega
      · exact twice once
    rw [bad] at handled
    exact congrArg Host.Outcome.next (State.request_of_refuse take (by simp [Allowed.permits, run]) handled)
  · have good : languagesRight (bs.map BitVec.toNat) = true := languagesRight_iff.2 ⟨short, range, once⟩
    rw [good] at handled
    replace handled := handled.trans (if_neg (by decide))
    have executed : r.session ≠ .ending → exec (.languagesSet tag (kb :: nb :: bs)) s =
        .next ((s.popInput.relanguage r (bs.map BitVec.toNat)).reply ⟨0x0B, tag, .ok (.room a)⟩) := fun other => by
      rw [if_neg other] at handled
      exact congrArg Host.Outcome.next (State.request_of_handled take (by simp [Allowed.permits, run]) handled)
    refine ⟨fun ending => ?_, fun out => ?_, fun session => ?_⟩
    · rw [if_pos ending] at handled
      exact congrArg Host.Outcome.next (State.request_of_refuse take (by simp [Allowed.permits, run]) handled)
    · have other : r.session ≠ .ending ∧ r.session ≠ .inSession := by rcases out with e | e <;> rw [e] <;> decide
      have executed := executed other.1
      unfold State.relanguage at executed
      by_cases same : bs.map BitVec.toNat = r.profile.languages
      · rw [if_pos same] at executed
        rw [same]
        exact ⟨_, executed, at_.room, fun _ _ => rfl, rfl⟩
      · rw [if_neg same, if_neg other.2, State.setLanguages, at_.anchor, State.modRoom_of_room (s := s.popInput) at_.room] at executed
        exact ⟨_, executed, (State.setRoom_rooms s.popInput a _).1, (State.setRoom_rooms s.popInput a _).2, rfl⟩
    · have executed := executed (by rw [session]; decide)
      unfold State.relanguage at executed
      by_cases same : bs.map BitVec.toNat = r.profile.languages
      · rw [if_pos same] at executed
        rw [same]
        have replied : s.SameChannels (s.popInput.reply ⟨0x0B, tag, .ok (.room a)⟩) := ⟨rfl, rfl⟩
        exact ⟨_, r, executed, at_.room, rfl, session, fun c hc new => absurd hc new,
          fun _ => ⟨fun c hc out => absurd hc out, fun c _ _ k served => (replied.service _).trans served⟩, fun _ c hc out => absurd hc out⟩
      · rw [if_neg same, if_pos session] at executed
        obtain ⟨x, room, profile, state⟩ := State.realign_room (s := s.popInput) (codes := bs.map BitVec.toNat) at_.room at_.anchor
        obtain rfl := at_.anchor
        have channels := fun (ok : s.ChannelsOk) c => State.realign_channels (r := r) (codes := bs.map BitVec.toNat)
          ((State.SameChannels.of_dist rfl : s.SameChannels s.popInput).ok ok) (c := c)
        have owners := fun (ok : s.OwnersOk) c o => State.realign_owners (r := r) (codes := bs.map BitVec.toNat) (c := c) (o := o)
          (State.ownersOk_of_consoles (s := s) (t := s.popInput) rfl ok)
        have added := fun c => State.realign_added (s := s.popInput) (r := r) (codes := bs.map BitVec.toNat) (c := c)
        generalize s.popInput.realign r (bs.map BitVec.toNat) = w at executed room channels owners added
        have replied : w.SameChannels (w.reply ⟨0x0B, tag, .ok (.room r.anchor)⟩) := ⟨rfl, rfl⟩
        exact ⟨_, x, executed, room, profile, state.trans session, fun c hc new => (replied.hasChannel _).trans (added c hc new),
          fun ok => ⟨fun c old out => (replied.hasChannel _).trans ((channels ok c).1 old out),
            fun c hc _ k served => (replied.service _).trans ((channels ok c).2 hc k served)⟩,
          fun ok c old out o owner => owners ok c o old out owner⟩
end

section
/-! SUPPORT. The channels and the owners of a merge (R47, R48). -/

namespace Sys2Proof.Machine

/-! ## The merged set (R46) -/

section
variable {p q : List Nat} {c : Nat}

theorem mem_merged_or_cut (hc : c ∈ q) : c ∈ (mergedLanguages p q).1 ∨ c ∈ (mergedLanguages p q).2 := by
  have all : c ∈ p ++ q.filter (fun c => !(p.contains c)) := by
    by_cases hp : c ∈ p
    · exact List.mem_append_left _ hp
    · exact List.mem_append_right _ (List.mem_filter.2 ⟨hc, by simpa using hp⟩)
  rw [← List.take_append_drop 8 (p ++ _)] at all
  exact List.mem_append.1 all

theorem mem_merged_of_first (short : p.length ≤ 8) (hc : c ∈ p) : c ∈ (mergedLanguages p q).1 := by
  show c ∈ (p ++ q.filter (fun c => !(p.contains c))).take 8
  rw [List.take_append, List.take_of_length_le short]
  exact List.mem_append_left _ hc

theorem merged_nodup (hp : p.Nodup) (hq : q.Nodup) : (mergedLanguages p q).1.Nodup := by
  refine List.Nodup.sublist (List.take_sublist 8 _) (List.nodup_append.2 ⟨hp, hq.filter _, fun x hx y hy e => ?_⟩)
  have out := (List.mem_filter.1 hy).2
  rw [← e] at out
  simp [hx] at out

end

/-- A console that keeps its channel under another anchor. -/
def Console.rekeyed (a : Nat) (key : Key) (c : Console) : Console := { c with owned := some ⟨a, key.code⟩ }

namespace State

section
variable {s t u v w : State} {a b c o k : Nat} {p q r m : Room} {key : Key} {codes cut kept : List Nat}

/-! ## Channels (R47) -/

/-- What the channel work of a merge leaves, where P's codes have anchor `a` and Q's anchor `b`. -/
structure ChannelsMerged (s t : State) (a b : Nat) (codes : List Nat) : Prop where
  ok : t.ChannelsOk
  gone : ∀ c, t.hasChannel ⟨b, c⟩ = false
  have_ : ∀ c, t.hasChannel ⟨a, c⟩ = true ↔ c ∈ codes
  kept : ∀ k key, s.entry k = some key → key.anchor ≠ b → t.entry k = some key
  moved : ∀ k c, s.entry k = some ⟨b, c⟩ → c ∈ codes → s.hasChannel ⟨a, c⟩ = false → t.entry k = some ⟨a, c⟩
  others : ∀ key : Key, key.anchor ≠ a → key.anchor ≠ b → t.hasChannel key = s.hasChannel key
  unserved : ∃ n new, t.dist.unserved = ((s.dist.unserved.filter (fun key => decide (key.anchor ≠ b ∨
      key.code ∈ codes ∧ s.hasChannel ⟨a, key.code⟩ = false))).map
        (fun key => if key.anchor = b then ⟨a, key.code⟩ else key)).drop n ++ new ∧ ∀ key ∈ new, key.anchor = a

theorem anchor_of_mem_keysOf (h : key ∈ keysOf a codes) : key.anchor = a := by
  obtain ⟨c, -, rfl⟩ := List.mem_map.1 h
  rfl

theorem moved_eq_iff_of_source {moving : List Nat} {x : Key} (apart : a ≠ b) :
    moved a b moving x = ⟨b, c⟩ ↔ x = ⟨b, c⟩ ∧ c ∉ moving := by
  unfold moved
  split
  · next h =>
    constructor
    · rintro ⟨⟩
      exact absurd rfl apart
    · rintro ⟨rfl, out⟩
      exact absurd h.2 out
  · next h =>
    refine ⟨fun e => ⟨e, fun hc => h ?_⟩, And.left⟩
    rw [e]
    exact ⟨rfl, hc⟩

theorem moved_eq_iff_of_target {moving : List Nat} {x : Key} (apart : a ≠ b) :
    moved a b moving x = ⟨a, c⟩ ↔ x = ⟨a, c⟩ ∨ x = ⟨b, c⟩ ∧ c ∈ moving := by
  obtain ⟨anchor, code⟩ := x
  unfold moved
  by_cases h : anchor = b ∧ code ∈ moving
  · obtain ⟨rfl, hc⟩ := h
    rw [if_pos ⟨rfl, hc⟩]
    simp only [Key.mk.injEq, true_and]
    exact ⟨fun e => .inr ⟨e, e ▸ hc⟩, fun e => e.elim (fun e => absurd e.1.symm apart) And.left⟩
  · rw [if_neg h]
    refine ⟨.inl, fun e => e.resolve_right ?_⟩
    rintro ⟨⟨⟩, hc⟩
    exact h ⟨rfl, hc⟩

/-- The three steps of R47: channels keep their slots under new keys, channels are removed, and channels are made. -/
theorem ChannelsMerged.of_steps {moving going making : List Nat} (ok : s.ChannelsOk) (apart : a ≠ b)
    (rekeyed : s.Rekeyed t (State.moved a b moving)) (removed : t.Removed u (keysOf b going)) (made : u.Made v (keysOf a making))
    (first : ∀ c, s.hasChannel ⟨a, c⟩ = true → c ∈ codes)
    (moves : ∀ c, c ∈ moving ↔ c ∈ codes ∧ s.hasChannel ⟨a, c⟩ = false ∧ s.hasChannel ⟨b, c⟩ = true)
    (goes : ∀ c, s.hasChannel ⟨b, c⟩ = true → c ∉ moving → c ∈ going)
    (makes : ∀ c, c ∈ making ↔ c ∈ codes ∧ s.hasChannel ⟨a, c⟩ = false ∧ s.hasChannel ⟨b, c⟩ = false) :
    s.ChannelsMerged v a b codes := by
  have notGone : ∀ key : Key, key.anchor ≠ b → key ∉ keysOf b going := fun key h e => h (anchor_of_mem_keysOf e)
  have notMade : ∀ key : Key, key.anchor ≠ a → key ∉ keysOf a making := fun key h e => h (anchor_of_mem_keysOf e)
  have still : ∀ k key, t.entry k = some key → key.anchor ≠ b → v.entry k = some key := fun k key h other =>
    made.kept k key (removed.kept k key h (notGone key other))
  have waits : ∀ x ∈ s.dist.unserved, x.anchor = b → (State.moved a b moving x ∉ keysOf b going ↔ x.code ∈ moving) := fun x hx hb => by
    obtain ⟨anchor, code⟩ := x
    obtain rfl : anchor = b := hb
    have there : s.hasChannel ⟨anchor, code⟩ = true := (hasChannel_iff_entry ok).2 (.inr hx)
    by_cases h : code ∈ moving
    · rw [(moved_eq_iff_of_target apart).2 (.inr ⟨rfl, h⟩)]
      exact ⟨fun _ => h, fun _ => notGone _ apart⟩
    · rw [(moved_eq_iff_of_source apart).2 ⟨rfl, h⟩]
      exact ⟨fun out => absurd (mem_keysOf.2 (goes code there h)) out, fun hc => absurd hc h⟩
  refine ⟨made.ok, fun c => ?_, fun c => ?_, fun k key h other => ?_, fun k c h hc out => ?_, fun key ka kb => ?_, ?_⟩
  · rw [Bool.eq_false_iff]
    intro there
    have before := ((made.channels _).1 there).resolve_right (notMade _ apart.symm)
    obtain ⟨old, stays⟩ := (removed.channels _).1 before
    obtain ⟨x, hx, e⟩ := (rekeyed.channels ok).1 old
    obtain ⟨rfl, out⟩ := (moved_eq_iff_of_source apart).1 e
    exact stays (mem_keysOf.2 (goes c hx out))
  · rw [made.channels, removed.channels, rekeyed.channels ok, mem_keysOf, makes]
    simp only [moved_eq_iff_of_target apart]
    constructor
    · rintro (⟨⟨x, hx, rfl | ⟨rfl, hc⟩⟩, -⟩ | new)
      · exact first c hx
      · exact ((moves c).1 hc).1
      · exact new.1
    · intro hc
      cases old : s.hasChannel ⟨a, c⟩ with
      | true => exact .inl ⟨⟨_, old, .inl rfl⟩, notGone _ apart⟩
      | false =>
        cases other : s.hasChannel ⟨b, c⟩ with
        | true => exact .inl ⟨⟨_, other, .inr ⟨rfl, (moves c).2 ⟨hc, old, other⟩⟩⟩, notGone _ apart⟩
        | false => exact .inr ⟨hc, rfl, rfl⟩
  · refine still k key ?_ other
    rw [rekeyed.entry, h, Option.map_some, moved_of_anchor other]
  · refine still k _ ?_ apart
    have there : s.hasChannel ⟨b, c⟩ = true := (hasChannel_iff_entry ok).2 (.inl ⟨k, h⟩)
    rw [rekeyed.entry, h, Option.map_some, (moved_eq_iff_of_target apart).2 (.inr ⟨rfl, (moves c).2 ⟨hc, out, there⟩⟩)]
  · rw [Bool.eq_iff_iff, made.channels, or_iff_left (notMade key ka), removed.channels, and_iff_left (notGone key kb),
      rekeyed.channels ok]
    constructor
    · rintro ⟨x, hx, e⟩
      by_cases h : x.anchor = b ∧ x.code ∈ moving
      · rw [State.moved, if_pos h] at e
        exact absurd (congrArg Key.anchor e.symm) ka
      · rw [State.moved, if_neg h] at e
        exact e ▸ hx
    · exact fun h => ⟨key, h, moved_of_anchor kb⟩
  · obtain ⟨n, left⟩ := removed.unserved
    obtain ⟨new, joined, mem⟩ := made.unserved
    refine ⟨n, new, ?_, fun key h => anchor_of_mem_keysOf (mem key h)⟩
    rw [joined, left, rekeyed.unserved, List.filter_map]
    refine congrArg (fun l => List.drop n l ++ new) (Eq.trans (List.map_congr_left fun x hx => ?_) (congrArg (List.map _)
      (List.filter_congr fun x hx => ?_)))
    · obtain ⟨listed, stays⟩ := List.mem_filter.1 hx
      by_cases hb : x.anchor = b
      · rw [if_pos hb]
        exact if_pos ⟨hb, ((waits x listed hb).1 (of_decide_eq_true stays))⟩
      · rw [if_neg hb, moved_of_anchor hb]
    · rw [Function.comp_apply, decide_eq_decide]
      by_cases hb : x.anchor = b
      · rw [waits x hx hb, moves]
        have there : s.hasChannel ⟨b, x.code⟩ = true := hb ▸ (hasChannel_iff_entry ok).2 (.inr hx)
        exact ⟨fun h => .inr ⟨h.1, h.2.1⟩, fun h => ⟨(h.resolve_left (fun e => e hb)).1, (h.resolve_left (fun e => e hb)).2, there⟩⟩
      · rw [moved_of_anchor hb]
        exact ⟨fun _ => .inl hb, fun _ => notGone x hb⟩

theorem mergeChannels_merged (ok : s.ChannelsOk) (apart : p.anchor ≠ q.anchor) (once : codes.Nodup)
    (first : ∀ c, s.hasChannel ⟨p.anchor, c⟩ = true → c ∈ codes)
    (second : ∀ c, s.hasChannel ⟨q.anchor, c⟩ = true → c ∈ q.profile.languages ∧ (c ∈ codes ∨ c ∈ cut)) :
    s.ChannelsMerged (s.mergeChannels p q codes cut) p.anchor q.anchor codes := by
  have moves : ∀ c, c ∈ codes.filter (fun c => !(s.hasChannel ⟨p.anchor, c⟩) && s.hasChannel ⟨q.anchor, c⟩) ↔
      c ∈ codes ∧ s.hasChannel ⟨p.anchor, c⟩ = false ∧ s.hasChannel ⟨q.anchor, c⟩ = true := fun c => by
    rw [List.mem_filter, Bool.and_eq_true, Bool.not_eq_true']
  have rekeyed := Rekeyed.foldl apart _ (once.filter _) ok fun c hc => ((moves c).1 hc).2.1
  have removed := Removed.removeChannels rekeyed.ok (keysOf q.anchor (q.profile.languages.filter
    (fun c => s.hasChannel ⟨q.anchor, c⟩ && (s.hasChannel ⟨p.anchor, c⟩ || cut.contains c))))
  have made := Made.makeChannels removed.ok (keysOf p.anchor (codes.filter
    (fun c => !(s.hasChannel ⟨p.anchor, c⟩) && !(s.hasChannel ⟨q.anchor, c⟩))))
  refine ChannelsMerged.of_steps ok apart rekeyed removed made first moves (fun c there stays => ?_) fun c => by
    rw [List.mem_filter, Bool.and_eq_true, Bool.not_eq_true', Bool.not_eq_true']
  obtain ⟨language, merged⟩ := second c there
  refine List.mem_filter.2 ⟨language, ?_⟩
  cases old : s.hasChannel ⟨p.anchor, c⟩ with
  | true => rw [there]; rfl
  | false =>
    have inCut := merged.resolve_left fun hc => stays ((moves c).2 ⟨hc, old, there⟩)
    rw [there]
    simpa using inCut

/-! ## Owners (R48, R56) -/

/-- No channel of one anchor has an owner together with the channel of the other anchor and the same code. -/
def OwnedApart (s : State) (a b : Nat) : Prop :=
  ∀ c o d, (s.console o).owned = some ⟨a, c⟩ → (s.console d).owned ≠ some ⟨b, c⟩

theorem rekeyOwner_console (free : s.ownerOf key = none) (o d : Nat) :
    (s.rekeyOwner o key).console d = if d = o then { s.console o with owned := some key } else s.console d := by
  unfold rekeyOwner
  rw [free]
  exact setConsole_console ..

/-- The owner of a channel keeps it under another anchor, where that channel has no owner. -/
theorem rekeyOwner_moves (ok : s.OwnersOk) (apart : a ≠ b) (away : s.OwnedApart a b) (owned : (s.console o).owned = some ⟨b, c⟩) :
    (s.rekeyOwner o ⟨a, c⟩).OwnersOk ∧ (s.rekeyOwner o ⟨a, c⟩).OwnedApart a b ∧ ∀ d, (s.rekeyOwner o ⟨a, c⟩).console d =
      if d = o then { s.console o with owned := some ⟨a, c⟩ } else s.console d := by
  have free : s.ownerOf ⟨a, c⟩ = none := by
    cases owner : s.ownerOf ⟨a, c⟩ with
    | none => rfl
    | some d => exact absurd owned (away c d o ((ownerOf_eq_some_iff ok).1 owner))
  have console := rekeyOwner_console free o
  refine ⟨((Kept.refl s).rekeyOwner o _ fun _ => by rw [owned]; rfl).owners ok, fun l e d he hd => ?_, console⟩
  rw [console] at he hd
  have other : d ≠ o := by
    rintro rfl
    rw [if_pos rfl] at hd
    exact apart (congrArg Key.anchor (Option.some.inj hd))
  rw [if_neg other] at hd
  split at he
  · obtain rfl : c = l := congrArg Key.code (Option.some.inj he)
    exact other (ok.one d o _ hd owned)
  · exact away l e d he hd

/-- The owner of a channel is displaced, if it has one. -/
def displaceOwner (t : State) (cause : DisplacedCause) (a : Nat) (key : Key) : State :=
  match t.ownerOf key with
  | none => t
  | some o => t.displace o cause a key

/-- The owner of a channel keeps it under another anchor, if it has one. -/
def moveOwner (t : State) (a : Nat) (key : Key) : State :=
  match t.ownerOf key with
  | none => t
  | some o => t.rekeyOwner o ⟨a, key.code⟩

theorem mergeOwners_eq : s.mergeOwners p q codes cut kept =
    (q.profile.languages.filter cut.contains).foldl (fun t c => t.displaceOwner .languageDropped p.anchor ⟨q.anchor, c⟩)
      ((codes.filter (fun c => !(kept.contains c))).foldl (fun t c => t.moveOwner p.anchor ⟨q.anchor, c⟩)
        ((codes.filter kept.contains).foldl (fun t c => t.displaceOwner .sameLanguage p.anchor ⟨q.anchor, c⟩) s)) := rfl

theorem displaceOwner_turn (ok : s.OwnersOk) (cause : DisplacedCause) (a : Nat) (key : Key) :
    (s.displaceOwner cause a key).OwnersOk ∧ ∀ o, ((s.displaceOwner cause a key).console o).core =
      if (s.console o).owned = some key then (s.console o).core.freed else (s.console o).core := by
  unfold displaceOwner
  constructor
  · split
    · exact ok
    · exact ((Kept.refl s).displace _ cause a key).owners ok
  · refine turn_of_freed ok (f := fun v c => v.displace c cause a key) (fun c d => ?_) (fun none => by rw [none])
      fun o owner => by rw [owner]
    show ((s.moveConsole c .releasing none).console d).core = _
    rw [moveConsole_console]
    split <;> rfl

theorem moveOwner_turn (ok : s.OwnersOk) (apart : a ≠ b) (away : s.OwnedApart a b) (c : Nat) :
    ((s.moveOwner a ⟨b, c⟩).OwnersOk ∧ (s.moveOwner a ⟨b, c⟩).OwnedApart a b) ∧ ∀ o, ((s.moveOwner a ⟨b, c⟩).console o).core =
      if (s.console o).owned = some ⟨b, c⟩ then (s.console o).core.rekeyed a ⟨b, c⟩ else (s.console o).core := by
  unfold moveOwner
  cases owner : s.ownerOf ⟨b, c⟩ with
  | none => exact ⟨⟨ok, away⟩, fun o => (if_neg (Kept.owned_of_ownerOf_none owner o)).symm⟩
  | some d =>
    have own := (ownerOf_eq_some_iff ok).1 owner
    obtain ⟨okT, awayT, console⟩ := rekeyOwner_moves ok apart away own
    refine ⟨⟨okT, awayT⟩, fun o => ?_⟩
    dsimp only
    rw [console]
    by_cases here : o = d
    · rw [if_pos here, here, if_pos own]
      rfl
    · rw [if_neg here, if_neg fun e => here (ok.one o d _ e own)]

/-- The owners of Q's channels after a merge: they keep those that moved, and have given the others up. -/
theorem mergeOwners_console (ok : s.OwnersOk) (apart : p.anchor ≠ q.anchor)
    (away : ∀ o c, (s.console o).owned = some ⟨p.anchor, c⟩ → c ∈ codes ∧ c ∈ kept)
    (language : ∀ o c, (s.console o).owned = some ⟨q.anchor, c⟩ → c ∈ q.profile.languages ∧ (c ∈ codes ∨ c ∈ cut)) (o : Nat) :
    ((∀ c, (s.console o).owned ≠ some ⟨q.anchor, c⟩) →
        ((s.mergeOwners p q codes cut kept).console o).core = (s.console o).core) ∧
      ∀ c, (s.console o).owned = some ⟨q.anchor, c⟩ → ((s.mergeOwners p q codes cut kept).console o).core =
        if c ∈ codes ∧ c ∉ kept then (s.console o).core.rekeyed p.anchor ⟨q.anchor, c⟩ else (s.console o).core.freed := by
  rw [mergeOwners_eq]
  obtain ⟨ok1, turned1⟩ := foldl_owners (s := s) (key := fun c => ⟨q.anchor, c⟩) (turn := fun _ c => c.freed) (P := OwnersOk)
    (step := fun t c => t.displaceOwner .sameLanguage p.anchor ⟨q.anchor, c⟩) (codes.filter kept.contains) ok (fun _ _ _ e => nomatch e)
    fun v c _ okV => displaceOwner_turn okV .sameLanguage p.anchor _
  generalize (codes.filter kept.contains).foldl (fun t c => t.displaceOwner .sameLanguage p.anchor ⟨q.anchor, c⟩) s = v
    at ok1 turned1 ⊢
  have old : ∀ d key, (v.console d).owned = some key → (s.console d).owned = some key ∧
      ∀ c ∈ codes, c ∈ kept → (s.console d).owned ≠ some ⟨q.anchor, c⟩ := fun d key hd => by
    by_cases turned : ∃ c ∈ codes.filter kept.contains, (s.console d).owned = some ⟨q.anchor, c⟩
    · obtain ⟨c, hc, owned⟩ := turned
      have freed := Console.owned_of_core (c := v.console d) (d := (s.console d).core.freed) ((turned1 d).2 c hc owned)
      rw [hd] at freed
      cases freed
    · have none : ∀ c ∈ codes.filter kept.contains, (s.console d).owned ≠ some ⟨q.anchor, c⟩ := fun c hc e => turned ⟨c, hc, e⟩
      refine ⟨(Console.owned_of_core ((turned1 d).1 none)).symm.trans hd, fun c hc hk => none c (List.mem_filter.2 ⟨hc, ?_⟩)⟩
      simpa using hk
  have apartV : v.OwnedApart p.anchor q.anchor := fun c d e hd he => by
    obtain ⟨code, keeps⟩ := away d c (old d _ hd).1
    exact (old e _ he).2 c code keeps (old e _ he).1
  obtain ⟨⟨ok2, -⟩, turned2⟩ := foldl_owners (s := v) (key := fun c => ⟨q.anchor, c⟩) (turn := Console.rekeyed p.anchor)
    (P := fun v => v.OwnersOk ∧ v.OwnedApart p.anchor q.anchor) (step := fun t c => t.moveOwner p.anchor ⟨q.anchor, c⟩)
    (codes.filter (fun c => !(kept.contains c))) ⟨ok1, apartV⟩ (fun x y c e => apart (congrArg Key.anchor (Option.some.inj e)))
    fun v c _ ⟨okV, apartV⟩ => moveOwner_turn okV apart apartV c
  generalize (codes.filter (fun c => !(kept.contains c))).foldl (fun t c => t.moveOwner p.anchor ⟨q.anchor, c⟩) v = w
    at ok2 turned2 ⊢
  obtain ⟨-, turned3⟩ := foldl_owners (s := w) (key := fun c => ⟨q.anchor, c⟩) (turn := fun _ c => c.freed) (P := OwnersOk)
    (step := fun t c => t.displaceOwner .languageDropped p.anchor ⟨q.anchor, c⟩) (q.profile.languages.filter cut.contains) ok2
    (fun _ _ _ e => nomatch e) fun v c _ okV => displaceOwner_turn okV .languageDropped p.anchor _
  generalize (q.profile.languages.filter cut.contains).foldl
    (fun t c => t.displaceOwner .languageDropped p.anchor ⟨q.anchor, c⟩) w = x at turned3 ⊢
  have owned1 : ∀ key, (s.console o).owned = some key → (v.console o).core = (s.console o).core → (v.console o).owned = some key :=
    fun key own same => (Console.owned_of_core same).trans own
  refine ⟨fun none => ?_, fun c own => ?_⟩
  · have same1 := (turned1 o).1 fun c _ => none c
    have same2 := (turned2 o).1 fun c _ => by rw [Console.owned_of_core same1]; exact none c
    rw [(turned3 o).1 fun c _ => by rw [Console.owned_of_core same2, Console.owned_of_core same1]; exact none c, same2, same1]
  · by_cases first : c ∈ codes ∧ c ∈ kept
    · have now := (turned1 o).2 c (List.mem_filter.2 ⟨first.1, by simpa using first.2⟩) own
      have free : (v.console o).owned = none := Console.owned_of_core (d := (s.console o).core.freed) now
      have same2 := (turned2 o).1 fun c _ => by rw [free]; exact nofun
      rw [(turned3 o).1 fun c _ => by rw [Console.owned_of_core same2, free]; exact nofun, same2, now,
        if_neg fun h => h.2 first.2]
    · have same1 := (turned1 o).1 fun d hd e => first (by
        obtain rfl : c = d := congrArg Key.code (Option.some.inj (own.symm.trans e))
        obtain ⟨code, keeps⟩ := List.mem_filter.1 hd
        exact ⟨code, by simpa using keeps⟩)
      have ownV := owned1 _ own same1
      by_cases second : c ∈ codes
      · have out : c ∉ kept := fun h => first ⟨second, h⟩
        have now := (turned2 o).2 c (List.mem_filter.2 ⟨second, by simpa using out⟩) ownV
        have new : (w.console o).owned = some ⟨p.anchor, c⟩ := Console.owned_of_core (d := (v.console o).core.rekeyed p.anchor ⟨q.anchor, c⟩) now
        rw [(turned3 o).1 fun d _ => by rw [new]; exact fun e => apart (congrArg Key.anchor (Option.some.inj e)), now, same1,
          if_pos ⟨second, out⟩]
      · have same2 := (turned2 o).1 fun d hd e => second (by
          obtain rfl : c = d := congrArg Key.code (Option.some.inj (ownV.symm.trans e))
          exact (List.mem_filter.1 hd).1)
        obtain ⟨lang, merged⟩ := language o c own
        rw [(turned3 o).2 c (List.mem_filter.2 ⟨lang, by simpa using merged.resolve_left second⟩)
          ((Console.owned_of_core same2).trans ownV), same2, same1, if_neg fun h => second h.1]

end

end State

end Sys2Proof.Machine
end

section
/-! SUPPORT. O18: channels and owners follow their rooms. -/

namespace Sys2Proof.Machine

namespace State

section
variable {s t u v w : State} {a b c o k : Nat} {p q r m : Room} {key : Key} {codes cut kept : List Nat}

/-! ## The merge -/

theorem oneRoom_sameChannels : s.SameChannels (s.oneRoom p q m) := by
  obtain ⟨map, eq, -⟩ := foldl_setAnchor q.segments ((s.holdCounts.setRoom q.anchor none).setRoom p.anchor (some m)) (some p.anchor)
  unfold oneRoom
  rw [eq]
  exact ⟨rfl, rfl⟩

theorem mergeRooms_sameChannels : s.SameChannels (s.mergeRooms p q m) := by
  have dist : (s.mergeRooms p q m).dist = (s.oneRoom p q m).dist := by
    have eq : s.mergeRooms p q m = (((s.oneRoom p q m).queueMaps m.segments).noteMergeStates p q).reformAll
      (((s.oneRoom p q m).queueMaps m.segments).turnedSeats p m ++ ((s.oneRoom p q m).queueMaps m.segments).turnedSeats q m) := rfl
    have noted : (((s.oneRoom p q m).queueMaps m.segments).noteMergeStates p q).dist = ((s.oneRoom p q m).queueMaps m.segments).dist := by
      unfold noteMergeStates
      dsimp only
      split <;> split <;> rfl
    rw [eq, (OnFloor.reformAll _).dist, noted, queueMaps_dist]
  exact oneRoom_sameChannels.trans (.of_dist dist)

theorem trimQueue_dist (cut : List Entry) : (s.trimQueue cut).dist = s.dist := by
  induction cut generalizing s with
  | nil => rfl
  | cons e cut ih => exact ih.trans (Sheds.dropNow e.seat .mergeOverflow).dist

theorem mergedFloor_sameChannels : s.SameChannels (s.mergedFloor p q m) := by
  refine (mergeRooms_sameChannels (s := s) (p := p) (q := q) (m := m)).trans (.of_dist ?_)
  unfold mergedFloor mergeFloor
  split
  · rw [(OnFloor.muteAll p.anchor).dist, trimQueue_dist]
  · exact trimQueue_dist _

theorem activate_frame (a : Nat) (chairs : List Nat) : (s.activate a chairs).dist = s.dist ∧ s.OnlyShows (s.activate a chairs) := by
  cases hr : s.room a with
  | none =>
    unfold activate
    rw [hr]
    exact ⟨rfl, .refl s⟩
  | some r =>
    have sits := Sits.activate hr chairs
    exact ⟨sits.dist, fun o => sits.consoles o⟩

/-- What follows the languages of a merge leaves the channels, and shows consoles at most. -/
theorem mergeInto_frame : ((s.mergedFloor p q m).mergeLanguages p q m
      (p.profile.languages.filter (fun c => s.hasChannel ⟨p.anchor, c⟩))).SameChannels (s.mergeInto p q m) ∧
    ((s.mergedFloor p q m).mergeLanguages p q m
      (p.profile.languages.filter (fun c => s.hasChannel ⟨p.anchor, c⟩))).OnlyShows (s.mergeInto p q m) := by
  rw [mergeInto_eq]
  unfold mergedAll
  generalize (s.mergedFloor p q m).mergeLanguages p q m (p.profile.languages.filter (fun c => s.hasChannel ⟨p.anchor, c⟩)) = v
  have sits : (v.queueMaps m.segments).Sits ((((v.queueMaps m.segments).boothWork p.anchor).promote p.anchor).releaseCounts) :=
    ((Sits.boothWork p.anchor).trans (.promote p.anchor)).trans .releaseCounts
  generalize (((v.queueMaps m.segments).boothWork p.anchor).promote p.anchor).releaseCounts = w at sits
  have before : v.OnlyShows (v.queueMaps m.segments) := .of_consoles (by rw [(OnDist.queueMaps m.segments).booth])
  have last : (w.mergePriority p.anchor p q m).dist = w.dist ∧ w.OnlyShows (w.mergePriority p.anchor p q m) := by
    unfold mergePriority
    split
    · exact activate_frame _ _
    · exact ⟨rfl, .refl w⟩
  exact ⟨.of_dist (last.1.trans (sits.dist.trans (queueMaps_dist _))), (before.trans sits.consoles).trans last.2⟩

theorem higher_hasChannels (x y : Session) : (x.higher y).hasChannels = true ↔ x.hasChannels = true ∨ y.hasChannels = true := by
  cases x <;> cases y <;> decide

theorem ChannelsMerged.congr (h : s.SameChannels u) (k : v.SameChannels t) (merged : u.ChannelsMerged v a b codes) :
    s.ChannelsMerged t a b codes where
  ok := k.ok merged.ok
  gone c := (k.hasChannel _).trans (merged.gone c)
  have_ c := by rw [k.hasChannel, merged.have_]
  kept j key e other := (k.entry j).trans (merged.kept j key ((h.entry j).trans e) other)
  moved j c e hc out := (k.entry j).trans (merged.moved j c ((h.entry j).trans e) hc ((h.hasChannel _).trans out))
  others key ka kb := (k.hasChannel key).trans ((merged.others key ka kb).trans (h.hasChannel key))
  unserved := by
    obtain ⟨n, new, list, mem⟩ := merged.unserved
    refine ⟨n, new, ?_, mem⟩
    rw [k.unserved, list, h.unserved]
    simp only [h.hasChannel]

section
variable (ok : s.ChannelsOk) (apart : p.anchor ≠ q.anchor) (ofP : s.ChannelsOf p) (ofQ : s.ChannelsOf q)
  (onceP : p.profile.languages.Nodup) (onceQ : q.profile.languages.Nodup) (short : p.profile.languages.length ≤ 8)
  (channels : (mergedRoom s p q).session.hasChannels = true)
include ok apart ofP ofQ onceP onceQ short channels

theorem mergeInto_channels : s.ChannelsMerged (s.mergeInto p q (mergedRoom s p q)) p.anchor q.anchor
    (mergedRoom s p q).profile.languages := by
  have same := mergedFloor_sameChannels (s := s) (p := p) (q := q) (m := mergedRoom s p q)
  have merged := mergeChannels_merged (s := s.mergedFloor p q (mergedRoom s p q)) (p := p) (q := q)
    (codes := (mergedRoom s p q).profile.languages) (cut := (mergedLanguages p.profile.languages q.profile.languages).2)
    (same.ok ok) apart (merged_nodup onceP onceQ) (fun c there => mem_merged_of_first short ((ofP c).1 (same.hasChannel _ ▸ there)).2)
    fun c there => by
      have language := ((ofQ c).1 (same.hasChannel _ ▸ there)).2
      exact ⟨language, mem_merged_or_cut language⟩
  refine merged.congr same (SameChannels.trans (.of_dist ?_) mergeInto_frame.1)
  unfold mergeLanguages
  rw [if_pos channels]
  exact (Aside.mergeOwners _ _ _ _ _).dist

omit ok onceP onceQ in
theorem mergeInto_consoles (owners : s.OwnersOk) (have_ : s.OwnersHaveChannels) (o : Nat) :
    ((∀ c, (s.console o).owned ≠ some ⟨q.anchor, c⟩) →
        ((s.mergeInto p q (mergedRoom s p q)).console o).core = (s.console o).core) ∧
      ∀ c, (s.console o).owned = some ⟨q.anchor, c⟩ → ((s.mergeInto p q (mergedRoom s p q)).console o).core =
        if c ∈ (mergedRoom s p q).profile.languages ∧ s.hasChannel ⟨p.anchor, c⟩ = false then
          (s.console o).core.rekeyed p.anchor ⟨q.anchor, c⟩ else (s.console o).core.freed := by
  obtain ⟨v, hv⟩ : ∃ v, v = (s.mergedFloor p q (mergedRoom s p q)).mergeChannels p q (mergedRoom s p q).profile.languages
    (mergedLanguages p.profile.languages q.profile.languages).2 := ⟨_, rfl⟩
  have booth : v.booth = s.booth := by
    rw [hv, (Aside.mergeChannels p q _ _).booth, mergedFloor_booth]
  have console : ∀ o, v.console o = s.console o := fun o => by
    unfold State.console
    rw [booth]
  have inKept : ∀ c, c ∈ p.profile.languages.filter (fun c => s.hasChannel ⟨p.anchor, c⟩) ↔ s.hasChannel ⟨p.anchor, c⟩ = true :=
    fun c => ⟨fun h => (List.mem_filter.1 h).2, fun h => List.mem_filter.2 ⟨((ofP c).1 h).2, h⟩⟩
  have owners := mergeOwners_console (s := v) (p := p) (q := q) (codes := (mergedRoom s p q).profile.languages)
    (cut := (mergedLanguages p.profile.languages q.profile.languages).2)
    (kept := p.profile.languages.filter (fun c => s.hasChannel ⟨p.anchor, c⟩))
    (ownersOk_of_consoles (congrArg BoothUnit.consoles booth) owners) apart
    (fun o c own => by
      rw [console] at own
      have there := have_ o _ own
      exact ⟨mem_merged_of_first short ((ofP c).1 there).2, (inKept c).2 there⟩)
    (fun o c own => by
      rw [console] at own
      have language := ((ofQ c).1 (have_ o _ own)).2
      exact ⟨language, mem_merged_or_cut language⟩) o
  have shows := (mergeInto_frame (s := s) (p := p) (q := q) (m := mergedRoom s p q)).2
  have written : (s.mergedFloor p q (mergedRoom s p q)).mergeLanguages p q (mergedRoom s p q)
      (p.profile.languages.filter (fun c => s.hasChannel ⟨p.anchor, c⟩)) = v.mergeOwners p q (mergedRoom s p q).profile.languages
        (mergedLanguages p.profile.languages q.profile.languages).2
        (p.profile.languages.filter (fun c => s.hasChannel ⟨p.anchor, c⟩)) := by
    unfold mergeLanguages
    rw [if_pos channels, hv]
  rw [written] at shows
  rw [console] at owners
  refine ⟨fun none => (shows.core o).trans (owners.1 none), fun c own => (shows.core o).trans ((owners.2 c own).trans ?_)⟩
  refine ite_congr (propext (and_congr_right fun _ => ?_)) (fun _ => rfl) fun _ => rfl
  rw [inKept, Bool.not_eq_true]

end

/-! ## The split: channels (R54, R55) -/

/-- Keys of which there is no channel are removed without any effect. -/
theorem removeChannels_of_absent (ok : s.ChannelsOk) {keys : List Key} (absent : ∀ key ∈ keys, s.hasChannel key = false) :
    s.removeChannels keys = s := by
  have waiting : keys.filter (fun key => (positionOf key s.dist.unserved 1).isSome) = [] := List.filter_eq_nil_iff.2 fun key hk h => by
    rw [isSome_positionOf] at h
    have there := (hasChannel_iff_entry (key := key) ok).2 (.inr h)
    rw [absent key hk] at there
    cases there
  have served : keys.filter (fun key => (s.dist.allocation.slotOf key).isSome) = [] := List.filter_eq_nil_iff.2 fun key hk h => by
    obtain ⟨k, slot⟩ := Option.isSome_iff_exists.1 h
    have there := (hasChannel_iff_entry (key := key) ok).2 (.inl ⟨k, (slotOf_eq_some_iff ok).1 slot⟩)
    rw [absent key hk] at there
    cases there
  unfold removeChannels
  rw [waiting, served]
  rfl

theorem Removed.congr {keys : List Key} (h : s.SameChannels u) (k : v.SameChannels t) (removed : u.Removed v keys) : s.Removed t keys where
  ok := k.ok removed.ok
  kept j key e out := (k.entry j).trans (removed.kept j key ((h.entry j).trans e) out)
  channels key := by rw [k.hasChannel, removed.channels, h.hasChannel]
  unserved := by
    obtain ⟨n, list⟩ := removed.unserved
    exact ⟨n, by rw [k.unserved, list, h.unserved]⟩

/-- Of the passage to DORMANT the tables of channels see the removal of the room's channels. -/
theorem passToDormant_channels (hr : s.room a = some r) : ∃ u, s.SameChannels u ∧
    (u.removeChannels (keysOf a r.profile.languages)).SameChannels (s.passToDormant a) := by
  refine ⟨(s.setRoom a (some { r with session := .dormant, wake := Wake.empty, timer := none })).note
    (.sessionState a r.session .dormant .lastClosed none none), ⟨rfl, rfl⟩, .of_dist ?_⟩
  rw [passToDormant_eq hr, boothWork_dist, (OnFloor.reformAll _).dist]
  exact queueMaps_dist _

theorem passToDormant_shows (hr : s.room a = some r) : s.OnlyShows (s.passToDormant a) := by
  have made : (s.setRoom a (some { r with session := .dormant, wake := Wake.empty, timer := none })).OnDist (s.undistributed a r) :=
    ((OnDist.note _).trans (.removeChannels _)).trans (.queueMaps _)
  rw [passToDormant_eq hr]
  refine OnlyShows.trans (.of_consoles ?_) (Sits.boothWork a).consoles
  rw [(OnFloor.reformAll _).booth]
  exact congrArg BoothUnit.consoles made.booth

/-- The channels that a half loses in passing to DORMANT. -/
def lostKeys (a : Nat) (x : Room) : List Key := if x.session = .ending ∧ x.live = [] then keysOf a x.profile.languages else []

theorem passIfEmpty_cases (hr : s.room a = some r) :
    s.passIfEmpty a = if r.session = .ending ∧ r.live = [] then s.passToDormant a else s := by
  unfold passIfEmpty
  rw [hr]
  simp

theorem Removed.passIfEmpty (ok : s.ChannelsOk) (hr : s.room a = some r) : s.Removed (s.passIfEmpty a) (lostKeys a r) := by
  rw [passIfEmpty_cases hr, lostKeys]
  split
  · obtain ⟨u, before, after⟩ := passToDormant_channels hr
    exact (Removed.removeChannels (before.ok ok) _).congr before after
  · exact ⟨ok, fun _ _ h _ => h, fun key => by simp, 0, by simp⟩

/-- A room that has no channels loses none. -/
theorem SameChannels.passIfEmpty (ok : s.ChannelsOk) (hr : s.room a = some r) (absent : ∀ c, s.hasChannel ⟨a, c⟩ = false) :
    s.SameChannels (s.passIfEmpty a) := by
  rw [passIfEmpty_cases hr]
  split
  · obtain ⟨u, before, after⟩ := passToDormant_channels hr
    rw [removeChannels_of_absent (before.ok ok) fun key hk => by
      obtain ⟨c, -, rfl⟩ := List.mem_map.1 hk
      exact (before.hasChannel _).trans (absent c)] at after
    exact before.trans after
  · exact ⟨rfl, rfl⟩

theorem OnlyShows.passIfEmpty (hr : s.room a = some r) : s.OnlyShows (s.passIfEmpty a) := by
  rw [passIfEmpty_cases hr]
  split
  · exact passToDormant_shows hr
  · exact .refl s

end

end State

end Sys2Proof.Machine
end

section
/-! SUPPORT. The channels and the owners of a split (R54 to R56), and O18. -/

namespace Sys2Proof.Machine

/-- A console that keeps its channel when the booth's room has anchor `c` in place of `a`. -/
def Console.moved (a c : Nat) (x : Console) : Console :=
  { x with owned := x.owned.map (fun key => if key.anchor = a then ⟨c, key.code⟩ else key) }

theorem Console.moved_of_owned {a c l : Nat} {x : Console} (h : x.owned = some ⟨a, l⟩) : x.moved a c = { x with owned := some ⟨c, l⟩ } := by
  unfold Console.moved
  rw [h, Option.map_some, if_pos rfl]

theorem Console.moved_of_free {a c : Nat} {x : Console} (h : ∀ l, x.owned ≠ some ⟨a, l⟩) : x.moved a c = x := by
  cases owned : x.owned with
  | none =>
    unfold Console.moved
    rw [owned]
    cases x
    cases owned
    rfl
  | some key =>
    have other : key.anchor ≠ a := fun e => h key.code (by rw [owned, ← e])
    unfold Console.moved
    rw [owned, Option.map_some, if_neg other, ← owned]

theorem Console.moved_moved {a c : Nat} (apart : c ≠ a) (x : Console) : (x.moved a c).moved a c = x.moved a c := by
  refine Console.moved_of_free fun l e => ?_
  obtain ⟨key, -, moved⟩ := Option.map_eq_some_iff.1 e
  split at moved
  · exact apart (congrArg Key.anchor moved)
  · next other => exact other (congrArg Key.anchor moved)

namespace State

section
variable {s t u v : State} {a c o : Nat} {r z : Room} {keep go os : List Nat}

/-! ## Channels -/

theorem calmedHalves_channels (ok : s.ChannelsOk) (ha : r.anchor ≠ c) (absent : ∀ l, s.hasChannel ⟨c, l⟩ = false) :
    s.Removed (s.calmedHalves r c keep go) (lostKeys r.anchor (halfRoom s r r.anchor keep)) ∧
      (¬ (r.session = .ending ∧ s.seatsIn keep r.live = []) → s.SameChannels (s.calmedHalves r c keep go)) := by
  have two : s.SameChannels (s.twoRooms r c keep go) := by
    obtain ⟨map, eq, -⟩ := foldl_setAnchor go ((s.holdCounts.setRoom r.anchor (some (halfRoom s r r.anchor keep))).setRoom c
      (some (halfRoom s r c go))) (some c)
    unfold twoRooms
    rw [eq]
    exact ⟨rfl, rfl⟩
  have calm : s.SameChannels (s.bothCalmed r c keep go) :=
    two.trans (.of_dist (bothCalmed_onFloor.dist.trans (queueMaps_dist r.segments)))
  have roomA : (s.bothCalmed r c keep go).room r.anchor = some (s.keptPriority (halfRoom s r r.anchor keep)) := by
    rw [bothCalmed_room ha, if_neg ha, if_pos rfl]
  have first := Removed.passIfEmpty (calm.ok ok) roomA
  obtain ⟨rooms, -, -⟩ := passIfEmpty_of_deferring bothCalmed_deferring roomA
  have room := rooms c
  rw [if_neg ha.symm, bothCalmed_room ha, if_pos rfl] at room
  have second := SameChannels.passIfEmpty first.ok room fun l => by
    rw [Bool.eq_false_iff]
    intro there
    have before := ((first.channels _).1 there).1
    rw [calm.hasChannel, absent] at before
    cases before
  refine ⟨first.congr calm second, fun stays => ?_⟩
  have passes : (s.bothCalmed r c keep go).passIfEmpty r.anchor = s.bothCalmed r c keep go :=
    (passIfEmpty_cases roomA).trans (if_neg stays)
  rw [calmedHalves_eq, passes]
  rw [passes] at second
  exact calm.trans second

theorem Made.splitChannels (ok : s.ChannelsOk) (hz : s.room c = some z) : s.Made (s.splitChannels c) z.channelKeys := by
  unfold State.splitChannels
  rw [hz]
  exact .makeChannels ok _

theorem Made.congr {keys : List Key} (made : s.Made t keys) (k : t.SameChannels u) : s.Made u keys where
  ok := k.ok made.ok
  kept j key e := (k.entry j).trans (made.kept j key e)
  channels key := by rw [k.hasChannel, made.channels]
  unserved := by
    obtain ⟨new, list, mem⟩ := made.unserved
    exact ⟨new, by rw [k.unserved, list], mem⟩

/-- Booths that listen anew, and their consoles, leave the channels and show at most. -/
theorem Sits.listening (segments : List Nat) : s.Sits ((s.relistenIn segments).reconsoleIn segments) :=
  (fold (fun _ b => relisten b) _ _).trans (fold (fun _ c => reconsole c) _ _)

/-- After the owners have moved no channel changes any more. -/
theorem halves_channels : ((s.calmedHalves r c keep go).splitChannels c).SameChannels (s.halves r c keep go) := by
  unfold halves
  generalize (s.calmedHalves r c keep go).splitChannels c = v
  have moved : (v.splitOwners r.anchor c go).dist = v.dist := (OnBooths.splitOwners _ _ _).dist
  generalize v.splitOwners r.anchor c go = w at moved
  exact .of_dist ((Sits.listening r.segments).dist.trans ((queueMaps_dist r.segments).trans moved))

theorem mem_channelKeys {key : Key} :
    key ∈ z.channelKeys ↔ z.session.hasChannels = true ∧ key.anchor = z.anchor ∧ key.code ∈ z.profile.languages := by
  unfold Room.channelKeys
  split
  · next has =>
    rw [List.mem_map]
    exact ⟨fun ⟨l, hl, e⟩ => e ▸ ⟨has, rfl, hl⟩, fun ⟨_, anchor, code⟩ => ⟨key.code, code, by rw [← anchor]⟩⟩
  · next none => exact ⟨nofun, fun h => absurd h.1 none⟩

/-! ## Owners -/

/-- An owner of a channel of the old room has the channel of the new room. -/
def moveHome (t : State) (a c o : Nat) : State :=
  match (t.console o).owned with
  | none => t
  | some key =>
    if key.anchor = a then (t.rekeyOwner o ⟨c, key.code⟩).noteConsole o (t.console o).state .split none else t

theorem splitOwners_eq : s.splitOwners a c go = (s.consolesIn go).foldl (fun t o => t.moveHome a c o) s := rfl

theorem moveHome_console (ok : s.OwnersOk) (apart : c ≠ a) (away : s.OwnedApart c a) (o : Nat) :
    ((s.moveHome a c o).OwnersOk ∧ (s.moveHome a c o).OwnedApart c a) ∧ ∀ d, (s.moveHome a c o).console d =
      if d = o then (s.console o).moved a c else s.console d := by
  by_cases owns : ∃ l, (s.console o).owned = some ⟨a, l⟩
  · obtain ⟨l, owned⟩ := owns
    obtain ⟨okT, awayT, console⟩ := rekeyOwner_moves ok apart away owned
    have moved : s.moveHome a c o = (s.rekeyOwner o ⟨c, l⟩).noteConsole o (s.console o).state .split none := by
      unfold moveHome
      rw [owned]
      exact if_pos rfl
    rw [moved, Console.moved_of_owned owned]
    exact ⟨⟨ownersOk_of_consoles (s := s.rekeyOwner o ⟨c, l⟩) rfl okT, awayT⟩, console⟩
  · have free : ∀ l, (s.console o).owned ≠ some ⟨a, l⟩ := fun l e => owns ⟨l, e⟩
    have stays : s.moveHome a c o = s := by
      unfold moveHome
      cases owned : (s.console o).owned with
      | none => rfl
      | some key => exact if_neg fun e => free key.code (by rw [owned, ← e])
    rw [stays, Console.moved_of_free free]
    refine ⟨⟨ok, away⟩, fun d => ?_⟩
    split
    · subst_vars
      rfl
    · rfl

theorem foldl_moveHome_console (apart : c ≠ a) (os : List Nat) (ok : s.OwnersOk) (away : s.OwnedApart c a) (d : Nat) :
    (os.foldl (fun t o => t.moveHome a c o) s).console d = if d ∈ os then (s.console d).moved a c else s.console d := by
  induction os generalizing s with
  | nil => rfl
  | cons o os ih =>
    obtain ⟨⟨okT, awayT⟩, console⟩ := moveHome_console ok apart away o
    rw [List.foldl_cons, ih okT awayT, console]
    by_cases here : d = o
    · rw [if_pos here, here, Console.moved_moved apart, ite_self, if_pos List.mem_cons_self]
    · rw [if_neg here]
      simp only [List.mem_cons, here, false_or]

theorem mem_consolesIn : o ∈ s.consolesIn go ↔ s.consoleInUse o = true ∧ (s.boothAt (consoleBooth o)).home ∈ go := by
  unfold consolesIn
  rw [List.mem_filter, List.contains_iff_mem]
  refine and_congr_left fun _ => ⟨fun listed => ?_, mem_addresses_of_consoleInUse⟩
  have found : o ∈ (List.range 48).filterMap fun c => if s.consoleInUse (c + 1) then some (c + 1) else none := listed
  obtain ⟨n, -, e⟩ := List.mem_filterMap.1 found
  split at e
  · next use => exact Option.some.inj e ▸ use
  · cases e

/-- Booths that differ by their listen states have the same consoles. -/
theorem consolesIn_mem_iff (h : ∀ b, t.boothAt b = { s.boothAt b with listen := (t.boothAt b).listen }) :
    o ∈ t.consolesIn go ↔ o ∈ s.consolesIn go := by
  rw [mem_consolesIn, mem_consolesIn]
  unfold consoleInUse
  rw [h]

theorem calmedHalves_booths (ha : r.anchor ≠ c) : s.OnlyShows (s.calmedHalves r c keep go) ∧
    (∀ b, (s.calmedHalves r c keep go).boothAt b = { s.boothAt b with listen := ((s.calmedHalves r c keep go).boothAt b).listen }) ∧
    (s.OwnersOk → (s.calmedHalves r c keep go).OwnersOk) := by
  have two : (s.twoRooms r c keep go).booth = s.booth := by
    obtain ⟨hall, dist, eq⟩ := s.twoRooms_rest (r := r) (c := c) (keep := keep) (go := go)
    rw [eq]
  have calm : (s.bothCalmed r c keep go).booth = s.booth :=
    (bothCalmed_onFloor.booth.trans splitRooms_onDist.booth).trans two
  have roomA : (s.bothCalmed r c keep go).room r.anchor = some (s.keptPriority (halfRoom s r r.anchor keep)) := by
    rw [bothCalmed_room ha, if_neg ha, if_pos rfl]
  obtain ⟨rooms, -, -⟩ := passIfEmpty_of_deferring bothCalmed_deferring roomA
  have roomC := rooms c
  rw [if_neg ha.symm, bothCalmed_room ha, if_pos rfl] at roomC
  have works := (Works.passIfEmpty (s := s.bothCalmed r c keep go) r.anchor).trans (.passIfEmpty c)
  refine ⟨((OnlyShows.of_consoles (congrArg BoothUnit.consoles calm)).trans (.passIfEmpty roomA)).trans (.passIfEmpty roomC), fun b => ?_,
    fun ok => ?_⟩
  · have booth : (s.bothCalmed r c keep go).boothAt b = s.boothAt b := by
      unfold boothAt
      rw [calm]
    rw [← booth]
    exact works.booths b
  · exact (((Kept.refl (s.bothCalmed r c keep go)).passIfEmpty r.anchor).passIfEmpty c).owners
      (ownersOk_of_consoles (congrArg BoothUnit.consoles calm) ok)

/-- The consoles in use that are homed in the half that goes keep their channels under its anchor, and no other console changes. -/
theorem splitInto_consoles (ha : r.anchor ≠ c) (ok : s.OwnersOk) (none : ∀ o l, (s.console o).owned ≠ some ⟨c, l⟩) (o : Nat) :
    ((s.splitInto r c keep go).console o).core =
      if s.consoleInUse o = true ∧ (s.boothAt (consoleBooth o)).home ∈ go then ((s.console o).moved r.anchor c).core
      else (s.console o).core := by
  obtain ⟨shows, booths, owners⟩ := calmedHalves_booths (s := s) (keep := keep) (go := go) ha
  obtain ⟨v, hv⟩ : ∃ v, v = (s.calmedHalves r c keep go).splitChannels c := ⟨_, rfl⟩
  have same : v.booth = (s.calmedHalves r c keep go).booth := by
    rw [hv, (OnDist.splitChannels c).booth]
  have console : ∀ d, v.console d = (s.calmedHalves r c keep go).console d := fun d => by
    unfold State.console
    rw [same]
  have booth : ∀ b, v.boothAt b = (s.calmedHalves r c keep go).boothAt b := fun b => by
    unfold boothAt
    rw [same]
  have owned : ∀ d, (v.console d).owned = (s.console d).owned := fun d => by
    rw [console]
    exact Console.owned_of_core (shows.core d)
  have listed : o ∈ v.consolesIn go ↔ s.consoleInUse o = true ∧ (s.boothAt (consoleBooth o)).home ∈ go := by
    rw [consolesIn_mem_iff (s := s) fun b => (by rw [booth]; exact booths b), mem_consolesIn]
  have turned := foldl_moveHome_console ha.symm (v.consolesIn go) (ownersOk_of_consoles (congrArg BoothUnit.consoles same) (owners ok))
    (fun l d e hd => absurd ((owned d).symm.trans hd) (none d l)) o
  have last : (v.splitOwners r.anchor c go).OnlyShows (s.splitInto r c keep go) := by
    rw [splitInto_eq]
    unfold halves
    rw [← hv]
    generalize v.splitOwners r.anchor c go = w
    have maps : w.OnlyShows (w.queueMaps r.segments) := .of_consoles (by rw [(OnDist.queueMaps r.segments).booth])
    generalize w.queueMaps r.segments = x at maps
    exact maps.trans ((((Sits.listening r.segments).trans (.promote r.anchor)).trans (.promote c)).trans .releaseCounts).consoles
  rw [last.core, splitOwners_eq, turned]
  simp only [listed, console]
  rw [shows o]
  split <;> rfl

/-! ## The two procedures as a whole -/

/-- What the room that keeps its anchor loses, and then what the other room is given. -/
theorem splitInto_channels (ok : s.ChannelsOk) (ha : r.anchor ≠ c) (absent : ∀ l, s.hasChannel ⟨c, l⟩ = false) :
    ∃ v z, s.Removed v (lostKeys r.anchor (halfRoom s r r.anchor keep)) ∧
      (¬ (r.session = .ending ∧ s.seatsIn keep r.live = []) → s.SameChannels v) ∧ v.Made (s.splitInto r c keep go) z.channelKeys ∧
      (s.halves r c keep go).room c = some z ∧ z.anchor = c := by
  obtain ⟨rooms, -, -⟩ := calmedHalves_spec (s := s) (keep := keep) (go := go) ha
  have here := rooms c
  rw [if_pos rfl] at here
  obtain ⟨removed, stays⟩ := calmedHalves_channels (keep := keep) (go := go) ok ha absent
  have last : (s.halves r c keep go).SameChannels (s.splitInto r c keep go) := .of_dist Sits.splitInto.dist
  refine ⟨_, _, removed, stays, (Made.splitChannels removed.ok here).congr (halves_channels.trans last), ?_, rfl⟩
  rw [(halves_aside (calmedHalves_deferring ha)).room, here]

/-- A merge of two rooms without channels leaves all channels and all owners. -/
theorem mergeInto_of_channelless {p q : Room} (without : (mergedRoom s p q).session.hasChannels = false) :
    s.SameChannels (s.mergeInto p q (mergedRoom s p q)) ∧ s.OnlyShows (s.mergeInto p q (mergedRoom s p q)) := by
  have frame := mergeInto_frame (s := s) (p := p) (q := q) (m := mergedRoom s p q)
  have stays : (s.mergedFloor p q (mergedRoom s p q)).mergeLanguages p q (mergedRoom s p q)
      (p.profile.languages.filter (fun c => s.hasChannel ⟨p.anchor, c⟩)) = s.mergedFloor p q (mergedRoom s p q) := by
    unfold mergeLanguages
    rw [without]
    rfl
  rw [stays] at frame
  exact ⟨mergedFloor_sameChannels.trans frame.1,
    (OnlyShows.of_consoles (congrArg BoothUnit.consoles mergedFloor_booth)).trans frame.2⟩

theorem hasChannel_of_served {key : Key} {k : Nat} (h : s.service key = .served k) : s.hasChannel key = true := by
  unfold hasChannel
  rw [h]
  rfl

/-- The half that keeps its anchor loses channels only in passing to DORMANT, and then all of them. -/
theorem mem_lostKeys_iff {key : Key} : key ∈ lostKeys r.anchor (halfRoom s r r.anchor keep) ↔
    (r.session = .ending ∧ s.seatsIn keep r.live = []) ∧ key.anchor = r.anchor ∧ key.code ∈ r.profile.languages := by
  have lost : lostKeys r.anchor (halfRoom s r r.anchor keep) =
    if r.session = .ending ∧ s.seatsIn keep r.live = [] then keysOf r.anchor r.profile.languages else [] := rfl
  rw [lost]
  split
  · next ends =>
    rw [and_iff_right ends]
    exact ⟨fun h => ⟨anchor_of_mem_keysOf h, mem_keysOf.1 (anchor_of_mem_keysOf h ▸ h)⟩, fun ⟨anchor, code⟩ => anchor ▸ mem_keysOf.2 code⟩
  · next stays => exact ⟨nofun, fun h => absurd h.1 stays⟩

end

end State

end Sys2Proof.Machine

open Sys2Proof.Machine

/-- Settles O18. A merge is re-keying, removal and making of channels and then the owners' turns; a split is the removal that a passage
to DORMANT brings, the making of the new half's channels, and the moves of the owners. -/
theorem channelsAndOwnersFollowTheirRooms : Obligations.ChannelsAndOwnersFollowTheirRooms := by
  unfold Obligations.ChannelsAndOwnersFollowTheirRooms
  constructor
  · intro s t a b p q codes ht hp hq pa qb apart ok owners ofP ofQ have_ onceP onceQ short hcodes
    subst pa qb
    rw [State.merge_of_rooms hp hq] at ht
    have merged : codes = (mergedRoom s p q).profile.languages := hcodes
    have sides : (mergedRoom s p q).session.hasChannels = true ↔ p.session.hasChannels = true ∨ q.session.hasChannels = true :=
      State.higher_hasChannels p.session q.session
    cases channels : (mergedRoom s p q).session.hasChannels with
    | true =>
      have tables := State.mergeInto_channels ok apart ofP ofQ onceP onceQ short channels
      have consoles := State.mergeInto_consoles apart ofP ofQ short channels owners have_
      rw [← merged] at tables consoles
      rw [← ht] at tables consoles
      have served : ∀ key j, s.service key = .served j ↔ s.entry j = some key := fun key j => State.service_eq_served_iff ok
      have served' : ∀ key j, t.service key = .served j ↔ t.entry j = some key := fun key j => State.service_eq_served_iff tables.ok
      refine ⟨fun c => ⟨tables.gone c, by rw [tables.have_, and_iff_right (sides.1 channels)]⟩, fun c k => ⟨fun h => ?_, fun hc out h => ?_⟩,
        fun key k ka kb => ⟨tables.others key ka kb, fun h => ?_⟩, tables.unserved, fun o none => ?_, fun o c own => ?_⟩
      · exact (served' _ k).2 (tables.kept k _ ((served _ k).1 h) apart)
      · exact (served' _ k).2 (tables.moved k c ((served _ k).1 h) hc out)
      · exact (served' _ k).2 (tables.kept k _ ((served _ k).1 h) kb)
      · exact Console.eq_of_core ((consoles o).1 none)
      · have core := (consoles o).2 c own
        split
        · next moves =>
          rw [if_pos moves] at core
          exact Console.eq_of_core (d := { s.console o with owned := some ⟨p.anchor, c⟩ }) core
        · next goes =>
          rw [if_neg goes] at core
          exact Console.eq_of_core (d := { s.console o with state := .releasing, owned := none }) core
    | false =>
      obtain ⟨same, shows⟩ := State.mergeInto_of_channelless (s := s) (p := p) (q := q) channels
      rw [← ht] at same shows
      have without : ¬ (p.session.hasChannels = true ∨ q.session.hasChannels = true) := fun h => by
        rw [sides.2 h] at channels
        cases channels
      have noP : ∀ c, s.hasChannel ⟨p.anchor, c⟩ = false := fun c => Bool.eq_false_iff.2 fun h => without (.inl ((ofP c).1 h).1)
      have noQ : ∀ c, s.hasChannel ⟨q.anchor, c⟩ ≠ true := fun c h => without (.inr ((ofQ c).1 h).1)
      refine ⟨fun c => ⟨?_, ?_⟩, fun c k => ⟨fun h => ?_, fun _ _ h => ?_⟩, fun key k _ _ => ⟨same.hasChannel key, fun h => ?_⟩,
        ⟨0, [], ?_, nofun⟩, fun o _ => shows o, fun o c own => absurd (have_ o _ own) (noQ c)⟩
      · exact (same.hasChannel _).trans (Bool.eq_false_iff.2 (noQ c))
      · rw [same.hasChannel, noP]
        exact ⟨nofun, fun h => absurd h.1 without⟩
      · exact (same.service _).trans h
      · exact absurd (State.hasChannel_of_served h) (noQ c)
      · exact (same.service _).trans h
      · have ofNone : ∀ key ∈ s.dist.unserved, key.anchor ≠ q.anchor := fun key hk e =>
          noQ key.code (e ▸ (State.hasChannel_iff_entry ok).2 (.inr hk))
        rw [same.unserved, List.filter_eq_self.2 fun key hk => decide_eq_true (.inl (ofNone key hk)),
          List.map_congr_left fun key hk => if_neg (ofNone key hk)]
        simp
  · intro s t a c keep go r ht hr ra apart ok owners ofR absent have_
    subst ra
    rw [State.split_of_room hr] at ht
    obtain ⟨v, z, removed, keeps, made, hz, zc⟩ := State.splitInto_channels (keep := keep) (go := go) ok apart absent
    obtain ⟨w, -, -, rooms, -, -⟩ := State.halves_spec (s := s) (keep := keep) (go := go) apart
    have atA := rooms r.anchor
    rw [if_neg apart, if_pos rfl] at atA
    obtain ⟨x, hx, sitsX, -⟩ := State.splitInto_half atA
    obtain ⟨y, hy, sitsY, -⟩ := State.splitInto_half hz
    have consoles := State.splitInto_consoles (keep := keep) (go := go) apart owners fun o l own => by
      have there := have_ o _ own
      rw [absent] at there
      cases there
    rw [← ht] at made hx hy consoles
    have anchorX : x.anchor = r.anchor := (congrArg Room.anchor sitsX :)
    have profileX : x.profile = r.profile := (congrArg Room.profile sitsX :)
    have sessionX := (State.Halves.of_sitting sitsX).session
    have anchorY : y.anchor = z.anchor := (congrArg Room.anchor sitsY :)
    have profileY : y.profile = z.profile := (congrArg Room.profile sitsY :)
    have sessionY : y.session = z.session := (congrArg Room.session sitsY :)
    have channels : ∀ key : Key, key.anchor ≠ c → (t.hasChannel key = true ↔ s.hasChannel key = true ∧
        key ∉ State.lostKeys r.anchor (halfRoom s r r.anchor keep)) := fun key other => by
      rw [made.channels, removed.channels, or_iff_left]
      exact fun h => other ((State.mem_channelKeys.1 h).2.1.trans zc)
    have present : ∀ key : Key, (key.anchor = r.anchor → x.session.hasChannels = true) →
        key ∉ State.lostKeys r.anchor (halfRoom s r r.anchor keep) := fun key has lost => by
      obtain ⟨ends, anchor, -⟩ := State.mem_lostKeys_iff.1 lost
      have now := has anchor
      rw [sessionX, if_pos ends] at now
      cases now
    refine ⟨x, y, hx, hy, anchorX, anchorY.trans zc, fun l => ?_, fun l => ?_, fun key k has other => ⟨?_, fun h => ?_⟩, fun same => ?_,
      fun o l own use home => ?_, fun o free => ?_⟩
    · rw [anchorX, profileX, channels _ apart, ofR l, State.mem_lostKeys_iff, sessionX]
      split
      · next ends =>
        simp only [ends, true_and, and_self]
        constructor
        · exact fun h => absurd h.1.2 h.2
        · exact fun h => nomatch h.1
      · next stays => exact and_iff_left fun h => stays h.1
    · rw [anchorY, profileY, sessionY, made.channels, removed.channels, State.mem_channelKeys, zc, absent]
      simp
    · rw [Bool.eq_iff_iff, channels key other]
      exact and_iff_left (present key has)
    · exact (State.service_eq_served_iff made.ok).2 (made.kept k key (removed.kept k key
        ((State.service_eq_served_iff ok).1 h) (present key has)))
    · obtain ⟨new, list, mem⟩ := made.unserved
      refine ⟨new, ?_, fun key hk => (State.mem_channelKeys.1 (mem key hk)).2.1.trans zc⟩
      rw [list, (keeps fun ends => ?_).unserved]
      rw [sessionX, if_pos ends, ends.1] at same
      cases same
    · have core := consoles o
      rw [if_pos ⟨use, home⟩, Console.moved_of_owned own] at core
      exact Console.eq_of_core (d := { s.console o with owned := some ⟨c, l⟩ }) core
    · have core := consoles o
      split at core
      · next homed =>
        have unowned := free.resolve_right fun h => h.elim (fun out => by rw [homed.1] at out; cases out) fun out => out homed.2
        rw [Console.moved_of_free unowned] at core
        exact Console.eq_of_core core
      · exact Console.eq_of_core core
end
